-- ==== Sys2Proof/Word.lean ====
section
/-! DEFINITION. The word types of the TH512 (R4, R380): 32-bit register words and bytes. -/

namespace Sys2Proof

/-- A 32-bit register or payload word. -/
abbrev W := BitVec 32

/-- A byte. -/
abbrev Byte := BitVec 8

end Sys2Proof
end

