-- ==== Sys2Proof/Operand.lean ====
section
/-! DEFINITION. The operands of the commands: what the outside world brings with a command (a datagram, a message of a link
partner, an advertisement, an outcome of a measurement). -/

namespace Sys2Proof

/-- The operation of an atomic (R163, Table 12.5). -/
inductive AtomOp where
  | fetchAdd | swap | cas
  deriving DecidableEq, Repr

/-- MetaValue of CXL.mem requests: I, S, A (R157). -/
inductive MetaV where
  | i | s | a
  deriving DecidableEq, Repr

/-- Messages of fabric ports (Table 4.1). -/
inductive MsgKind where
  /-- CXL.io and PCI Express posted memory write, message, MSI write (MC0). -/
  | ioWr | ioMsg | ioMsi
  /-- CXL.io and PCI Express memory read, configuration read and write, I/O read and write (MC1). -/
  | ioRd | cfgRd | cfgWr | ioPortRd | ioPortWr
  /-- Unordered I/O memory write of a device, a non-posted request (Table 7.3) and so of MC1. -/
  | uioWr
  /-- AtomicOp request (MC1) with its operand size in bytes. -/
  | ioAtomic (op : AtomOp) (size : Nat)
  /-- Completion without and with data (MC2). -/
  | cpl | cplD
  /-- M2S Req (MC3); BIConflict is carried as one (R172). -/
  | memRd | memRdData | memInv | memSpecRd | biConflict
  /-- M2S RwD (MC4). -/
  | memWr | memWrPtl
  /-- M2S BIRsp (MC5). -/
  | biRspI | biRspS | biRspE
  /-- S2M NDR (MC6). -/
  | cmp | cmpS | cmpE | biConflictAck
  /-- S2M DRS (MC7). -/
  | memData
  /-- S2M BISnp (MC8). -/
  | biSnpCur | biSnpData | biSnpInv
  /-- CXL.cache requests, device to host and host to device (MC9). -/
  | d2hReq | h2dReq
  /-- CXL.cache responses (MC10) and data (MC11). -/
  | d2hRsp | h2dRsp | d2hData | h2dData
  deriving DecidableEq, Repr

/-- A message as a link partner sends it. -/
structure MsgIn where
  kind : MsgKind
  /-- MetaValue of a MemRd, MemInv, MemWr or MemWrPtl. -/
  mv : MetaV := .i
  /-- Request tag, or the tag of the request a response answers. -/
  tag : Nat := 0
  /-- Host physical address of a request; line address of a BIRsp; device address of a device's snoop. -/
  addr : Nat := 0
  /-- Payload length in bytes. -/
  len : Nat := 0
  data : List Byte := []
  poison : Bool := false
  /-- What a host's request routed by ID names: a virtual bridge, for the target below it; 64, the function of its own upstream
  port; 128 + 8 × device + function, a function on the instance's internal bus (R101). -/
  vb : Nat := 0
  /-- Cache ID of a CXL.cache message (Table 2.2). -/
  cacheId : Nat := 0
  /-- LD-ID on a link to a multi-logical device. -/
  ld : Nat := 0
  /-- Destination port identifier on a trunk link. -/
  pbr : Nat := 0
  /-- Identifier of the sender on a trunk link. -/
  spid : Nat := 0
  /-- Unordered I/O read or peer-to-peer request of a device (R131); otherwise a device's request goes to its host. -/
  p2p : Bool := false
  /-- Relaxed Ordering and ID-Based Ordering attributes, requester ID (Table 4.4). -/
  ro : Bool := false
  ido : Bool := false
  rid : Nat := 0
  /-- Data that a CXL.io read requests, in bytes. -/
  want : Nat := 0
  /-- TLP header of 16 bytes rather than 12 (Table 5.3). -/
  longHdr : Bool := false
  /-- Whether the tail has arrived with the header. -/
  tail : Bool := true
  /-- Malformed (R37), and whether its header identifies its kind and requester. -/
  malformed : Bool := false
  decodable : Bool := true
  status : Nat := 0
  deriving DecidableEq, Repr

/-- A response to a page mover's request that reaches the hub (R198): its message, and whether the hub's copy buffer finds the line
uncorrectable (Table 15.3). -/
structure LineBack where
  id : Nat
  bad : Bool := false
  deriving DecidableEq, Repr

/-- A link that enters a low-power state (R28): its port, and whether L0p rather than L1. -/
structure LowPower where
  port : Nat
  l0p : Bool := false
  deriving DecidableEq, Repr

/-- A lane at the end of a loop check (R121): its checker's lock, and the errors that it has counted. -/
structure LoopLane where
  locked : Bool := true
  errors : Nat := 0
  deriving DecidableEq, Repr

/-- What a partner advertises in Configuration (R34). -/
structure PartnerAdv where
  /-- Highest rate, coded as MAX_RATE; 7 for a rate above 128 GT/s. -/
  maxRate : Nat := 0
  cxl : Bool := false
  /-- CXL version: 11, 20, 30, 31; greater for a later version. -/
  version : Nat := 31
  flit : Bool := false
  lopt : Bool := false
  cache : Bool := false
  /-- Equalization bypass, and no equalization needed (R50). -/
  eqBypass : Bool := false
  noEq : Bool := false
  /-- Loopback bit set in the training sets (R54). -/
  loopback : Bool := false
  /-- Whether the partner trains as PCI Express when CXL is refused (R33). -/
  pcie : Bool := true
  /-- Port identifier that a trunk partner announces. -/
  logical : Nat := 0
  deriving DecidableEq, Repr

/-- Equalization found by one lane: c+1, c-1, c-2 and CTLE peaking (LNK_EQ). -/
structure LaneEq where
  post : Nat := 0
  pre : Nat := 0
  pre2 : Nat := 0
  ctle : Nat := 0
  deriving DecidableEq, Repr

/-- What the completion of a training step brings with it. -/
structure TrainInfo where
  adv : PartnerAdv := {}
  /-- Lanes trained (R25); reversed order (R53). -/
  width : Nat := 16
  reversed : Bool := false
  /-- Polling: the lanes of the port, in normal order, that have lock, and those of inverted polarity, as masks (R53). -/
  locked : Nat := 0xFFFF
  polInv : Nat := 0
  /-- A phase of the step's equalization that begins, none where the step is complete; what equalization has found. -/
  phase : Option Nat := none
  eq : List LaneEq := []
  deriving DecidableEq, Repr

/-- The outcome of one received flit, block or symbol group (R42 to R44); `malformed` is a flit without error whose contents the
protocol does not know (R37), `realign` an EIEOS or SKP ordered set (R43), and `adapted` a step of the receiver's adaptation, to a CTLE
peaking in dB (R55). -/
inductive FlitOutcome where
  | good | fecCorrected | fecUncorrectable | crcFail | decErr | dispErr | syncErr | malformed | realign | adapted (db : Nat)
  deriving DecidableEq, Repr

/-- What the codes of the home slice's storage report on a look-up (R179 to R181). -/
inductive HomeErr where
  /-- No error. -/
  | clean
  /-- Snoop-filter entry corrected; a way of the set uncorrectable; one with a read-back that fails too. -/
  | sfCorrected | sfUncorrectable (way : Nat) | sfStuck (way : Nat)
  /-- Uncorrectable line-lock, home request queue or agent-cache line; uncorrectable agent copy. -/
  | lineUncorrectable | copyUncorrectable
  deriving DecidableEq, Repr

/-- Why a port went down (R79, Table 14.2 bit 6). -/
inductive DownCause where
  | detect | disabled | hotReset | retryBuffer
  deriving DecidableEq, Repr

/-- The input of a slot channel that a voltage event is about (R338). -/
inductive VinInput where
  | vin | feedA | feedB
  deriving DecidableEq, Repr

/-- A sample of a slot channel (R349): current in mA (two's complement), voltages in mV, temperature in 1/16 °C (two's complement);
and the current and VIN of the samples that were taken before it since the latest read. -/
structure SlotSample where
  ma : W := 0
  vin : Nat := 0
  vout : Nat := 0
  vfa : Nat := 0
  vfb : Nat := 0
  /-- None where no good diode reading exists. -/
  temp : Option Nat := none
  before : List (W × Nat) := []
  deriving DecidableEq, Repr

/-- JTAG instructions (Table 19.7). -/
inductive JtagInstr where
  | bypass | idcode | sample | extest | clamp | highz | extestPulse | extestTrain | debug
  deriving DecidableEq, Repr

/-- A KMP request, as the datagram and its source give it (R234, R235). The opcode is the command's row. -/
structure KmpReq where
  /-- Management port, 0 for A and 1 for B. -/
  eth : Nat := 0
  ip : Nat := 0
  ipv6 : Bool := true
  udp : Nat := 0
  /-- Header fields of Table 12.2. -/
  major : Nat := 1
  seq : Nat := 0
  session : Nat := 0
  /-- MAC address that the frame came from. -/
  mac : Nat := 0
  words : List W := []
  /-- A flash operation of the command fails (R271). -/
  flashError : Bool := false
  /-- What a device answers to a tunnelled command, none where nothing arrives in time (R248). -/
  response : Option (List Byte) := none
  deriving DecidableEq, Repr

/-- What a frame of a management port carries (Table 5.5); for KMP its source and its header's session and opcode. -/
inductive FrameClass where
  | arp | nd | eapol
  | kmp (ip udp session opcode : Nat)
  | icmp | ip | other
  deriving DecidableEq, Repr

/-- A frame as a management port receives it (R229, R233, R100): bytes from destination address to FCS on the wire and as the
MAC client sees them, its VLAN IDs, whether its FCS is wrong, whether it is a PAUSE frame, its MACsec protection (0 none, 1
verified, 2 failed). -/
structure FrameIn where
  wire : Nat := 64
  len : Nat := 64
  tags : List Nat := []
  fcsBad : Bool := false
  pause : Bool := false
  macsec : Nat := 0
  cls : FrameClass := .other
  deriving DecidableEq, Repr

/-- A frame of the key agreement (R232): CKN, whether its integrity check passes under the CAK, the sender's key server priority
and whether it wins a tie, whether it names this port as live, whether it distributes a SAK, whether it has the latest SAK in use. -/
structure MkaIn where
  ckn : List Byte := []
  good : Bool := true
  priority : Nat := 0
  wins : Bool := false
  live : Bool := false
  sak : Bool := false
  inUse : Bool := false
  deriving DecidableEq, Repr

/-- What start-up finds (Table 13.9): pages that the board's flash holds, how the flash answers (0 as R251 asks, 1 no SFDP, 2 too
small), checkers that fail by unit and cluster, units with an array that stays faulty, and soft repairs by unit and cluster. -/
structure StartIn where
  pages : List (Nat × List Byte) := []
  flash : Nat := 0
  chkFail : List (Nat × Nat) := []
  memFail : Nat := 0
  soft : List (Nat × Nat × Nat) := []
  deriving DecidableEq, Repr

end Sys2Proof
end

