-- ==== Sys2Proof/Syntax.lean ====
section
/-! DEFINITION. The commands of the TH512: one constructor for each row of spec/opcode_table.json, in the table's order, with
the operands that the row's rule gives it. -/

namespace Sys2Proof

/-- A command. Each constructor is a row of the table; its docstring is the row's rule and summary. -/
inductive Instr where
  /-- R3: Assertion of PWRON_N for 5 µs or more returns every field to its reset value and restarts the time base. -/
  | coldReset (lowNs : Nat)
  /-- R322: An always-on brown-out (overdraw in low-power mode, or VDD_AO below 2.9 V) sets AO_BROWNOUT and causes a cold reset. -/
  | aoBrownout (biasHeld : Bool)
  /-- R268: Release of PWRON_N, or a warm reset, starts the start-up sequence: fuses, repair, checker self-test, memory BIST, Ethernet start and slot selection. -/
  | startUp (x : StartIn)
  /-- R261: When the full check passes, the sections are applied in order, KMP gives full service and IMG_STS.STATE becomes 1. -/
  | imageDone
  /-- R269: At FIRST_WAVE_MS plus WAVE_GAP_MS times w, the cells of wave w have their port configuration checked and begin training. -/
  | waveBegin (w : Nat)
  /-- R260: At 1 s after start-up, anti-rollback fuses are blown up to the loaded image's ROLLBACK when RB_ADVANCE is 1. -/
  | rollbackAdvance
  /-- R236: Opens a KMP session, agreeing the major version, the keepalive and optionally the relay role. -/
  | hello (q : KmpReq)
  /-- R239: Ends the session after the reply. -/
  | bye (q : KmpReq)
  /-- R235: Returns the request's words unchanged. -/
  | echo (q : KmpReq)
  /-- R247: Claims or releases the relay role, resending pending relayed commands to a new holder or completing them with Retry Required. -/
  | relayClaim (q : KmpReq)
  /-- R245: Performs up to 64 agent-level MAS reads in order, stopping at the first denied or misaligned access. -/
  | regRead (q : KmpReq)
  /-- R245: Performs up to 64 agent-level MAS writes in order, stopping at the first denied or misaligned access. -/
  | regWrite (q : KmpReq)
  /-- R245: Reads and writes one register with no other MAS access between them. -/
  | regRmw (q : KmpReq)
  /-- R245: Reads up to 2,048 words at ascending addresses. -/
  | bulkRead (q : KmpReq)
  /-- R245: Writes up to 2,048 words at ascending addresses. -/
  | bulkWrite (q : KmpReq)
  /-- R359: Reads counters through the maintenance port in 16-counter transfers, with stamped values split across replies. -/
  | counterSweep (q : KmpReq)
  /-- R108: Binds a target to a virtual bridge after the checks of Table 6.3, at a new epoch, and reports presence to the host. -/
  | bindVppb (q : KmpReq)
  /-- R111: UNBIND_VPPB in mode 0 removes the target at a new epoch and drains the work in scope before the binding is removed. -/
  | unbindDrain (q : KmpReq)
  /-- R112: UNBIND_VPPB in mode 1 squashes all work in scope and removes the binding. -/
  | unbindSquash (q : KmpReq)
  /-- R118: Takes a port out of service, squashing its bindings or detaching its instance. -/
  | portRemove (q : KmpReq)
  /-- R119: Starts training of an Out of service or Failed port into quarantine. -/
  | portAdmit (q : KmpReq)
  /-- R119: Attaches an instance to its Ready upstream port, putting the port In service. -/
  | instAttach (q : KmpReq)
  /-- R135: Carries staging contents and a commit of one fabric window through the binding engine. -/
  | windowSet (q : KmpReq)
  /-- R165: Creates a grove after the checks of Table 8.7, writing grove tables in all regions and entering Seeding. -/
  | groveCreate (q : KmpReq)
  /-- R167: Adds a pending member to a Seeding or Standing grove. -/
  | groveMemberAdd (q : KmpReq)
  /-- R167: Removes a member, denying its requests from a new epoch and then walking the snoop filters. -/
  | groveMemberRemove (q : KmpReq)
  /-- R168: Dissolves a grove by its state, denying, walking, removing windows and releasing targets, or freeing a Felled grove once writes close. -/
  | groveDissolve (q : KmpReq)
  /-- R163: Performs an atomic operation at a grove address in the home region's agent cache and returns the original value. -/
  | fabricAtomic (q : KmpReq)
  /-- R195: Creates an extent remap entry in Armed, assigns a channel and turns mirroring on. -/
  | graftCreate (q : KmpReq)
  /-- R202: Aborts a graft in Armed, Copying or Flipping, leaving the source authoritative. -/
  | graftAbort (q : KmpReq)
  /-- R201: GRAFT_RELEASE in mode 0 frees a Set entry at a new epoch only if no committed window reaches the source. -/
  | graftReleaseChecked (q : KmpReq)
  /-- R201: GRAFT_RELEASE in mode 1 frees a Set entry at a new epoch even if a window reaches the source. -/
  | graftReleaseForced (q : KmpReq)
  /-- R206: Commits a private window with one target replaced by a fully grafted range, freeing the entries when its epoch commits. -/
  | graftSettle (q : KmpReq)
  /-- R247: Completes a relayed mailbox command with the manager's return code and payload. -/
  | mailboxReply (q : KmpReq)
  /-- R248: Answers, refuses or passes on a CXL Fabric Manager API request. -/
  | fmapiTunnel (q : KmpReq)
  /-- R313: Reports the powered domain mask and the operating point. -/
  | powerQuery (q : KmpReq)
  /-- R314: Powers off the named domains and those below them, all or nothing, through the entry handshake. -/
  | powerOff (q : KmpReq)
  /-- R314: Powers on the named domains and those above them. -/
  | powerOn (q : KmpReq)
  /-- R320: Checks the alarm and conditions and enters Dormant through the steps of Table 16.5. -/
  | enterDormant (q : KmpReq)
  /-- R324: Changes the core operating point, ordering the clock and voltage changes by direction. -/
  | setOperatingPoint (q : KmpReq)
  /-- R292: Clears one collector's record, or every record bottom up, reporting live bits or refusals. -/
  | faultClear (q : KmpReq)
  /-- R288: FAULT_RESUME in mode 0 leaves safe state, drives the healthy code and restarts the cells in waves. -/
  | faultResumeRestart (q : KmpReq)
  /-- R288: FAULT_RESUME in mode 1 replies and then performs a warm reset. -/
  | faultResumeWarm (q : KmpReq)
  /-- R3: Replies and then performs a warm reset, ending every session. -/
  | chipReset (q : KmpReq)
  /-- R368: SELF_TEST code 1 tests named units' clusters in locked 64-word sections with save and restore. -/
  | selfTestMemory (q : KmpReq)
  /-- R369: SELF_TEST code 2 powers named regions down, runs full memory BIST and wakes them. -/
  | selfTestFullBist (q : KmpReq)
  /-- R369: SELF_TEST code 3 runs logic BIST on named regions and compares the signatures. -/
  | selfTestLogicBist (q : KmpReq)
  /-- R368: SELF_TEST code 4 runs near-end serial PRBS31 loops at every rate on named Disabled cells. -/
  | selfTestLane (q : KmpReq)
  /-- R368: SELF_TEST code 5 checks the converters of named enabled slot channels against reference levels. -/
  | selfTestSlotConverter (q : KmpReq)
  /-- R365: SELF_TEST code 6 tests each droop comparator of named regions against an injected offset. -/
  | selfTestDroop (q : KmpReq)
  /-- R365: SELF_TEST code 7 checks the ten temperature sensors against an internal reference and their median. -/
  | selfTestTemperature (q : KmpReq)
  /-- R368: A section not done within 2 µs is restored and unlocked, to be retried after 100 µs or skipped after three retries. -/
  | testSectionTimeout (u : Nat) (c : Nat) (n : Nat)
  /-- R368: A section retries its test 100 µs after a timeout. -/
  | testSectionRetry (u : Nat) (c : Nat) (n : Nat)
  /-- R370: A test ends and its reply with result, duration and masks is sent. -/
  | selfTestEnd (failed : Nat) (sigs : List Nat) (bad : List (Nat × Nat × Nat))
  /-- R271: Erases 4 KiB sectors of a flash area, refusing the loaded slot. -/
  | imageErase (q : KmpReq)
  /-- R271: Writes raw page bytes to a flash area as given, refusing the loaded slot. -/
  | imageWrite (q : KmpReq)
  /-- R271: Returns raw, uncorrected flash bytes. -/
  | imageRead (q : KmpReq)
  /-- R271: Runs the full image check on a slot without applying it. -/
  | imageVerify (q : KmpReq)
  /-- R236: Returns the life-cycle state code. -/
  | lcState (q : KmpReq)
  /-- R374: LC_RETURN phase 0 returns the chip ID and a fresh 128-bit challenge. -/
  | lcReturnChallenge (q : KmpReq)
  /-- R374: LC_RETURN phase 1 checks a signed token against the challenge and key hash and blows the Return fuse. -/
  | lcReturnToken (q : KmpReq)
  /-- R374: An outstanding Return challenge becomes invalid after 600 s. -/
  | lcChallengeExpire
  /-- R373: Blows the fuses of a permitted life-cycle transition and verifies them. -/
  | lcAdvance (q : KmpReq)
  /-- R373: Fuse programming completes; after SUCCESS a warm reset applies the new state. -/
  | lcFuseProgramDone (ok : Bool) (left : Nat)
  /-- R244: An acknowledgement retires an unacknowledged event, letting queued events and EVENTS_LOST be sent. -/
  | eventAck (q : KmpReq) (code : Nat)
  /-- R244: An unacknowledged event is sent again every EVT_RETRY, and the session ends after EVT_TRIES sends. -/
  | eventRetry (num : Nat) (seq : Nat)
  /-- R239: A session with no valid message within its keepalive ends, dropping queued events and its relay role. -/
  | sessionKeepaliveExpire (num : Nat)
  /-- R241: Held out-of-order requests are discarded when their gap is not filled within GAP_MS. -/
  | sequenceGapExpire (num : Nat)
  /-- R234: A datagram of wrong length, wrong magic or fragmented is discarded and counted. -/
  | kmpDatagramDiscard (e : Nat)
  /-- R239: A write of KMP_CFG ends every session. -/
  | kmpCfgWrite (v : W)
  /-- R100: A received frame passes MAC, VLAN and MACsec checks and is matched to a policer that passes or drops it. -/
  | ethFrameReceive (e : Nat) (f : FrameIn)
  /-- R230: The port answers an ARP request. -/
  | arpRequest (e : Nat) (ip : Nat)
  /-- R230: The port answers an IPv6 neighbour solicitation. -/
  | neighbourSolicitation (e : Nat) (ip : Nat)
  /-- R230: The port answers an ICMP or ICMPv6 echo request. -/
  | icmpEchoRequest (e : Nat) (v6 : Bool) (ip : Nat) (data : List Byte)
  /-- R232: An EAPOL MKA frame drives the key agreement that secures the port. -/
  | mkaFrame (e : Nat) (m : MkaIn)
  /-- R232: As key server, the TH512 distributes a new SAK once the transmit packet number passes 2^62. -/
  | sakRekey (e : Nat) (pn : Nat)
  /-- R228: A management port link comes up after its PHY training or auto-negotiation. -/
  | ethLinkUp (e : Nat) (phy : Nat) (fec : Nat)
  /-- R231: A management port link goes down, ending every session carried on it. -/
  | ethLinkDown (e : Nat)
  /-- R26: A port configuration write is accepted on a Disabled port, disables a live port when ROLE is 0, or is refused. -/
  | celPortCfgWrite (c : Nat) (v : W)
  /-- R49: Receiver detection finds a partner and Polling begins. -/
  | partnerDetected (p : Nat)
  /-- R51: A port with no partner repeats receiver detection every 12 ms. -/
  | receiverDetectRepeat (p : Nat)
  /-- R49: A step of link bring-up completes, including negotiation of R34, and the next step begins. -/
  | trainingStepComplete (p : Nat) (info : TrainInfo)
  /-- R49: A bring-up step fails or times out and the LTSSM returns toward Detect. -/
  | trainingStepFail (p : Nat)
  /-- R49: Step 10 completes: credits initialised and the port reported up unless a flush or reset withholds it. -/
  | linkUp (p : Nat) (lds : Nat) (hdr : List Nat) (dat : List Nat)
  /-- R44: A flit, block or symbol group is received, checked by FEC, CRC and coding, and replayed on error. -/
  | linkFlitReceive (p : Nat) (lane : Nat) (o : FlitOutcome)
  /-- R74: A cut-through message's CRC fails after forwarding, so the forwarded copy is nullified or poisoned. -/
  | messageTailCrcFail (p : Nat) (m : Nat)
  /-- R45: More than 64 errors in 1 ms make the port re-equalize in Recovery; a third in 1 s drops the rate, and at 2.5 GT/s goes to Detect. -/
  | reEqualization (p : Nat)
  /-- R37: A credit overflow or link protocol violation retrains through Detect; a third in 1 s isolates the port. -/
  | linkProtocolViolation (p : Nat)
  /-- R38: An upstream CSB low for 1 µs stops training and starts the PERST_N reset of the instance. -/
  | perstNAssert (p : Nat) (lowNs : Nat)
  /-- R52: Release of PERST_N restarts training from step 2. -/
  | perstNRelease (p : Nat)
  /-- R113: The upstream link enters Hot Reset, flushing the upstream port and draining the instance. -/
  | upstreamHotReset (p : Nat)
  /-- R79: Downstream Port Containment triggers, making the port down. -/
  | dpcTrigger (p : Nat)
  /-- R63: A partner-ordered margining command stops any register scan on the lane. -/
  | partnerLaneMargining (c : Nat) (lane : Nat) (on : Bool) (errors : Nat)
  /-- R62: LNK_MARGIN.START clears the result and starts or restarts a scan, or is refused. -/
  | marginScanStart (c : Nat) (lane : Nat) (v : W)
  /-- R62: A scan ends after its dwell with the disagreement count. -/
  | marginScanDone (c : Nat) (lane : Nat) (errors : Nat)
  /-- R58: TEST_EN = 1 runs a Disabled cell without training at MAX_RATE, or is refused. -/
  | testEnable (c : Nat) (v : W)
  /-- R59: TEST_EN = 0 ends every loop, generator and checker and idles the transmitters. -/
  | testDisable (c : Nat) (v : W)
  /-- R57: A nonzero LOOP_MODE write is accepted on a Disabled cell after its wave, or refused. -/
  | loopModeSet (c : Nat) (v : W)
  /-- R58: A partner that does not follow Loopback within 24 ms sets TEST_REFUSED. -/
  | remoteLoopbackTimeout (c : Nat)
  /-- R61: LNK_PRBS.CLEAR zeroes the error and bit counts. -/
  | prbsClear (c : Nat) (lane : Nat) (v : W)
  /-- R61: The checker sets LOCK after 64 consecutive error-free bits. -/
  | prbsCheckerLock (c : Nat) (lane : Nat)
  /-- R61: The checker counts `errors` errors since it was last named, `burst` of them in the latest 256 bits; it clears LOCK after 32
  errors in 256 bits and reseeds. -/
  | prbsCheckerUnlock (c : Nat) (lane : Nat) (errors : Nat) (burst : Nat)
  /-- R69: An arriving message is admitted to the shared pool or its reserve, decoded, classified and access-checked, with credits returned as R70 states. -/
  | ingressMessageArrival (p : Nat) (m : MsgIn)
  /-- R94: Every 64 ns each contract bucket gains its rate, releasing waiting messages once cap is at or above 0. -/
  | contractBucketRefill (p : Nat)
  /-- R94: Setting QOS_CON_CFG.EN to 1 fills both buckets to the ceiling. -/
  | contractEnable (p : Nat)
  /-- R99: A committed message waiting over 100 µs for a closed queue sets MIN_SHORT and logs a notice. -/
  | committedWaitTimeout (p : Nat)
  /-- R71: A decoded message moves to its egress queue, or to the mesh under a landing credit, once the queue is open. -/
  | ingressToEgressMove (m : Nat) (ecc : Nat)
  /-- R216: A node injects a packet into the mesh once it holds a landing credit, stamping the route epoch. -/
  | meshInject (m : Nat)
  /-- R212: A router receives a packet, checks its header code and forwards it by the table of its epoch. -/
  | meshPacketArrive (m : Nat) (net : Nat) (header : Nat)
  /-- R72: A landed message whose parts have all landed moves into its egress queue under the overshoot rule, returning its landing credit. -/
  | landingMove (m : Nat)
  /-- R77: A landed multicast copy is stored once in the residue queue, referencing open queues and waiting for closed ones. -/
  | multicastCopyLand (m : Nat)
  /-- R78: A reopened egress queue first takes its waiting residue references, oldest first. -/
  | egressQueueReopen (p : Nat) (sc : Nat)
  /-- R72: At least every 16 core cycles a region sends the open and pressed states of its egress queues. -/
  | queueStateBroadcast (r : Nat)
  /-- R89: The egress scheduler selects an eligible candidate by strict and deficit-weighted order and sends it on the link. -/
  | egressTransmit (p : Nat)
  /-- R73: The partner returns link credit, making held candidates eligible. -/
  | linkCreditReturn (p : Nat) (mc : Nat) (hdr : Nat) (dat : Nat)
  /-- R225: A transaction's last response reaches its initiator, updating statistics and a histogram bin. -/
  | transactionEnd (t : Nat)
  /-- R79: A port enters Detect, Disabled or Hot Reset, or is squashed, and is flushed. -/
  | portDown (p : Nat) (why : DownCause)
  /-- R80: The flush ends, BUF_FLUSH.BUSY clears and a class P fault names the port. -/
  | flushDone (p : Nat)
  /-- R102: A VCS_INST_CFG write is checked, enabling, disabling or refusing the instance. -/
  | instCfgWrite (n : Nat) (v : W)
  /-- R113: The host sets Secondary Bus Reset in a bound bridge, draining it and then holding a type 1 target in Hot Reset. -/
  | secondaryBusResetSet (n : Nat) (v : Nat)
  /-- R107: The host clears Secondary Bus Reset; the bridge returns to Bound and the target leaves reset. -/
  | secondaryBusResetClear (n : Nat) (v : Nat)
  /-- R111: A drain ends when its access change commits, and the bridge takes its next state. -/
  | drainDone (n : Nat) (v : Nat)
  /-- R111: DRAIN_TO expires and the remainder is squashed with DRAIN_TIMEOUT set. -/
  | drainTimeout (n : Nat) (v : Nat)
  /-- R112: A squash completes its scope and the bridge takes its next state. -/
  | squashDone (n : Nat) (v : Nat)
  /-- R118: A port down longer than DOWN_LIMIT goes out of service. -/
  | downLimitExpire (p : Nat)
  /-- R121: The quarantine loop check ends with every lane passing or one failing. -/
  | loopCheckDone (p : Nat) (lanes : List LoopLane)
  /-- R119: A partner that does not follow Loopback within 24 ms skips the check, or fails it with REQUIRE_LOOP. -/
  | loopCheckTimeout (p : Nat)
  /-- R124: A host's instance mailbox command is answered locally or relayed to the fabric manager. -/
  | mailboxDoorbell (n : Nat) (opcode : Nat) (payload : List Byte)
  /-- R126: A relayed command without reply within RELAY_TO completes with Retry Required. -/
  | mailboxRelayTimeout (n : Nat)
  /-- R135: DEC_STG_CTRL.COMMIT submits a staging set, checked by the binding engine against Table 7.4. -/
  | windowCommit (r : Nat) (v : W)
  /-- R138: When no request of an earlier epoch is open, the epoch commits and held changes and dependent actions proceed. -/
  | epochCommit
  /-- R140: An epoch not committed within COMMIT_TO sets STALLED and logs a notice. -/
  | epochStall (e : Nat)
  /-- R143: A write to MPU_ATTR is checked for size, alignment and overlap, possibly locking the entry, or refused. -/
  | mpuAttrWrite (ini : Nat) (e : Nat) (v : W)
  /-- R143: A write to MPU_BASE is refused while the entry is enabled. -/
  | mpuBaseWrite (ini : Nat) (e : Nat) (v : W)
  /-- R4: A write to a register without behaviour of its own acts by its access types, with unmapped and off-domain outcomes of Table 20.4. -/
  | registerWrite (ini : Nat) (level : Nat) (addr : Nat) (size : Nat) (v : Nat)
  /-- R158: A member's grove message at the home slice blocks its line, looks up the snoop filter and acts by Table 8.2, or waits. -/
  | homeRequest (m : Nat) (err : HomeErr)
  /-- R178: A BIRsp is matched to the oldest outstanding snoop, or discarded as stray, and advances its transaction. -/
  | birspArrival (m : Nat)
  /-- R161: A device MemData or Cmp reaches the home slice and advances its transaction. -/
  | homeDeviceResponse (m : Nat)
  /-- R172: A BIConflict is answered with BI-ConflictAck at once or behind the member's completion. -/
  | biconflict (m : Nat)
  /-- R177: A snoop without BIRsp within BIRSP_TO makes the member a dead agent and fells the grove. -/
  | birspTimeout (t : Nat) (n : Nat)
  /-- R185: Felling steps end and the grove becomes Felled with JOINED cleared. -/
  | groveFellingComplete (g : Nat)
  /-- R182: Viral from a device is forwarded to its hosts and fells a Standing grove it serves. -/
  | deviceViral (p : Nat)
  /-- R166: Every target In service makes a Seeding grove Standing and eligible members join. -/
  | groveTargetsUp (g : Nat)
  /-- R167: A member removal or dissolution walk ends, windows are removed at a new epoch and the reply is sent. -/
  | removalWalkDone (g : Nat)
  /-- R163: A member's AtomicOp to a grove window is performed in the agent cache after snooping holders. -/
  | agentAtomic (m : Nat) (err : HomeErr)
  /-- R169: SNF_PROBE_ADDR_HI.START reads a snoop-filter entry and agent copy without changing them. -/
  | snfProbeStart (r : Nat) (v : W) (err : HomeErr)
  /-- R208: ERT_PROBE_SRC.START reads an extent remap entry without changing it. -/
  | ertProbeStart (r : Nat) (v : W)
  /-- R196: Once pre-arming writes have their Cmps, the graft enters Copying and chunk reads start. -/
  | graftArmedDrained (c : Nat)
  /-- R198: A locked chunk's 64 line reads issue once earlier writes to it have their source Cmps. -/
  | chunkReadIssue (c : Nat) (k : Nat)
  /-- R198: A returned line is written to the target, and the chunk lock ends after its last target write. -/
  | chunkLineReturn (x : LineBack)
  /-- R197: A mirrored write completes to the requester once both Cmps arrive. -/
  | mirroredWriteComplete (k : Nat)
  /-- R196: Target Cmps of all 512 chunks arrive and the graft enters Flipping, holding new writes. -/
  | graftCopyDone (c : Nat)
  /-- R200: With no mirrored write open, the entry switches to the target at a new epoch and held writes go to the target. -/
  | graftSwitch (c : Nat)
  /-- R202: A channel request or the Armed wait exceeds XFER_TO and the graft aborts with cause 6. -/
  | graftXferTimeout (c : Nat)
  /-- R200: Flipping exceeds FLIP_TO and the graft aborts with cause 7. -/
  | graftFlipTimeout (c : Nat)
  /-- R203: Writing 1 to MOV_CH_STS.HALTED returns a halted channel to idle. -/
  | channelHaltClear (c : Nat)
  /-- R219: An inbound packet at a boundary is passed, refuses entry, or is held and raises wake, by boundary state. -/
  | boundaryPacketArrive (m : Nat) (net : Nat)
  /-- R315: A domain accepts, refuses or delays power-down entry. -/
  | domainEntryAnswer (d : Nat)
  /-- R315: An entry delay beyond LIMIT refuses the power command with cause 8. -/
  | entryLimitExpire
  /-- R21: Packets inside a closing region have drained and retention save begins. -/
  | regionDrained (r : Nat)
  /-- R22: Retention is saved and power switches open, waking at once if a packet was held. -/
  | retentionSaveDone
  /-- R219: A woken domain reports ready, loads current rules and releases held packets. -/
  | domainReady (node : Nat) (h : Nat) (bad : List (Nat × Nat × Nat))
  /-- R223: NOC_ROUTE_CTRL.FLIP checks the inactive tables and switches the route epoch, or is refused. -/
  | nocRouteFlip (v : W)
  /-- R224: A route epoch marker arrives, releasing held new-epoch packets and setting DRAINED when all have arrived. -/
  | epochMarkerArrive (src : Nat) (dst : Nat) (net : Nat) (vc : Nat) (plane : Nat)
  /-- R223: A NOC_ROUTE write changes an inactive table or is ignored with ACTIVE_WRITE. -/
  | routeTableWrite (node : Nat) (t : Nat) (v : W)
  /-- R226: NOC_STAT_CTRL.SNAP copies all live initiator statistics at one edge. -/
  | statSnapshot (v : W)
  /-- R226: NOC_STAT_CTRL.CLEAR zeroes the live statistics. -/
  | statClear
  /-- R273: A collector passes an opened or changed record to its parent as a child bit within 32 cycles. -/
  | faultRecordPropagate (c : Nat)
  /-- R287: FLT_REC_CTRL.CLEAR logs and closes a record with no live source, or is refused. -/
  | fltRecClear (c : Nat)
  /-- R285: FLT_CFG.FAIL_TEST drives the fault code on the FAIL pair. -/
  | failTest
  /-- R285: 10 ms after FAIL_TEST the healthy code returns. -/
  | failTestEnd
  /-- R286: No heartbeat for 1.5 µs makes the power die drive fault and set slot gates. -/
  | heartbeatLoss
  /-- R286: The returning heartbeat sets chip source bit 10 and the main die enters safe state. -/
  | heartbeatReturn
  /-- R329: Every 100 µs the sensors are sampled, raising warnings or class F above 150 °C. -/
  | temperatureSample (l : List Nat)
  /-- R329: A rail outside its window after a 5 µs filter raises chip source bit 11, class F. -/
  | supplyOutOfWindow (rail : Nat)
  /-- R326: VDD_CORE below the warning threshold slows the region clock and opens a class C record. -/
  | droopWarning (r : Nat) (uv : Nat)
  /-- R326: After 256 undivided cycles above release the region clock returns to full rate. -/
  | droopRelease (r : Nat)
  /-- R326: VDD_CORE below the reset threshold raises region source bit 10, class F. -/
  | droopReset (r : Nat) (uv : Nat)
  /-- R326: A PWR_DROOP_CFG write outside the ranges is refused whole with REFUSED set. -/
  | droopCfgWrite (v : W)
  /-- R324: The regulator reports the raised voltage settled and the clock then changes. -/
  | avsSettled (retries : Nat)
  /-- R325: A raise not settled within SETTLE_TO writes back the old voltage and returns AVS_TIMEOUT. -/
  | avsSettleTimeout
  /-- R333: The always-on count reaches the alarm, setting ALARM, disarming it and waking from Dormant. -/
  | alarmFire (bad : List (Nat × Nat × Nat))
  /-- R330: Loss of the hub reference holds the PLL frequency and sets SRC_LOST. -/
  | refclkLoss (which : Nat)
  /-- R330: After 1,024 stable crystal cycles the always-on domain moves to the crystal. -/
  | xtalStable
  /-- R330: A stopped crystal returns the always-on domain to its oscillator and sets XTAL_FAIL. -/
  | xtalFail
  /-- R334: A read of TMB_NOW_LO latches TMB_NOW_HI and TMB_NOW_FRAC. -/
  | timeBaseRead (ini : Nat)
  /-- R297: A narrow write to management SRAM or DMA buffers enters a merge buffer entry. -/
  | sramNarrowWrite (dma : Bool) (a : Nat) (data : List Byte)
  /-- R297: A merge entry is read, merged, recoded and written on its flush condition, poisoned if the stored word is uncorrectable. -/
  | mergeBufferFlush (dma : Bool) (w : Nat) (bad : Bool)
  /-- R302: ECC_SCRUB_CTRL.START starts a scrub of a cluster range, or is refused. -/
  | scrubStart (blk : Nat) (c : Nat) (v : W)
  /-- R303: Every 2^PACE cycles the scrubber reads, checks and if corrected writes back one word. -/
  | scrubWord (blk : Nat) (c : Nat) (err : Nat) (waitNs : Nat) (restarts : Nat)
  /-- R305: A scrub ends or is aborted by power entry, leaving its summary. -/
  | scrubEnd (blk : Nat) (c : Nat)
  /-- R300: Writing 1 to HALT_A or HALT_B restarts a halted Ethernet DMA engine. -/
  | dmaHaltClear (v : W)
  /-- R336: SLT_CTRL.EN 0 to 1 is checked and powers the channel domain into Absent. -/
  | slotEnable (k : Nat) (v : W)
  /-- R340: SLT_CTRL.EN 1 to 0 turns the gate and feeds off and enters Disabled. -/
  | slotDisable (k : Nat) (v : W)
  /-- R336: A write of SLT_LIMIT.ILIM is checked against class and shunt, or refused. -/
  | slotLimitWrite (k : Nat) (v : W)
  /-- R336: A write to SLT_CFG or SLT_SHUNT is accepted only while Disabled. -/
  | slotCfgWrite (k : Nat) (shunt : Bool) (v : W)
  /-- R339: PRSNT_N low for 20 samples asserts presence and starts qualification. -/
  | slotPresenceAsserted (k : Nat)
  /-- R346: PRSNT_N high for 20 samples turns the gate off and enters Absent. -/
  | slotPresenceLost (k : Nat)
  /-- R338: VIN outside the window for 5 samples turns the gate off with cause 9 or stops the insertion timer. -/
  | slotVinLeaveWindow (k : Nat) (i : VinInput) (mv : Nat)
  /-- R338: VIN back in window with hysteresis restarts the insertion timer. -/
  | slotVinEnterWindow (k : Nat) (i : VinInput) (mv : Nat)
  /-- R340: After INS_DELAY of presence and VIN in window, below TJ_MAX, the gate ramps. -/
  | slotInsertionDelayExpire (k : Nat)
  /-- R416: The gate reaches full enhancement and power-good qualification starts. -/
  | slotFullEnhancement (k : Nat)
  /-- R340: Full enhancement not reached within RAMP_TO trips with cause 4. -/
  | slotRampTimeout (k : Nat)
  /-- R343: 1,000 qualifying samples release PG high, or are withheld if the fault timer starts. -/
  | slotPgQualified (k : Nat) (timerStarts : Bool)
  /-- R341: The current limit acts, starting the fault timer and setting CLA. -/
  | slotLimitAct (k : Nat) (n : Nat)
  /-- R341: The fault timer reaches FTIMER and the channel trips with cause 1. -/
  | slotFaultTimerExpire (k : Nat)
  /-- R342: Sense voltage at twice the limit turns the gate off within 1 µs with cause 2. -/
  | slotFastTrip (k : Nat)
  /-- R348: The temperature acted on reaches TJ_MAX and trips with cause 3. -/
  | slotTempTrip (k : Nat)
  /-- R348: The temperature falls below TJ_MAX and a waiting channel may enter Ramp. -/
  | slotTempBelowTjmax (k : Nat)
  /-- R348: A diode open or short for 1 ms latches the channel off with cause 6. -/
  | slotDiodeFault (k : Nat)
  /-- R340: VOUT below PG_MIN for 20 samples while Powered trips with cause 5. -/
  | slotVoutLost (k : Nat)
  /-- R340: 1 s after a trip the channel ramps again or returns to Qualify. -/
  | slotRetryExpire (k : Nat)
  /-- R345: After 60 s continuously Powered the retry count is cleared. -/
  | slotPowered60s (k : Nat)
  /-- R340: SLT_CTRL.CLEAR leaves Latched off or Pass fault and clears the retry count, or is refused. -/
  | slotClear (k : Nat) (high : Bool)
  /-- R347: VOUT above 1.0 V for 50 ms with the gate off turns both feeds off into Pass fault. -/
  | slotPassFault (k : Nat)
  /-- R337: A feed drop below −5 mV turns that feed switch off within 300 ns. -/
  | slotFeedReverse (k : Nat) (b : Bool) (reversed : Bool)
  /-- R349: SLT_CTRL.ECLR zeroes the energy accumulator. -/
  | slotEnergyClear (k : Nat)
  /-- R350: A read of SLT_MEAS_I latches the other measurements from the same sample. -/
  | slotMeasRead (ini : Nat) (k : Nat) (m : SlotSample)
  /-- R403: VIN_SNS out of 8.5 V to 14.5 V for 5 µs turns every enabled channel off as cause 9. -/
  | vinSnsOutOfRange (mv : Nat)
  /-- R403: VIN_SNS back within range for 5 µs lets channels resume. -/
  | vinSnsRecover (mv : Nat)
  /-- R355: A counter passing 2^48 − 1 wraps and sets its CNT_OVF bit. -/
  | counterWrap (n : Nat) (k : Nat)
  /-- R358: A read of CNT_VAL_LO latches the counter's upper bits. -/
  | counterRead (ini : Nat) (n : Nat)
  /-- R360: Writing CNT_SAMP_CFG.EN = 1 takes the counter's value as base. -/
  | samplingArm (u : Nat) (v : W)
  /-- R360: The counter reaching base + PERIOD sets FIRED, interrupts and advances the base, or adds to MISSED. -/
  | samplingPeriodReached (u : Nat)
  /-- R361: The management complex takes a sampling interrupt within 64 instructions and records CNT_SAMP_PC. -/
  | samplingInterruptTaken (u : Nat) (pc : Nat)
  /-- R363: CNT_HIST_CTRL.COMMIT makes a staged edge set live and zeroes its bins, or is refused. -/
  | histEdgeCommit (v : W)
  /-- R364: Writing FREEZE holds every bin and zeroes MISSED. -/
  | histFreeze (v : W)
  /-- R363: A change of an initiator's edge set selection zeroes its bins. -/
  | histSelWrite (w : Nat) (v : W)
  /-- R364: A read of CNT_HIST_LO latches the bin's upper bits. -/
  | histRead (ini : Nat) (i : Nat) (b : Nat)
  /-- R377: A JTAG instruction is loaded, including boundary scan modes that drop link partners. -/
  | jtagInstructionLoad (i : JtagInstr)
  /-- R147: The debug master accesses the MAS under the life-cycle checks of Table 7.6. -/
  | jtagDebugAccess (addr : Nat) (v : Option W)
  /-- R38: Once a slot-gated downstream port's slot power-good has held for 100 ms (and its wave has begun), its CSB pin is driven high. -/
  | powerGoodHoldExpire (p : Nat)
  /-- R330: The hub reference returns and TMB_STS.SRC_LOST clears; PWR_CLK_STS shows the reference present again. -/
  | refclkReturn (which : Nat)
  /-- R329: A rail monitored by the power die returns inside its window, so chip source bit 11 stops being live and its record can be cleared. -/
  | supplyBackInWindow (rail : Nat)
  /-- R38: The CSB pin of a trunk port changes level; going low logs cell source bit 9 as a class C notice, which stays live while the pin is low. -/
  | trunkCsbChange (p : Nat) (low : Bool)
  /-- R341: The slot fault timer counts down to 0 once the limit stops acting, so CLA clears and power-good qualification can count again. -/
  | slotFaultTimerZero (k : Nat)
  /-- R28: A downstream link enters ASPM L1 (LTSSM code 0x08), or an x8 or x16 flit-mode link L0p, without the port going down. -/
  | aspmL1Entry (x : LowPower)
  /-- R28: A link in ASPM L1 returns to L0 through Recovery, keeping its queues. -/
  | aspmL1Exit (p : Nat)
  deriving DecidableEq, Repr

end Sys2Proof
end

