-- ==== Sys2Proof/Config.lean ====
section
/-! DEFINITION. What spec/ leaves open: uninterpreted constants. Nothing in Lean can evaluate one. A free value is one of
these applied to the counter of free values in the state, or to the data it depends on. -/

namespace Sys2Proof

/-- Which unpinned way the pseudo-LRU tree of a snoop-filter set names (R156), from the tree and the mask of unpinned ways; and the
tree after an access to a way: the spec gives neither the tree's shape nor which accesses change it (log entry 14). -/
opaque Config.victim : Nat → Nat → Nat
opaque Config.plru : Nat → Nat → Nat

/-- Coefficients of a transmitter preset at a rate: c+1, c-1 and c-2 in 1/48 of full swing (R56 names the presets Pn and Qn, which
spec/ does not lay out; log entry 135). -/
opaque Config.presetCoef : Nat → Nat → Nat × Nat × Nat

/-- What a read of the configuration space of one of the chip's own functions returns, four bytes, where spec/ says nothing of them;
the offset of a capability in the space of the upstream port's function (0) or of a bridge (1); Mladnor's PCI-SIG vendor ID (log
entry 21). -/
opaque Config.cfgSpace : Nat → Nat
opaque Config.capAt : Nat → Nat → Nat
opaque Config.vendorId : Nat

/-- SHA-384 of a string of bytes, as a number; a signature by ECDSA P-384 with SHA-384 (key, message, signature). The standards
that define them are not in spec/ (log entry 16). -/
opaque Config.sha384 : List Byte → Nat
opaque Config.ecdsaOk : List Byte → List Byte → List Byte → Bool

/-- A challenge from the internal entropy source (R374; log entry 16). -/
opaque Config.entropy : Nat → Nat

/-- Bytes of the boot ROM, which are not an interface (R413; log entry 16). -/
opaque Config.bootRom : Nat → Byte

/-- Mladnor's manufacturer identity in IDCODE (R377; log entry 16). -/
opaque Config.jtagMaker : Nat

/-- What a read of a word that its code finds uncorrectable returns to an Ethernet DMA engine, a page-mover channel or the debug
master (Table 15.3 gives a result for the management complex only; log entry 17). -/
opaque Config.lostWord : Nat → Nat

/-- Payload of a CCI response: opcode, the values that it carries (Table 6.10), and the counter of free values for what else it holds;
spec/ does not lay it out (log entry 20). -/
opaque Config.cciAnswer : Nat → List Nat → Nat → List Byte

/-- Status of the reply to a fabric atomic that spec/ gives none: a grove neither Standing nor felled, an address outside it, an
operation that PCI Express does not allow (log entry 19). -/
opaque Config.atomicStatus : Nat → Nat

/-- Address and data of an MSI write, which a host programs in the configuration space (log entries 21, 139). -/
opaque Config.msi : Nat → Nat × Nat

/-- Index of the word that a code reported, where the command does not name it (R293; log entry 18). -/
opaque Config.eccIndex : Nat → Nat

end Sys2Proof
end

