-- ==== Sys2Proof/Machine/Table.lean ====
section
/-! DEFINITION. Sparse tables: a list of keys and values in one canonical form, keys strictly rising and no entry equal
to the value an unlisted key reads as. The register file, the port table, the memories and the counters are kept so. -/

namespace Sys2Proof.Machine

/-- A sparse table keyed by numbers. -/
abbrev Tab (α : Type) := List (Nat × α)

section
variable {κ α : Type}

/-- The value a key reads as: its entry, or `d` where it has none. -/
def tget [DecidableEq κ] (d : α) : List (κ × α) → κ → α
  | [], _ => d
  | (k', v) :: t, k => if k' = k then v else tget d t k

/-- No entry for a key. -/
def tdel [DecidableEq κ] (t : List (κ × α)) (k : κ) : List (κ × α) := t.filter (fun e => decide (e.1 ≠ k))

/-- An entry for a key, placed in order. -/
def tins [DecidableEq κ] (lt : κ → κ → Bool) : List (κ × α) → κ → α → List (κ × α)
  | [], k, v => [(k, v)]
  | (k', v') :: t, k, v =>
    if k' = k then (k, v) :: t
    else if lt k k' then (k, v) :: (k', v') :: t
    else (k', v') :: tins lt t k v

/-- Writing a key: the entry is placed in order, and an entry equal to the default is not kept. -/
def tput [DecidableEq κ] [DecidableEq α] (lt : κ → κ → Bool) (d : α) (t : List (κ × α)) (k : κ) (v : α) : List (κ × α) :=
  if v = d then tdel t k else tins lt t k v

/-- The canonical form: keys strictly rising, no entry equal to its default. -/
def twf [DecidableEq κ] [DecidableEq α] (lt : κ → κ → Bool) (d : κ → α) : List (κ × α) → Bool
  | [] => true
  | [(k, v)] => decide (v ≠ d k)
  | (k, v) :: (k', v') :: t => decide (v ≠ d k) && lt k k' && twf lt d ((k', v') :: t)

end

/-- The order of numbers as a test. -/
def natLt (a b : Nat) : Bool := decide (a < b)

section
variable {α : Type} [DecidableEq α]

/-- Reading a table keyed by numbers. -/
def Tab.get (d : α) (t : Tab α) (k : Nat) : α := tget d t k

/-- Writing a table keyed by numbers. -/
def Tab.set (d : α) (t : Tab α) (k : Nat) (v : α) : Tab α := tput natLt d t k v

/-- Changing one entry of a table keyed by numbers. -/
def Tab.modify (d : α) (t : Tab α) (k : Nat) (f : α → α) : Tab α := t.set d k (f (t.get d k))

end

/-- The numbers from `a`, `n` of them. -/
def rangeFrom (a n : Nat) : List Nat := (List.range n).map (a + ·)

/-- Folding an update over a list of things. -/
def foldl' {σ α : Type} (l : List α) (f : α → σ → σ) (s : σ) : σ := l.foldl (fun s a => f a s) s

end Sys2Proof.Machine
end

