-- ==== Sys2Proof/Registers.lean ====
section
/-! DEFINITION. The registers of the TH512: their names as the register headings of spec/ give them (R381, Tables 20.5 to 20.11),
the key of one register, and a field of a register (R4, Table 0.3). -/

namespace Sys2Proof.Machine

/-- A register name, as the manual's register headings give it (spec/20_register_map.md, Tables 20.5 to 20.11).
`DEC_WIN_*` are the committed copies of the staging registers (spec/07_windows_and_protection.md, register index of Table 20.10). -/
inductive RName where
  | CEL_PORT_CFG | CEL_PORT_STS | CEL_LINK_CFG | CEL_LINK_STS | LNK_LANE_STS | LNK_EQ | LNK_PRBS | LNK_PRBS_ERR 
  | LNK_PRBS_BITS | LNK_MARGIN | LNK_MARGIN_RES | BUF_CFG | BUF_ALPHA0 | BUF_ALPHA1 | BUF_POOL | BUF_POOL_MIN 
  | BUF_RSV | BUF_MC_STS | BUF_FLUSH | BUF_ICRED | BUF_EQ | QOS_CLASS | QOS_HUB | QOS_WEIGHT0 | QOS_WEIGHT1 
  | QOS_CON_CFG | QOS_CON_MIN | QOS_CON_CAP | QOS_CON_STS | QOS_EGR_STS | QOS_EPOL_CFG | QOS_EPOL_DROP 
  | QOS_EPOL_DROP_KB | VCS_RST_CFG | VCS_QUAR_CFG | VCS_MBX_CFG | VCS_POOL | VCS_PORT_ADM | VCS_INST_CFG 
  | VCS_INST_STS | VCS_MBX_STS | VCS_VPPB_BIND | VCS_VPPB_STS | DEC_STG_CTRL | DEC_STG_STS | DEC_STG_BASE 
  | DEC_STG_SIZE | DEC_STG_CFG | DEC_STG_TGT_A | DEC_STG_TGT_B | DEC_WIN_EPOCH | DEC_WIN_BASE | DEC_WIN_SIZE 
  | DEC_WIN_CFG | DEC_WIN_TGT_A | DEC_WIN_TGT_B | ACC_CFG | ACC_EPOCH_CUR | ACC_EPOCH_CMT | ACC_STS | ACC_DENY_CNT 
  | ACC_DENY_INFO | ACC_DENY_ADDR_LO | ACC_DENY_ADDR_HI | MPU_CFG | MPU_STS | MPU_FAULT_ADDR_LO | MPU_FAULT_ADDR_HI 
  | MPU_FAULT_INFO | MPU_BASE | MPU_ATTR | GRV_CFG | GRV_SLICE_STS | GRV_SLICE_PEAK | GRV_STS | GRV_MEMBER_LO 
  | GRV_MEMBER_HI | GRV_JOINED_LO | GRV_JOINED_HI | GRV_WIN_CFG | GRV_WIN_GA | GRV_WIN_SIZE | GRV_WIN_TGT_A 
  | GRV_WIN_TGT_B | SNF_STS | SNF_EVICT | SNF_PROBE_ADDR_LO | SNF_PROBE_ADDR_HI | SNF_PROBE_RES | SNF_PROBE_PV_LO 
  | SNF_PROBE_PV_HI | GRV_SET_WAIT | GRV_STRAY | GRV_CONFLICT | GRV_SNOOP_TRACK | GRV_FELL | GRV_FELL_TIME_LO 
  | GRV_FELL_TIME_HI | SNF_RETIRE | SNF_ERR | ERT_STS | ERT_PROBE_SRC | ERT_PROBE_DPA | ERT_PROBE_RES 
  | ERT_PROBE_TDPA | MOV_CFG | MOV_CH_CFG | MOV_CH_STS | MOV_CH_SRC | MOV_CH_TGT | MOV_CH_SRC_DPA | MOV_CH_TGT_DPA 
  | MOV_CH_HELD | MOV_CH_EPOCH | NOC_BND_STS | NOC_BND_WAKES | NOC_ERR | NOC_ROUTE | NOC_ROUTE_CTRL | NOC_VC_CFG 
  | NOC_STAT_CTRL | NOC_STAT_TXN | NOC_STAT_RD | NOC_STAT_WR | NOC_STAT_LAT_SUM | NOC_STAT_LAT_MAX | ETH_PORT_CFG 
  | ETH_PORT_STS | ETH_MACSEC_DROP | ETH_UNSEC_DROP | KMP_CFG | KMP_TIMING | KMP_SESS_STS | KMP_SESS_EVT | IMG_STS 
  | IMG_SEQ_LO | IMG_SEQ_HI | IMG_CORR | IMG_SLOT_STS | IMG_ENTRY_CNT | IMG_ENTRY_FIRST | IMG_RB | FLT_REC_STS 
  | FLT_REC_SRC | FLT_REC_LIVE | FLT_REC_TIME_LO | FLT_REC_TIME_HI | FLT_REC_CTRL | FLT_CFG | FLT_SAFE_STS 
  | FLT_SAFE_SLOT | FLT_SLOT_SRC | FLT_LOG_PTR | FLT_LOG | ECC_CL_ERR | ECC_CL_ADDR | ECC_SCRUB_CTRL | ECC_SCRUB_END 
  | ECC_SCRUB_RES | ECC_SCRUB_CNT | ECC_SCRUB_FIRST | ECC_SCRUB_LAST | ECC_SCRUB_TIME | ECC_REPAIR | ECC_MP_WAIT 
  | ECC_MP_STS | ECC_CHK_STS | ECC_DMA_STS | PWR_CMD | PWR_CMD_MASK | PWR_ENTRY_CFG | PWR_ENTRY_STS | PWR_DOM_STS 
  | PWR_OP_STS | PWR_AVS_CFG | PWR_DROOP_CFG | PWR_DROOP_STS | PWR_DROOP_NS | PWR_TEMP | PWR_CLK_STS 
  | PWR_RESET_CAUSE | TMB_CFG | TMB_STS | TMB_NOW_FRAC | TMB_NOW_LO | TMB_NOW_HI | TMB_ALARM_LO | TMB_ALARM_HI 
  | SLT_CTRL | SLT_CFG | SLT_SHUNT | SLT_LIMIT | SLT_VWIN | SLT_TIMING | SLT_THRESH | SLT_TM_POLE | SLT_STS | SLT_EVT 
  | SLT_MEAS_I | SLT_MEAS_V | SLT_MEAS_VF | SLT_MEAS_P | SLT_MEAS_TEMP | SLT_ENERGY_LO | SLT_ENERGY_HI | CNT_VAL_LO 
  | CNT_VAL_HI | CNT_OVF | CNT_SAMP_CFG | CNT_SAMP_PERIOD | CNT_SAMP_STS | CNT_SAMP_PC | CNT_HIST_CTRL | CNT_HIST_SEL 
  | CNT_EDGE | CNT_HIST_LO | CNT_HIST_HI | BST_STS | BST_START_STS | BST_DUR | BST_FAIL | BST_SKIPPED 
  | BST_LBIST_SIG_LO | BST_LBIST_SIG_HI | BST_CELL_FAIL | LCS_STATE | LCS_CHIP_ID_LO | LCS_CHIP_ID_HI | CHP_ID 
  | CHP_STATUS | CHP_ERR_INFO | CHP_ERR_ADDR_LO | CHP_ERR_ADDR_HI | CHP_RGN_ID 
  deriving DecidableEq, Repr

/-- The block of the management address space that a register sits in (R380, R381). -/
inductive RBlock where
  | cell | buf | eth | vcs | dec | mpu | grv | ert | mov | noc | nochub | img | flt | fltchip | ecc | ecchub | pwr | tmb | slt | cnt | bst | chp | rgn
  deriving DecidableEq, Repr

/-- The field access types of Table 0.3 (R4). -/
inductive Acc where
  | RW | RO | WO | W1C | W1S | RWL | RWS
  deriving DecidableEq, Repr

/-- One register: its name and its two indices (the index letters of the describing chapter, block instance included). -/
structure Reg where
  name : RName
  i : Nat
  j : Nat
  deriving DecidableEq, Repr

/-- One field of a register: the register's name, its lowest bit, its width and its access type. -/
structure Fld where
  reg : RName
  lo : Nat
  width : Nat
  acc : Acc
  deriving DecidableEq, Repr

/-- Where the instances of a register lie: block, base offset, multiplier of the block instance in the first index,
stride and count of the first index within the block, stride and count of the second index. -/
structure Place where
  block : RBlock
  base : Nat
  mult : Nat
  si : Nat
  ci : Nat
  sj : Nat
  cj : Nat
  deriving DecidableEq, Repr

/-- The place of a register name in the order of the manual's headings. -/
def RName.idx (n : RName) : Nat := n.ctorIdx

/-- The order in which the register file lists its entries. -/
def Reg.lt (a b : Reg) : Bool :=
  decide (a.name.idx < b.name.idx) ||
    (decide (a.name.idx = b.name.idx) && (decide (a.i < b.i) || (decide (a.i = b.i) && decide (a.j < b.j))))

end Sys2Proof.Machine
end

