-- ==== Sys2Proof/Machine/Parts.lean ====
section
/-! DEFINITION. The structured parts of the chip's state that no register holds, as the chapters of spec/ name them. -/

namespace Sys2Proof.Machine

/-- A request of a KMP session (R241): the session's identity, the request's sequence number and its opcode. -/
structure ReqId where
  uid : Nat
  seq : Nat
  opcode : Nat
  deriving DecidableEq, Repr

/-- Where a message is (Table 4.2, R213, R219). -/
inductive Loc where
  /-- Ingress queue of port `p`, by message class. -/
  | ingress (p : Nat)
  /-- Waiting at a mesh node to be injected (R216). -/
  | inject (node : Nat)
  /-- On the mesh, in parts. -/
  | mesh
  /-- Landing area of node `dst` for source node `src`. -/
  | landing (dst src : Nat)
  /-- Held at boundary `h` of node `node` (R219). -/
  | boundary (node h : Nat)
  /-- Held at the remap region `r` (R198, R200). -/
  | held (r : Nat)
  /-- Egress queue of port `p` and service class `sc`. -/
  | egress (p sc : Nat)
  /-- Multicast residue queue of region `r`. -/
  | residue (r : Nat)
  /-- Waiting at the home slice of region `r` (R162). -/
  | home (r : Nat)
  deriving DecidableEq, Repr

/-- A packet: a part of a message on the mesh. Its network (0 REQ, 1 RSP, 2 SNP, 3 DAT), the node it is at, the router input whose
buffer holds it (R209, 0 the local boundary), the AGE of its header (R211), the time it came to that router, its place in the order
of arrival there, whether it has landed, and whether it waits there for an epoch marker. -/
structure Part where
  net : Nat
  node : Nat
  inp : Nat := 0
  age : Nat := 0
  since : Nat := 0
  ord : Nat := 0
  landed : Bool := false
  held : Bool := false
  /-- At the boundary of its destination, not let in. -/
  atB : Bool := false
  deriving DecidableEq, Repr

/-- A reference of a multicast copy: egress port, service class, and whether it still waits in the residue queue; for a copy of
a mirrored write (R77) the chip's own request that it is, 0 for a snoop, with its LD-ID and device address. -/
structure McRef where
  port : Nat
  sc : Nat
  waiting : Bool
  inn : Nat := 0
  ld : Nat := 0
  dpa : Nat := 0
  deriving DecidableEq, Repr

/-- A message in the chip. -/
structure Msg where
  id : Nat
  kind : MsgKind
  /-- Initiator number of the sender (Table 1.4) and the port it entered at, if it entered at one. -/
  src : Nat
  iport : Option Nat
  /-- Region that checked it. -/
  region : Nat
  inst : Nat := 0
  vb : Nat := 0
  tag : Nat := 0
  /-- Host physical address, device physical address or grove address, and the target found. -/
  addr : Nat := 0
  dpa : Nat := 0
  dest : Nat := 0
  ld : Nat := 0
  /-- Destination port identifier of a message for a trunk (R32). -/
  pbr : Nat := 0
  len : Nat := 0
  data : List Byte := []
  poison : Bool := false
  status : Nat := 0
  sc : Nat := 0
  /-- The open request it belongs to, 0 none. -/
  opn : Nat := 0
  /-- Contract tags (R94): metered, committed, released, charge in bytes. -/
  metered : Bool := false
  committed : Bool := true
  released : Bool := true
  capCharged : Bool := true
  charge : Nat := 0
  /-- When it was released (R99); answered at its ingress, held only until its contract releases it (R92, R94). -/
  relAt : Nat := 0
  spent : Bool := false
  /-- The message of an ingress queue that it is a copy of, 0 none (R74, R77). -/
  origin : Nat := 0
  /-- Message whose transmission it must await (R76), 0 none. -/
  fence : Nat := 0
  ro : Bool := false
  ido : Bool := false
  rid : Nat := 0
  want : Nat := 0
  longHdr : Bool := false
  tail : Bool := true
  /-- It ends with EDB (R74). -/
  edb : Bool := false
  /-- Slots charged: shared and reserved (R68). -/
  shared : Nat := 0
  rsv : Nat := 0
  loc : Loc
  /-- Node that a message on the mesh goes to, source node, route epoch stamped, its parts, and held landing credit. -/
  toNode : Nat := 0
  fromNode : Nat := 0
  rEpoch : Nat := 0
  parts : List Part := []
  lcred : Bool := false
  refs : List McRef := []
  arrived : Nat := 0
  /-- Service class found by classification is superseded for promoted messages (R91): the class they run in. -/
  promoted : Option Nat := none
  /-- Home transaction, page-mover channel and chunk that it serves, if any. -/
  txn : Nat := 0
  chan : Option Nat := none
  /-- MetaValue; or MetaField No-Op and SnpType No-Op, in a request of a home slice to a device (R150). -/
  mv : MetaV := .i
  noOp : Bool := false
  /-- KMP request that a fabric atomic serves. -/
  q : Option ReqId := none
  /-- Grove and grove window; bound for a home slice; waiting in the home request queue (R162). -/
  grove : Option (Nat × Nat) := none
  toHome : Bool := false
  queued : Bool := false
  /-- A full-line write-back of the transaction before it, from which it is served, with its poison (R171). -/
  given : Option (List Byte × Bool) := none
  /-- Extent remap look-up done (R193), and forwarded by it on DAT plane 0 (R213). -/
  looked : Bool := false
  plane0 : Bool := false
  /-- The chip's own request to a device that it is, or answers, 0 none. -/
  inn : Nat := 0
  /-- Completed by a denial, a flush or a squash: outside the statistics (R225). -/
  killed : Bool := false
  /-- Final completion of a grove request: name, initiator, start, bytes read and written, for the statistics. -/
  stat : Option (Nat × Nat × Nat × Nat × Nat) := none
  deriving DecidableEq, Repr

/-- An open request (R137). -/
structure OpenReq where
  id : Nat
  region : Nat
  epoch : Nat
  initiator : Nat
  inst : Nat
  vb : Nat
  kind : MsgKind
  tag : Nat
  /-- Requesting port and the port the request goes to. -/
  rport : Nat
  dest : Nat
  ld : Nat
  addr : Nat
  dpa : Nat
  want : Nat
  start : Nat
  rd : Nat
  wr : Nat
  /-- Transmitted to its target. -/
  sent : Bool := false
  grove : Option (Nat × Nat) := none
  /-- The requester gets no further response (R111, Table 4.6). -/
  mute : Bool := false
  /-- CXL.cache: response transmitted, data transmitted, data due beside the response. -/
  gotRsp : Bool := false
  gotData : Bool := false
  due : Bool := false
  /-- Its response has arrived at the switch (Table 10.2). -/
  acked : Bool := false
  deriving DecidableEq, Repr

/-- On whose behalf the chip itself sends a request to a device. -/
inductive Who where
  /-- Line-lock transaction. -/
  | home (t : Nat)
  /-- Memory write of a transaction of a grove that has been felled (R188). -/
  | felled (g : Nat)
  /-- Source or target copy of a mirrored write (R197). -/
  | mirror (k : Nat) (tgt : Bool)
  /-- Line of a page-mover channel: channel, chunk, line; its read or its write (R198). -/
  | move (c k l : Nat)
  /-- Nothing awaits the response. -/
  | none
  deriving DecidableEq, Repr

/-- A request of the chip itself to a device, whose response is awaited. -/
structure Inner where
  id : Nat
  who : Who
  /-- Node that issued it, and the initiator number. -/
  node : Nat
  initiator : Nat
  /-- Epoch of its access check, for a page-mover channel (R203). -/
  epoch : Option Nat := none
  kind : MsgKind
  dest : Nat
  ld : Nat
  dpa : Nat
  start : Nat
  deriving DecidableEq, Repr

/-! ## Home slices (chapters 8 and 9) -/

/-- Snoop-filter entry (R154): home state 0 I, 1 S, 2 O; presence vector; way retired (R179). -/
structure Snf where
  tag : Nat := 0
  st : Nat := 0
  pv : Nat := 0
  retired : Bool := false
  deriving DecidableEq, Repr

/-- A snoop of a transaction: member, kind, when it was sent, and its answer (0 I, 1 S, 2 E) once it arrived. -/
structure Snoop where
  inst : Nat
  kind : MsgKind
  since : Nat
  rsp : Option Nat := none
  deriving DecidableEq, Repr

/-- What a line-lock transaction does. -/
inductive TxnOp where
  /-- A member's message. -/
  | req (k : MsgKind) (mv : MetaV)
  /-- An atomic operation: operand size, offset in the line, operands, and the KMP request it serves. -/
  | atomic (op : AtomOp) (size off : Nat) (args : List Byte) (q : Option ReqId)
  | evict
  /-- Removal walk of a member, or of every member. -/
  | walk
  deriving DecidableEq, Repr

/-- Line-lock entry and its transaction (R161). -/
structure Txn where
  id : Nat
  home : Nat
  ga : Nat
  grove : Nat
  gw : Nat
  op : TxnOp
  /-- Requesting member and its port; 64 for none. -/
  inst : Nat
  port : Nat
  tag : Nat
  /-- Requests under R137 that stay open until the line is unblocked: its own and its write-backs'. -/
  opens : List Nat := []
  own : Nat := 0
  sc : Nat
  initiator : Nat
  /-- Home state found, and presence vector found. -/
  st : Nat := 0
  pv : Nat := 0
  snoops : List Snoop := []
  /-- Not yet begun: waits for a way of its set (R176) or for an eviction. -/
  waits : Bool := false
  evict : Nat := 0
  /-- Data still owed to the requester; memory read outstanding; completion sent. -/
  owes : Bool := false
  reading : Bool := false
  fin : Bool := false
  dataSent : Bool := false
  /-- Full-line write-back received, with its poison (R160, R171); a partial one awaits its Cmp. -/
  wb : Option (List Byte × Bool) := none
  /-- Requester's own data, served without memory (R171, R164). -/
  given : Option (List Byte × Bool) := none
  deriving DecidableEq, Repr

/-- Agent copy of a line (R164). -/
structure AgentCopy where
  home : Nat
  ga : Nat
  data : List Byte
  deriving DecidableEq, Repr

/-- Removal or dissolution of a grove under way (R167, R168): the member or none for all, epoch of the current access
change, walk begun, and the request that awaits it. -/
structure GroveJob where
  grove : Nat
  inst : Option Nat
  epoch : Nat
  walking : Bool
  req : ReqId
  deriving DecidableEq, Repr

/-- A GROVE_DISSOLVE or GROVE_MEMBER_REMOVE whose reply waits: for the grove to be Felled (STATE), or for the writes of R188
(SUCCESS, R191). -/
structure GroveHold where
  grove : Nat
  req : ReqId
  writes : Bool
  deriving DecidableEq, Repr

/-! ## Grafts (chapter 10) -/

/-- An extent: type, port, LD-ID and DPA[51:21] (R192). -/
structure Ext where
  type : Nat
  port : Nat
  ld : Nat
  ext : Nat
  deriving DecidableEq, Repr

/-- A chunk in flight (R198): lock held, reads issued, target writes forwarded and acknowledged. -/
structure ChunkX where
  k : Nat
  locked : Bool := true
  issued : Bool := false
  fwd : Nat := 0
  acked : Nat := 0
  deriving DecidableEq, Repr

/-- Extent remap entry (R192, R196): state 1 Armed, 2 Copying, 3 Flipping, 4 Set. -/
structure Ert where
  key : Ext
  tgt : Ext
  st : Nat
  chan : Nat
  flip : Nat := 0
  /-- Previous target and flip epoch, for a graft of a Set extent (R194). -/
  prev : Option (Ext × Nat) := none
  /-- Time of arming, or of entry to Flipping. -/
  since : Nat := 0
  /-- Writes forwarded to the source port before arming whose Cmp is awaited. -/
  before : List Nat := []
  chunks : List ChunkX := []
  next : Nat := 0
  deriving DecidableEq, Repr

/-- A mirrored write, or an AtomicOp performed at the source, that is open (R197): line and chunk, the request or home
transaction it serves, and whether the copies' Cmps are still awaited. -/
structure Mirror where
  id : Nat
  key : Ext
  line : Nat
  opn : Nat
  inn : Nat
  src : Bool
  tgt : Bool
  /-- AtomicOp: the operand bytes kept for the target write, none for a write. -/
  atom : Option (AtomOp × Nat × Nat × List Byte) := none
  /-- The original value and status, to be returned with the completion. -/
  data : List Byte := []
  status : Nat := 0
  /-- Posted: nothing is returned to the requester. -/
  posted : Bool := false
  dead : Bool := false
  /-- A copy came back with an error status (Table 10.4, cause 5). -/
  err : Bool := false
  deriving DecidableEq, Repr

/-- A message already on an egress link whose tail has not arrived at its ingress (R74, R81): the message, its ingress and egress
port, its tag on the link, its open request, and whether a failed copy ends with EDB. -/
structure Cut where
  id : Nat
  iport : Nat
  port : Nat
  tag : Nat
  opn : Nat
  edb : Bool
  /-- The chip's own request that it is, 0 none; and the request that a response answered, closed by its transmission. -/
  inn : Nat := 0
  req : Option OpenReq := none
  deriving DecidableEq, Repr

/-- A transaction that has ended and is not yet counted (R225). -/
structure Ended where
  id : Nat
  initiator : Nat
  lat : Nat
  rd : Nat
  wr : Nat
  deriving DecidableEq, Repr

/-- Port, per cell (R38, R45, R48 to R54, R79 to R81, R89, R94, R118). -/
structure PortX where
  /-- The cell's wave has begun (R48). -/
  waved : Bool := false
  /-- Training step of Table 3.4 in progress, 0 none. -/
  step : Nat := 0
  /-- Link reported up; step 10 reached but not reported (R79, Table 6.5). -/
  up : Bool := false
  upHeld : Bool := false
  /-- PERST_N asserted on the upstream pin (R52); trunk pin level low (R38). -/
  perst : Bool := false
  csbLow : Bool := false
  /-- Level that the chip drives on the pin of a downstream port. -/
  csbOut : Bool := false
  /-- Pin kept low by an out-of-service port (R38). -/
  csbOos : Bool := false
  /-- Link held in Hot Reset (R107). -/
  hotReset : Bool := false
  /-- What the partner advertised at the latest Configuration. -/
  adv : Option PartnerAdv := none
  /-- Rate that R34 selects. -/
  target : Nat := 0
  /-- Link passed through Detect since the latest training (R50). -/
  detected : Bool := false
  /-- Receiver detection finds a partner (R117). -/
  present : Bool := false
  /-- Times of re-equalizations, of returns to Detect at 2.5 GT/s, and of violations (R45, R37). -/
  requal : List Nat := []
  lows : List Nat := []
  viols : List Nat := []
  /-- Flush in progress (R80). -/
  flushing : Bool := false
  flushCount : Nat := 0
  /-- When the link went down or its wave began, for DOWN_LIMIT (R118). -/
  downSince : Option Nat := none
  /-- Time since which slot power-good holds (R38). -/
  pgSince : Option Nat := none
  /-- Trunk link up without 256-byte flits (R32). -/
  noTraffic : Bool := false
  /-- Third violation, and third failure at 2.5 GT/s, while out of service (Table 14.2 bits 11 and 13). -/
  isoViol : Bool := false
  isoQual : Bool := false
  /-- INIT credits in force (R70), by message class. -/
  initCr : Tab Nat := []
  /-- Link credits held toward the partner: headers and data bytes, by message class. -/
  crHdr : Tab Nat := []
  crData : Tab Nat := []
  /-- Deficits of SC4 to SC11 and the round pointer (R89). -/
  deficit : Tab Int := []
  ptr : Nat := 0
  /-- Contract buckets in 1/125 byte (R94). -/
  bMin : Int := 0
  bCap : Int := 0
  /-- The latest 64 ns edge of the time base at which they were refilled, and whether CAP.RATE was then 0 (R94, R95). -/
  refill : Nat := 0
  capHeld : Bool := false
  /-- Time of the latest MIN_SHORT notice (R99), and the egress port and service class that it named. -/
  shortAt : Option Nat := none
  shortFor : Option (Nat × Nat) := none
  /-- The chip leads remote Loopback for the loop check, and since when (R121). -/
  loopLead : Bool := false
  loopStart : Nat := 0
  /-- Logical devices of the device (0 where it is not multi-logical), known once it has trained. -/
  lds : Option Nat := none
  /-- The port has been out of service since it was configured (Table 6.8). -/
  everOos : Bool := false
  /-- Its configuration failed as the 65th upstream port (R24). -/
  surplus : Bool := false
  /-- When the rate was last dropped (R45). -/
  dropAt : Option Nat := none
  /-- Times, of the last 1 ms, of flits that failed their CRC, and of receiver errors (R45). -/
  crcFails : List Nat := []
  rxErrs : List Nat := []
  /-- CEL_LINK_CFG as the training in progress, or the latest, took it. -/
  linkCfg : Nat := 0
  deriving DecidableEq, Repr

/-- The START section in force (Table 13.10); a wave-map entry of 8 to 15 selects the block number mod 8. -/
structure StartCfg where
  firstMs : Nat := 150
  gapMs : Nat := 25
  opPoint : Nat := 0
  map : List Nat := []
  deriving DecidableEq, Repr

/-- Lane (R56, R61 to R63). -/
structure LaneX where
  /-- Partner-ordered margining is active. -/
  margining : Bool := false
  /-- Start of the register scan in progress, in the time base, and its length. -/
  scanStart : Nat := 0
  scanLen : Nat := 0
  /-- The preset that the lane alone offers in its equalization (R56), as LNK_EQ held it when that began. -/
  offer : Option Nat := none
  /-- PRBS: the time up to which compared bits are in LNK_PRBS_BITS, and those too few for a unit of it, in 1/160 bit (R61). -/
  prbsAt : Nat := 0
  prbsRest : Nat := 0
  deriving DecidableEq, Repr

/-- Drain or squash of a virtual bridge (R111, R112): the state that follows, the epoch of its access change, when it began,
and the requests that await it. -/
structure Drain where
  next : Nat
  epoch : Nat
  began : Nat
  reqs : List ReqId
  deriving DecidableEq, Repr

/-- Virtual bridge (R116, R117, Table 6.2), beside VCS_VPPB_BIND and VCS_VPPB_STS. -/
structure Vppb where
  /-- The access check lets the virtual switch reach the target (R104). -/
  reach : Bool := false
  /-- Secondary Bus Reset as the host set it. -/
  sbr : Bool := false
  /-- Presence Detect Changed, Data Link Layer State Changed, Power Fault Detected (R117). -/
  pdc : Bool := false
  dllsc : Bool := false
  pfd : Bool := false
  /-- Hot-plug interrupt enabled by the host. -/
  hpie : Bool := false
  /-- DPC Completion Control: Completer Abort (R82). -/
  dpcCa : Bool := false
  /-- AER: Surprise Down, Unsupported Request, uncorrectable internal error logged. -/
  aerSd : Bool := false
  aerUr : Bool := false
  aerUie : Bool := false
  /-- ACS (Table 2.3): control bits (source validation 0, request redirect 2, completion redirect 3, upstream forwarding 4, egress
  control 5), egress control vector by bridge, a violation logged through AER; bus numbers below the bridge. -/
  acs : Nat := 0
  egressVec : Nat := 0
  aerAcs : Bool := false
  secBus : Nat := 0
  subBus : Nat := 0
  /-- Configuration requests get Configuration Request Retry Status until the target is up (Table 6.5). -/
  crs : Bool := false
  drain : Option Drain := none
  squash : Option Drain := none
  /-- Bind whose access change has not committed (Table 6.4): epoch and request. -/
  binding : Option (Nat × Option ReqId) := none
  deriving DecidableEq, Repr

/-- A mailbox command in progress (R124 to R126). -/
structure Mbx where
  opcode : Nat
  payload : List Byte
  tag : Nat
  since : Nat
  deriving DecidableEq, Repr

/-- Virtual switch, beside VCS_INST_CFG, VCS_INST_STS and VCS_MBX_STS. -/
structure VcsX where
  /-- Reset in progress: 0 none, 1 hot reset, 2 PERST_N. -/
  reset : Nat := 0
  /-- INST_ATTACH whose access change has not committed (Table 6.4): epoch and request. -/
  attaching : Option (Nat × Option ReqId) := none
  mbx : Option Mbx := none
  /-- Mailbox response message limit (Table 6.10), as a power of two. -/
  limit : Nat := 12
  /-- AER of the upstream port's function for the Uncorrectable Internal Error: recorded, masked, severity (fatal at reset), and the
  reporting of fatal and of nonfatal errors that the host has enabled (Table 9.6 step 4). -/
  aerUie : Bool := false
  aerMask : Bool := false
  aerFatal : Bool := true
  repFatal : Bool := false
  repNonfatal : Bool := false
  deriving DecidableEq, Repr

/-- A committed fabric window: epoch, base, size and configuration words as DEC_STG_*, and the target words in use. -/
structure Win where
  epoch : Nat := 0
  base : W := 0
  size : W := 0
  cfg : W := 0
  ta : List W := []
  tb : List W := []
  deriving DecidableEq, Repr

/-- Who submitted a window commit: a staging set of a region, a KMP request, the image, or settle. -/
inductive CommitSrc where
  | staging (r : Nat)
  | kmp (q : ReqId)
  | image
  deriving DecidableEq, Repr

/-- A command of the binding engine, or an access change that a host or the chip starts (R106). -/
inductive EngOp where
  | bind (inst vb : Nat) (t : W) (img : Bool) (req : Option ReqId)
  | unbind (inst vb : Nat) (squash : Bool) (req : Option ReqId)
  | window (inst w : Nat) (c : Win) (src : CommitSrc)
  | portRemove (p : Nat) (req : ReqId)
  | portAdmit (p : Nat) (req : ReqId)
  | attach (inst : Nat) (port : Option Nat) (req : Option ReqId)
  /-- Access change that begins a drain towards a next state. -/
  | drain (inst vb : Nat) (next : Nat) (reqs : List ReqId)
  /-- Access of a bridge restored (Secondary Bus Reset cleared, reset ended). -/
  | restore (inst vb : Nat)
  /-- Access change that begins a squash, after which the bridge is Unbound. -/
  | squash (inst vb : Nat) (reqs : List ReqId)
  | groveCreate (words : List W) (req : ReqId)
  | groveAdd (g inst : Nat) (req : ReqId)
  | groveRemove (g inst : Nat) (req : ReqId)
  | groveDissolve (g : Nat) (req : ReqId)
  /-- Grove windows of a member, or of every member, removed (R167, R168). -/
  | groveUnmap (g : Nat) (inst : Option Nat)
  | graftCreate (words : List W) (req : ReqId)
  | graftAbort (words : List W) (req : ReqId)
  | graftRelease (words : List W) (req : ReqId)
  | graftSettle (words : List W) (req : ReqId)
  /-- Members join a Standing grove (R149). -/
  | groveJoin (g : Nat)
  /-- The switch of a graft in Flipping (R200). -/
  | graftSwitch (key : Nat)
  deriving DecidableEq, Repr

/-- Slot channel, beside its SLT_ registers (spec/17_slot_power.md). Times are in the time base. -/
structure SlotX where
  /-- VIN in window (R338); feeds in reverse (R337). -/
  vinOk : Bool := false
  revA : Bool := false
  revB : Bool := false
  /-- When the domain came on; when the insertion timer started; its delay is over and the gate waits for the temperature, or
  for safe state to be left (R348, R352). -/
  onAt : Nat := 0
  insAt : Option Nat := none
  ready : Bool := false
  rampAt : Option Nat := none
  /-- Start of the run of samples that qualifies power-good (R343). -/
  pgAt : Option Nat := none
  /-- Fault timer in µs at a time (R341). -/
  ft : Nat := 0
  ftAt : Nat := 0
  tripAt : Option Nat := none
  absentAt : Option Nat := none
  powAt : Option Nat := none
  /-- The temperature acted on is at or above TJ_MAX (R348). -/
  hot : Bool := false
  /-- The latest reading of VOUT is above 1.0 V. -/
  voutHigh : Bool := false
  /-- Energy in 10 pJ (R349), and the sample measured last: current, voltages, power, temperature. -/
  energy : Nat := 0
  meas : List Nat := []
  deriving DecidableEq, Repr

/-- Who submitted a power command (R316). -/
inductive PwrSrc where
  | kmp (q : ReqId) (eth : Nat)
  | reg
  /-- START.OP_POINT of the image (R323). -/
  | image
  /-- A self-test that takes regions out of service (R369). -/
  | test
  deriving DecidableEq, Repr

/-- A power command (R313): action, operating point, domains named; under way, the domains it switches, what it still awaits
(answers, drained regions or woken boundaries) and its phase: 0 waits, 1 handshake, 2 boundaries closed, 3 retention save,
4 waking. -/
structure PwrCmd where
  src : PwrSrc
  action : Nat
  op : Nat := 0
  named : List Nat := []
  doms : List Nat := []
  left : List Nat := []
  phase : Nat := 0
  since : Nat := 0
  deriving DecidableEq, Repr

/-- The power and clock controller (spec/16_power_and_time.md). -/
structure PowerX where
  /-- Domains of the main die that are switched off, and those under self-test (cause 11). -/
  off : List Nat := []
  testing : List Nat := []
  cmd : Option PwrCmd := none
  queue : List PwrCmd := []
  dormant : Bool := false
  /-- Always-on count in 1/64 ns (R332). -/
  ao : Nat := 0
  /-- The loader's domain has been off since its image was loaded: its RO fields read as at reset (Table 16.4). -/
  loaderLost : Bool := false
  /-- The latest sensor sample was above THERM_WARN (Table 14.4). -/
  warm : Bool := false
  /-- Rails outside their windows (R329). -/
  rails : List Nat := []
  /-- A raise of the operating point under way: its start, the setpoint before it (R328), and the target that replaces it (R324). -/
  raise : Option Nat := none
  oldMv : Nat := 0
  opNext : Option (Nat × PwrSrc) := none
  /-- Hub reference in force (R330): 0 ECLK, 1 PCLK0. -/
  hubRef : Nat := 0
  /-- When the clock of a region was slowed. -/
  slowAt : Tab Nat := []
  deriving DecidableEq, Repr

/-- A merge-buffer entry (R297): of management SRAM, or of the Ethernet DMA buffers; word of 64 bits; the bytes written. -/
structure MergeEntry where
  dma : Bool
  word : Nat
  bytes : List (Option Byte)
  deriving DecidableEq, Repr

/-- A scrub under way (R302): block (8 the hub), cluster, next and last index, and its start. -/
structure Scrub where
  blk : Nat
  c : Nat
  next : Nat
  last : Nat
  since : Nat
  deriving DecidableEq, Repr

/-- The fuses (R258, R260, R264, R306, R323, R372): highest state fuse blown, key hash bits blown and whether every one of them
is programmed, key-revoke and Field-closure, anti-rollback count, VDD_CORE trim in mV, MAC addresses of ports A and B, chip ID,
and the repair map: spare rows × 256 + columns by cluster. -/
structure Fuses where
  state : Nat := 0
  keyHash : Nat := 0
  keyDone : Bool := false
  revoked : Bool := false
  closure : Bool := false
  rollback : Nat := 0
  trim : Int := 0
  macA : List Byte := List.replicate 6 0
  macB : List Byte := List.replicate 6 0
  chipId : Nat := 0
  repairs : Tab Nat := []
  deriving DecidableEq, Repr

/-- A section of the in-service memory test that was not done within 2 µs (R368): unit, cluster, section; retries begun; whether
a retry is under way; the time of the latest of these. -/
structure TestSect where
  unit : Nat
  c : Nat
  ix : Nat
  tries : Nat
  busy : Bool
  since : Nat
  deriving DecidableEq, Repr

/-- The self-test under way (R365 to R371): its request, TEST code, units, cells or slots named, those skipped, the expected
signatures of test 3, its start; whether its regions have still to power down; sections to be retried. -/
structure TestX where
  q : ReqId
  kind : Nat
  named : Nat
  skipped : Nat := 0
  expect : List Nat := []
  since : Nat
  waits : Bool := false
  /-- Domains that the test holds once its regions are down. -/
  doms : List Nat := []
  sects : List TestSect := []
  deriving DecidableEq, Repr

/-- Fuse programming under way (R373): the request, the target state and the key hash given with it. -/
structure LcJob where
  q : ReqId
  target : Nat
  hash : Nat
  deriving DecidableEq, Repr

/-- A management port (R228 to R233, R264), beside its ETH_ registers: ETH_PORT_CFG in force, MAC, IPv4 and IPv6 addresses with
their prefix lengths, MKA identity, whether it is the key server, SAKs distributed since the link came up, policer buckets in
1/128000 byte with the time of the latest refill, and bytes of dropped frames not yet counted in QOS_EPOL_DROP_KB. -/
structure EthX where
  cfg : Nat := 0x3F00
  mac : List Byte := List.replicate 6 0
  ip4 : Nat := 0
  ip4Len : Nat := 0
  ip6 : Nat := 0
  ip6Len : Nat := 0
  ckn : List Byte := []
  cak : List Byte := []
  prio : Nat := 0
  server : Bool := false
  saks : Nat := 0
  tokens : Tab Nat := []
  filledAt : Nat := 0
  rest : Tab Nat := []
  deriving DecidableEq, Repr

/-- Live statistics of an initiator (R225). -/
structure Stat where
  txn : Nat := 0
  rd : Nat := 0
  wr : Nat := 0
  latSum : Nat := 0
  latMax : Nat := 0
  deriving DecidableEq, Repr

/-- A session's notice, a reply, or an order to end sessions, on its way to the KMP layer. -/
inductive Mail where
  /-- Reply to a request: status and the payloads of its datagrams. -/
  | reply (q : ReqId) (status : Nat) (parts : List (List W))
  /-- Event for every session, or MAILBOX_RELAY for the holder of the relay role. -/
  | event (code : Nat) (words : List W)
  | relay (words : List W)
  | endAll
  /-- Dormant: the links of both management ports stop, and every session ends (Table 16.5). -/
  | dark
  | endPort (e : Nat)
  /-- The session of a BYE ends; a warm reset that follows a reply. -/
  | endOne (uid : Nat)
  | reset
  deriving DecidableEq, Repr

/-- A KMP datagram that the chip sends (Table 12.2). -/
structure KmpOut where
  /-- Management port; MAC address, IP address and UDP port of the receiver; UDP port it is sent from. -/
  eth : Nat
  mac : Nat
  ip : Nat
  udp : Nat
  sport : Nat
  major : Nat
  minor : Nat
  opcode : Nat
  flags : Nat
  seq : Nat
  session : Nat
  words : List W
  deriving DecidableEq, Repr

/-- What the chip sends to the outside. -/
inductive Output where
  | kmp (m : KmpOut)
  /-- A message sent on a link: port, kind, tag, address, payload, poison, status, LD-ID, destination port identifier, MetaValue,
  and whether its MetaField and SnpType are No-Op instead (R150). -/
  | link (p : Nat) (k : MsgKind) (tag addr : Nat) (data : List Byte) (poison : Bool) (status ld pbr : Nat) (mv : MetaV) (noOp : Bool)
  /-- A copy already on an egress link ended with EDB (true) or with poison (R74, R81). -/
  | ended (p : Nat) (tag : Nat) (edb : Bool)
  /-- Margining steps that a lane advertises to its partner: timing and voltage, each way (R63). -/
  | marginSteps (c lane timing voltage : Nat)
  /-- Credits returned to the partner of a port: message class, headers and bytes of data. -/
  | credit (p mc hdr dat : Nat)
  /-- Initial credits advertised at link up: message class, headers and bytes of data (R70). -/
  | credits (p mc hdr dat : Nat)
  /-- AER error message to the host of a virtual switch. -/
  | aer (inst vb : Nat) (uncorrectable : Bool)
  /-- ERR_FATAL, or ERR_NONFATAL, of the upstream port's function of a virtual switch (Table 9.6 step 4). -/
  | errMsg (inst : Nat) (fatal : Bool)
  /-- Mailbox completion to a host: return code and payload. -/
  | mailbox (inst code : Nat) (payload : List Byte)
  /-- AVSBus write of the VDD_CORE setpoint in mV. -/
  | avs (mv : Nat)
  /-- AVSBus write of the VDD_SRAM setpoint. -/
  | avsSram (mv : Nat)
  /-- Answer to ARP, neighbour solicitation or echo. -/
  | ethReply (e kind : Nat) (data : List Byte)
  /-- EAPOL frame of the key agreement. -/
  | eapol (e : Nat) (what : Nat)
  /-- Link replay request for a failed flit, and Recovery entry. -/
  | replay (p : Nat)
  /-- Queue states broadcast by a region: open and pressed. -/
  | queues (r : Nat) (openMask pressedMask : List Nat)
  /-- Viral forwarded to a host. -/
  | viral (p : Nat)
  /-- Interrupt or trap of the management complex: cause. -/
  | irq (cause : Nat)
  /-- JTAG data out. -/
  | jtag (v : Nat) (err : Bool)
  /-- A command tunnelled to a device. -/
  | tunnel (p ld : Nat) (data : List Byte)
  /-- The value a read of a register or of memory returned to its initiator. -/
  | value (initiator : Nat) (v : Nat)
  deriving DecidableEq, Repr

end Sys2Proof.Machine
end

