-- ==== Sys2Proof/Machine/RegMap.lean ====
section
/-! DEFINITION. The register map: every field of every register with its access type, every reset value and every address,
as the register headings and field tables of spec/02 to spec/20 give them (R3, R4, R380, R381, R387). -/

namespace Sys2Proof.Machine

/-! The fields, one namespace per register. -/

namespace F.CEL_PORT_CFG
def SLOT_GATED : Fld := ⟨.CEL_PORT_CFG, 12, 1, .RW⟩
def LOPT_EN : Fld := ⟨.CEL_PORT_CFG, 11, 1, .RW⟩
def FLIT256_EN : Fld := ⟨.CEL_PORT_CFG, 10, 1, .RW⟩
def CACHE_EN : Fld := ⟨.CEL_PORT_CFG, 9, 1, .RW⟩
def CXL_EN : Fld := ⟨.CEL_PORT_CFG, 8, 1, .RW⟩
def MAX_RATE : Fld := ⟨.CEL_PORT_CFG, 5, 3, .RW⟩
def WIDTH : Fld := ⟨.CEL_PORT_CFG, 3, 2, .RW⟩
def ROLE : Fld := ⟨.CEL_PORT_CFG, 0, 3, .RW⟩
end F.CEL_PORT_CFG
namespace F.CEL_PORT_STS
def CFG_ERROR : Fld := ⟨.CEL_PORT_STS, 22, 1, .RO⟩
def CFG_REFUSED : Fld := ⟨.CEL_PORT_STS, 21, 1, .W1C⟩
def GROVE_ELIGIBLE : Fld := ⟨.CEL_PORT_STS, 20, 1, .RO⟩
def PARTNER_RATE : Fld := ⟨.CEL_PORT_STS, 16, 4, .RO⟩
def PARTNER_VER : Fld := ⟨.CEL_PORT_STS, 13, 3, .RO⟩
def LOPT : Fld := ⟨.CEL_PORT_STS, 12, 1, .RO⟩
def FLIT256 : Fld := ⟨.CEL_PORT_STS, 11, 1, .RO⟩
def MEM_BI : Fld := ⟨.CEL_PORT_STS, 10, 1, .RO⟩
def CACHE_ACTIVE : Fld := ⟨.CEL_PORT_STS, 9, 1, .RO⟩
def CXL_ACTIVE : Fld := ⟨.CEL_PORT_STS, 8, 1, .RO⟩
def NEG_WIDTH : Fld := ⟨.CEL_PORT_STS, 3, 5, .RO⟩
def NEG_RATE : Fld := ⟨.CEL_PORT_STS, 0, 3, .RO⟩
end F.CEL_PORT_STS
namespace F.CEL_LINK_CFG
def EQ_BYPASS_EN : Fld := ⟨.CEL_LINK_CFG, 15, 1, .RW⟩
def LOOP_ALLOW : Fld := ⟨.CEL_LINK_CFG, 14, 1, .RW⟩
def LOOP_MODE : Fld := ⟨.CEL_LINK_CFG, 11, 3, .RW⟩
def TEST_EN : Fld := ⟨.CEL_LINK_CFG, 10, 1, .RW⟩
def CDR_BW : Fld := ⟨.CEL_LINK_CFG, 8, 2, .RW⟩
def SRIS : Fld := ⟨.CEL_LINK_CFG, 7, 1, .RW⟩
def REFSEL : Fld := ⟨.CEL_LINK_CFG, 5, 2, .RW⟩
end F.CEL_LINK_CFG
namespace F.CEL_LINK_STS
def TEST_REFUSED : Fld := ⟨.CEL_LINK_STS, 24, 1, .W1C⟩
def RATE_DOWN : Fld := ⟨.CEL_LINK_STS, 23, 1, .RO⟩
def REVERSED : Fld := ⟨.CEL_LINK_STS, 22, 1, .RO⟩
def EQ_PHASE : Fld := ⟨.CEL_LINK_STS, 20, 2, .RO⟩
def QUALITY_RETRAINS : Fld := ⟨.CEL_LINK_STS, 16, 3, .RO⟩
def LTSSM : Fld := ⟨.CEL_LINK_STS, 8, 5, .RO⟩
def EQ_DONE : Fld := ⟨.CEL_LINK_STS, 0, 5, .RO⟩
end F.CEL_LINK_STS
namespace F.LNK_LANE_STS
def LOGICAL_LANE : Fld := ⟨.LNK_LANE_STS, 16, 4, .RO⟩
def FEC_UNCORR : Fld := ⟨.LNK_LANE_STS, 11, 1, .W1C⟩
def SYNC_ERR : Fld := ⟨.LNK_LANE_STS, 10, 1, .W1C⟩
def DEC_ERR : Fld := ⟨.LNK_LANE_STS, 9, 1, .W1C⟩
def DISP_ERR : Fld := ⟨.LNK_LANE_STS, 8, 1, .W1C⟩
def POL_INV : Fld := ⟨.LNK_LANE_STS, 4, 1, .RO⟩
def ALIGNED : Fld := ⟨.LNK_LANE_STS, 3, 1, .RO⟩
def CDR_LOCK : Fld := ⟨.LNK_LANE_STS, 2, 1, .RO⟩
def SIG_DET : Fld := ⟨.LNK_LANE_STS, 1, 1, .RO⟩
def ACTIVE : Fld := ⟨.LNK_LANE_STS, 0, 1, .RO⟩
end F.LNK_LANE_STS
namespace F.LNK_EQ
def TX_POST : Fld := ⟨.LNK_EQ, 26, 6, .RO⟩
def TX_PRE : Fld := ⟨.LNK_EQ, 20, 6, .RO⟩
def CTLE : Fld := ⟨.LNK_EQ, 15, 5, .RO⟩
def TX_PRE2 : Fld := ⟨.LNK_EQ, 12, 3, .RO⟩
def ADAPT_FREEZE : Fld := ⟨.LNK_EQ, 8, 1, .RW⟩
def PRESET : Fld := ⟨.LNK_EQ, 4, 4, .RW⟩
def PRESET_FORCE : Fld := ⟨.LNK_EQ, 0, 1, .RW⟩
end F.LNK_EQ
namespace F.LNK_PRBS
def CLEAR : Fld := ⟨.LNK_PRBS, 7, 1, .WO⟩
def LOCK : Fld := ⟨.LNK_PRBS, 6, 1, .RO⟩
def INVERT : Fld := ⟨.LNK_PRBS, 5, 1, .RW⟩
def PATTERN : Fld := ⟨.LNK_PRBS, 3, 2, .RW⟩
def CHK_EN : Fld := ⟨.LNK_PRBS, 1, 1, .RW⟩
def GEN_EN : Fld := ⟨.LNK_PRBS, 0, 1, .RW⟩
end F.LNK_PRBS
namespace F.LNK_PRBS_ERR
def ERRORS : Fld := ⟨.LNK_PRBS_ERR, 0, 32, .RO⟩
end F.LNK_PRBS_ERR
namespace F.LNK_PRBS_BITS
def BITS : Fld := ⟨.LNK_PRBS_BITS, 0, 32, .RO⟩
end F.LNK_PRBS_BITS
namespace F.LNK_MARGIN
def START : Fld := ⟨.LNK_MARGIN, 31, 1, .WO⟩
def EYE : Fld := ⟨.LNK_MARGIN, 29, 2, .RW⟩
def DWELL : Fld := ⟨.LNK_MARGIN, 24, 5, .RW⟩
def T_OFFSET : Fld := ⟨.LNK_MARGIN, 16, 6, .RW⟩
def V_OFFSET : Fld := ⟨.LNK_MARGIN, 8, 6, .RW⟩
end F.LNK_MARGIN
namespace F.LNK_MARGIN_RES
def DONE : Fld := ⟨.LNK_MARGIN_RES, 31, 1, .RO⟩
def ABORTED : Fld := ⟨.LNK_MARGIN_RES, 30, 1, .RO⟩
def REFUSED : Fld := ⟨.LNK_MARGIN_RES, 29, 1, .RO⟩
def BUSY : Fld := ⟨.LNK_MARGIN_RES, 28, 1, .RO⟩
def ERRORS : Fld := ⟨.LNK_MARGIN_RES, 0, 24, .RO⟩
end F.LNK_MARGIN_RES
namespace F.BUF_CFG
def OVERSHOOT : Fld := ⟨.BUF_CFG, 16, 8, .RW⟩
def RES_RSV : Fld := ⟨.BUF_CFG, 0, 10, .RW⟩
end F.BUF_CFG
namespace F.BUF_ALPHA0
def SC7 : Fld := ⟨.BUF_ALPHA0, 28, 4, .RW⟩
def SC6 : Fld := ⟨.BUF_ALPHA0, 24, 4, .RW⟩
def SC5 : Fld := ⟨.BUF_ALPHA0, 20, 4, .RW⟩
def SC4 : Fld := ⟨.BUF_ALPHA0, 16, 4, .RW⟩
def SC3 : Fld := ⟨.BUF_ALPHA0, 12, 4, .RW⟩
def SC2 : Fld := ⟨.BUF_ALPHA0, 8, 4, .RW⟩
def SC1 : Fld := ⟨.BUF_ALPHA0, 4, 4, .RW⟩
def SC0 : Fld := ⟨.BUF_ALPHA0, 0, 4, .RW⟩
end F.BUF_ALPHA0
namespace F.BUF_ALPHA1
def RES_ALPHA : Fld := ⟨.BUF_ALPHA1, 16, 4, .RW⟩
def SC11 : Fld := ⟨.BUF_ALPHA1, 12, 4, .RW⟩
def SC10 : Fld := ⟨.BUF_ALPHA1, 8, 4, .RW⟩
def SC9 : Fld := ⟨.BUF_ALPHA1, 4, 4, .RW⟩
def SC8 : Fld := ⟨.BUF_ALPHA1, 0, 4, .RW⟩
end F.BUF_ALPHA1
namespace F.BUF_POOL
def SHARED : Fld := ⟨.BUF_POOL, 16, 15, .RO⟩
def FREE : Fld := ⟨.BUF_POOL, 0, 15, .RO⟩
end F.BUF_POOL
namespace F.BUF_POOL_MIN
def CLEAR : Fld := ⟨.BUF_POOL_MIN, 31, 1, .WO⟩
def LOWEST : Fld := ⟨.BUF_POOL_MIN, 0, 15, .RO⟩
end F.BUF_POOL_MIN
namespace F.BUF_RSV
def TOTAL : Fld := ⟨.BUF_RSV, 0, 15, .RO⟩
end F.BUF_RSV
namespace F.BUF_MC_STS
def COPIES : Fld := ⟨.BUF_MC_STS, 16, 16, .RO⟩
def HELD : Fld := ⟨.BUF_MC_STS, 0, 15, .RO⟩
end F.BUF_MC_STS
namespace F.BUF_FLUSH
def COUNT : Fld := ⟨.BUF_FLUSH, 16, 16, .RO⟩
def BUSY : Fld := ⟨.BUF_FLUSH, 8, 1, .RO⟩
def PORT : Fld := ⟨.BUF_FLUSH, 0, 4, .RO⟩
end F.BUF_FLUSH
namespace F.BUF_ICRED
def HELD : Fld := ⟨.BUF_ICRED, 11, 15, .RO⟩
def INIT : Fld := ⟨.BUF_ICRED, 0, 10, .RW⟩
end F.BUF_ICRED
namespace F.BUF_EQ
def PEAK_CLR : Fld := ⟨.BUF_EQ, 31, 1, .WO⟩
def PEAK : Fld := ⟨.BUF_EQ, 16, 15, .RO⟩
def CLOSED : Fld := ⟨.BUF_EQ, 15, 1, .RO⟩
def HELD : Fld := ⟨.BUF_EQ, 0, 15, .RO⟩
end F.BUF_EQ
namespace F.QOS_CLASS
def CACHE_REQ : Fld := ⟨.QOS_CLASS, 16, 4, .RW⟩
def MEM_RWD : Fld := ⟨.QOS_CLASS, 12, 4, .RW⟩
def MEM_REQ : Fld := ⟨.QOS_CLASS, 8, 4, .RW⟩
def IO_NP : Fld := ⟨.QOS_CLASS, 4, 4, .RW⟩
def IO_P : Fld := ⟨.QOS_CLASS, 0, 4, .RW⟩
end F.QOS_CLASS
namespace F.QOS_HUB
def MOVER : Fld := ⟨.QOS_HUB, 4, 4, .RW⟩
def MGMT : Fld := ⟨.QOS_HUB, 0, 4, .RW⟩
end F.QOS_HUB
namespace F.QOS_WEIGHT0
def SC7 : Fld := ⟨.QOS_WEIGHT0, 24, 8, .RW⟩
def SC6 : Fld := ⟨.QOS_WEIGHT0, 16, 8, .RW⟩
def SC5 : Fld := ⟨.QOS_WEIGHT0, 8, 8, .RW⟩
def SC4 : Fld := ⟨.QOS_WEIGHT0, 0, 8, .RW⟩
end F.QOS_WEIGHT0
namespace F.QOS_WEIGHT1
def SC11 : Fld := ⟨.QOS_WEIGHT1, 24, 8, .RW⟩
def SC10 : Fld := ⟨.QOS_WEIGHT1, 16, 8, .RW⟩
def SC9 : Fld := ⟨.QOS_WEIGHT1, 8, 8, .RW⟩
def SC8 : Fld := ⟨.QOS_WEIGHT1, 0, 8, .RW⟩
end F.QOS_WEIGHT1
namespace F.QOS_CON_CFG
def EN : Fld := ⟨.QOS_CON_CFG, 31, 1, .RW⟩
def READ_CHARGE : Fld := ⟨.QOS_CON_CFG, 30, 1, .RW⟩
def OVH : Fld := ⟨.QOS_CON_CFG, 16, 6, .RW⟩
def DEPTH : Fld := ⟨.QOS_CON_CFG, 0, 12, .RW⟩
end F.QOS_CON_CFG
namespace F.QOS_CON_MIN
def RATE : Fld := ⟨.QOS_CON_MIN, 0, 20, .RW⟩
end F.QOS_CON_MIN
namespace F.QOS_CON_CAP
def RATE : Fld := ⟨.QOS_CON_CAP, 0, 20, .RW⟩
end F.QOS_CON_CAP
namespace F.QOS_CON_STS
def HOLD : Fld := ⟨.QOS_CON_STS, 31, 1, .RO⟩
def COMMITTED : Fld := ⟨.QOS_CON_STS, 30, 1, .RO⟩
def MIN_SHORT : Fld := ⟨.QOS_CON_STS, 29, 1, .W1C⟩
def WAITING : Fld := ⟨.QOS_CON_STS, 0, 16, .RO⟩
end F.QOS_CON_STS
namespace F.QOS_EGR_STS
def PROMOTED : Fld := ⟨.QOS_EGR_STS, 12, 1, .W1C⟩
def PRESSED : Fld := ⟨.QOS_EGR_STS, 0, 12, .RO⟩
end F.QOS_EGR_STS
namespace F.QOS_EPOL_CFG
def DEPTH : Fld := ⟨.QOS_EPOL_CFG, 24, 8, .RW⟩
def RATE : Fld := ⟨.QOS_EPOL_CFG, 0, 17, .RW⟩
end F.QOS_EPOL_CFG
namespace F.QOS_EPOL_DROP
def FRAMES : Fld := ⟨.QOS_EPOL_DROP, 0, 32, .W1C⟩
end F.QOS_EPOL_DROP
namespace F.QOS_EPOL_DROP_KB
def KIB : Fld := ⟨.QOS_EPOL_DROP_KB, 0, 32, .W1C⟩
end F.QOS_EPOL_DROP_KB
namespace F.VCS_RST_CFG
def DRAIN_TO : Fld := ⟨.VCS_RST_CFG, 0, 14, .RW⟩
end F.VCS_RST_CFG
namespace F.VCS_QUAR_CFG
def IMG_REBIND : Fld := ⟨.VCS_QUAR_CFG, 31, 1, .RW⟩
def REQUIRE_LOOP : Fld := ⟨.VCS_QUAR_CFG, 30, 1, .RW⟩
def LOOP_MS : Fld := ⟨.VCS_QUAR_CFG, 16, 8, .RW⟩
def DOWN_LIMIT : Fld := ⟨.VCS_QUAR_CFG, 0, 16, .RW⟩
end F.VCS_QUAR_CFG
namespace F.VCS_MBX_CFG
def RELAY_TO : Fld := ⟨.VCS_MBX_CFG, 0, 16, .RW⟩
end F.VCS_MBX_CFG
namespace F.VCS_POOL
def ALLOC : Fld := ⟨.VCS_POOL, 16, 12, .RO⟩
def BOUND : Fld := ⟨.VCS_POOL, 0, 12, .RO⟩
end F.VCS_POOL
namespace F.VCS_PORT_ADM
def STATE : Fld := ⟨.VCS_PORT_ADM, 28, 4, .RO⟩
def LOOP_RESULT : Fld := ⟨.VCS_PORT_ADM, 26, 2, .RO⟩
def OOS_CAUSE : Fld := ⟨.VCS_PORT_ADM, 20, 4, .RO⟩
def QUAR_DISCARDS : Fld := ⟨.VCS_PORT_ADM, 0, 16, .W1C⟩
end F.VCS_PORT_ADM
namespace F.VCS_INST_CFG
def EN : Fld := ⟨.VCS_INST_CFG, 31, 1, .RW⟩
def VPPB_COUNT : Fld := ⟨.VCS_INST_CFG, 16, 7, .RW⟩
def USP : Fld := ⟨.VCS_INST_CFG, 0, 7, .RW⟩
end F.VCS_INST_CFG
namespace F.VCS_INST_STS
def CFG_ERROR : Fld := ⟨.VCS_INST_STS, 31, 1, .RO⟩
def CFG_REFUSED : Fld := ⟨.VCS_INST_STS, 30, 1, .W1C⟩
def RESET_BUSY : Fld := ⟨.VCS_INST_STS, 29, 1, .RO⟩
def ATTACHED : Fld := ⟨.VCS_INST_STS, 28, 1, .RO⟩
def BOUND : Fld := ⟨.VCS_INST_STS, 0, 7, .RO⟩
end F.VCS_INST_STS
namespace F.VCS_MBX_STS
def RELAY_PENDING : Fld := ⟨.VCS_MBX_STS, 31, 1, .RO⟩
def NO_MANAGER : Fld := ⟨.VCS_MBX_STS, 30, 1, .W1C⟩
def TIMED_OUT : Fld := ⟨.VCS_MBX_STS, 29, 1, .W1C⟩
def LAST_OPCODE : Fld := ⟨.VCS_MBX_STS, 0, 16, .RO⟩
end F.VCS_MBX_STS
namespace F.VCS_VPPB_BIND
def TYPE : Fld := ⟨.VCS_VPPB_BIND, 30, 2, .RO⟩
def IMG : Fld := ⟨.VCS_VPPB_BIND, 29, 1, .RO⟩
def PBR_ID : Fld := ⟨.VCS_VPPB_BIND, 12, 12, .RO⟩
def LD_ID : Fld := ⟨.VCS_VPPB_BIND, 8, 4, .RO⟩
def PORT : Fld := ⟨.VCS_VPPB_BIND, 0, 7, .RO⟩
end F.VCS_VPPB_BIND
namespace F.VCS_VPPB_STS
def STATE : Fld := ⟨.VCS_VPPB_STS, 28, 4, .RO⟩
def LINK_ACTIVE : Fld := ⟨.VCS_VPPB_STS, 27, 1, .RO⟩
def PRESENT : Fld := ⟨.VCS_VPPB_STS, 26, 1, .RO⟩
def DRAIN_TIMEOUT : Fld := ⟨.VCS_VPPB_STS, 25, 1, .W1C⟩
def GRAFT_ABORTED : Fld := ⟨.VCS_VPPB_STS, 24, 1, .W1C⟩
def SQUASHED : Fld := ⟨.VCS_VPPB_STS, 0, 16, .RO⟩
end F.VCS_VPPB_STS
namespace F.DEC_STG_CTRL
def COMMIT : Fld := ⟨.DEC_STG_CTRL, 31, 1, .WO⟩
def INST : Fld := ⟨.DEC_STG_CTRL, 16, 6, .RW⟩
def WIN : Fld := ⟨.DEC_STG_CTRL, 0, 5, .RW⟩
end F.DEC_STG_CTRL
namespace F.DEC_STG_STS
def BUSY : Fld := ⟨.DEC_STG_STS, 31, 1, .RO⟩
def DONE : Fld := ⟨.DEC_STG_STS, 30, 1, .W1C⟩
def RESULT : Fld := ⟨.DEC_STG_STS, 0, 8, .RO⟩
end F.DEC_STG_STS
namespace F.DEC_STG_BASE
def BASE : Fld := ⟨.DEC_STG_BASE, 0, 24, .RW⟩
end F.DEC_STG_BASE
namespace F.DEC_STG_SIZE
def SIZE : Fld := ⟨.DEC_STG_SIZE, 0, 25, .RW⟩
end F.DEC_STG_SIZE
namespace F.DEC_STG_CFG
def EN : Fld := ⟨.DEC_STG_CFG, 31, 1, .RW⟩
def KIND : Fld := ⟨.DEC_STG_CFG, 30, 1, .RW⟩
def IW : Fld := ⟨.DEC_STG_CFG, 24, 4, .RW⟩
def IG : Fld := ⟨.DEC_STG_CFG, 20, 4, .RW⟩
def GROVE : Fld := ⟨.DEC_STG_CFG, 8, 5, .RW⟩
def GWIN : Fld := ⟨.DEC_STG_CFG, 4, 4, .RW⟩
def HR : Fld := ⟨.DEC_STG_CFG, 3, 1, .RW⟩
def HW : Fld := ⟨.DEC_STG_CFG, 2, 1, .RW⟩
def DR : Fld := ⟨.DEC_STG_CFG, 1, 1, .RW⟩
def DW : Fld := ⟨.DEC_STG_CFG, 0, 1, .RW⟩
end F.DEC_STG_CFG
namespace F.DEC_STG_TGT_A
def TYPE : Fld := ⟨.DEC_STG_TGT_A, 30, 2, .RW⟩
def PBR_ID : Fld := ⟨.DEC_STG_TGT_A, 12, 12, .RW⟩
def LD_ID : Fld := ⟨.DEC_STG_TGT_A, 8, 4, .RW⟩
def PORT : Fld := ⟨.DEC_STG_TGT_A, 0, 7, .RW⟩
end F.DEC_STG_TGT_A
namespace F.DEC_STG_TGT_B
def DPA_BASE : Fld := ⟨.DEC_STG_TGT_B, 0, 24, .RW⟩
end F.DEC_STG_TGT_B
namespace F.DEC_WIN_EPOCH
def EPOCH : Fld := ⟨.DEC_WIN_EPOCH, 0, 32, .RO⟩
end F.DEC_WIN_EPOCH
namespace F.DEC_WIN_BASE
def BASE : Fld := ⟨.DEC_WIN_BASE, 0, 24, .RO⟩
end F.DEC_WIN_BASE
namespace F.DEC_WIN_SIZE
def SIZE : Fld := ⟨.DEC_WIN_SIZE, 0, 25, .RO⟩
end F.DEC_WIN_SIZE
namespace F.DEC_WIN_CFG
def EN : Fld := ⟨.DEC_WIN_CFG, 31, 1, .RO⟩
def KIND : Fld := ⟨.DEC_WIN_CFG, 30, 1, .RO⟩
def IW : Fld := ⟨.DEC_WIN_CFG, 24, 4, .RO⟩
def IG : Fld := ⟨.DEC_WIN_CFG, 20, 4, .RO⟩
def GROVE : Fld := ⟨.DEC_WIN_CFG, 8, 5, .RO⟩
def GWIN : Fld := ⟨.DEC_WIN_CFG, 4, 4, .RO⟩
def HR : Fld := ⟨.DEC_WIN_CFG, 3, 1, .RO⟩
def HW : Fld := ⟨.DEC_WIN_CFG, 2, 1, .RO⟩
def DR : Fld := ⟨.DEC_WIN_CFG, 1, 1, .RO⟩
def DW : Fld := ⟨.DEC_WIN_CFG, 0, 1, .RO⟩
end F.DEC_WIN_CFG
namespace F.DEC_WIN_TGT_A
def TYPE : Fld := ⟨.DEC_WIN_TGT_A, 30, 2, .RO⟩
def PBR_ID : Fld := ⟨.DEC_WIN_TGT_A, 12, 12, .RO⟩
def LD_ID : Fld := ⟨.DEC_WIN_TGT_A, 8, 4, .RO⟩
def PORT : Fld := ⟨.DEC_WIN_TGT_A, 0, 7, .RO⟩
end F.DEC_WIN_TGT_A
namespace F.DEC_WIN_TGT_B
def DPA_BASE : Fld := ⟨.DEC_WIN_TGT_B, 0, 24, .RO⟩
end F.DEC_WIN_TGT_B
namespace F.ACC_CFG
def COMMIT_TO : Fld := ⟨.ACC_CFG, 0, 14, .RW⟩
end F.ACC_CFG
namespace F.ACC_EPOCH_CUR
def EPOCH : Fld := ⟨.ACC_EPOCH_CUR, 0, 32, .RO⟩
end F.ACC_EPOCH_CUR
namespace F.ACC_EPOCH_CMT
def EPOCH : Fld := ⟨.ACC_EPOCH_CMT, 0, 32, .RO⟩
end F.ACC_EPOCH_CMT
namespace F.ACC_STS
def STALLED : Fld := ⟨.ACC_STS, 31, 1, .W1C⟩
def EPOCH_WAIT : Fld := ⟨.ACC_STS, 30, 1, .RO⟩
def LIVE : Fld := ⟨.ACC_STS, 0, 4, .RO⟩
end F.ACC_STS
namespace F.ACC_DENY_CNT
def COUNT : Fld := ⟨.ACC_DENY_CNT, 0, 32, .W1C⟩
end F.ACC_DENY_CNT
namespace F.ACC_DENY_INFO
def INITIATOR : Fld := ⟨.ACC_DENY_INFO, 24, 8, .RO⟩
def INST : Fld := ⟨.ACC_DENY_INFO, 16, 6, .RO⟩
def REASON : Fld := ⟨.ACC_DENY_INFO, 12, 4, .RO⟩
def KIND : Fld := ⟨.ACC_DENY_INFO, 0, 2, .RO⟩
end F.ACC_DENY_INFO
namespace F.ACC_DENY_ADDR_LO
def HPA_LO : Fld := ⟨.ACC_DENY_ADDR_LO, 0, 32, .RO⟩
end F.ACC_DENY_ADDR_LO
namespace F.ACC_DENY_ADDR_HI
def HPA_HI : Fld := ⟨.ACC_DENY_ADDR_HI, 0, 20, .RO⟩
end F.ACC_DENY_ADDR_HI
namespace F.MPU_CFG
def LOCK : Fld := ⟨.MPU_CFG, 31, 1, .W1S⟩
def MACHINE_DEFAULT : Fld := ⟨.MPU_CFG, 1, 1, .RWL⟩
def EN : Fld := ⟨.MPU_CFG, 0, 1, .RWL⟩
end F.MPU_CFG
namespace F.MPU_STS
def REFUSED : Fld := ⟨.MPU_STS, 31, 1, .W1C⟩
def FAULT : Fld := ⟨.MPU_STS, 30, 1, .W1C⟩
def ENTRY : Fld := ⟨.MPU_STS, 0, 5, .RO⟩
end F.MPU_STS
namespace F.MPU_FAULT_ADDR_LO
def ADDR_LO : Fld := ⟨.MPU_FAULT_ADDR_LO, 0, 32, .RO⟩
end F.MPU_FAULT_ADDR_LO
namespace F.MPU_FAULT_ADDR_HI
def ADDR_HI : Fld := ⟨.MPU_FAULT_ADDR_HI, 0, 8, .RO⟩
end F.MPU_FAULT_ADDR_HI
namespace F.MPU_FAULT_INFO
def INITIATOR : Fld := ⟨.MPU_FAULT_INFO, 8, 8, .RO⟩
def LEVEL : Fld := ⟨.MPU_FAULT_INFO, 2, 2, .RO⟩
def ACCESS : Fld := ⟨.MPU_FAULT_INFO, 0, 2, .RO⟩
end F.MPU_FAULT_INFO
namespace F.MPU_BASE
def BASE : Fld := ⟨.MPU_BASE, 0, 32, .RWL⟩
end F.MPU_BASE
namespace F.MPU_ATTR
def LOCK : Fld := ⟨.MPU_ATTR, 31, 1, .W1S⟩
def EN : Fld := ⟨.MPU_ATTR, 30, 1, .RWL⟩
def SIZE : Fld := ⟨.MPU_ATTR, 24, 6, .RWL⟩
def SRD : Fld := ⟨.MPU_ATTR, 16, 8, .RWL⟩
def AGENT : Fld := ⟨.MPU_ATTR, 9, 3, .RWL⟩
def USER : Fld := ⟨.MPU_ATTR, 6, 3, .RWL⟩
def SUPERVISOR : Fld := ⟨.MPU_ATTR, 3, 3, .RWL⟩
def MACHINE : Fld := ⟨.MPU_ATTR, 0, 3, .RWL⟩
end F.MPU_ATTR
namespace F.GRV_CFG
def BIRSP_TO : Fld := ⟨.GRV_CFG, 0, 10, .RW⟩
end F.GRV_CFG
namespace F.GRV_SLICE_STS
def WAITING : Fld := ⟨.GRV_SLICE_STS, 16, 13, .RO⟩
def LOCKS : Fld := ⟨.GRV_SLICE_STS, 0, 14, .RO⟩
end F.GRV_SLICE_STS
namespace F.GRV_SLICE_PEAK
def CLEAR : Fld := ⟨.GRV_SLICE_PEAK, 31, 1, .WO⟩
def LOCKS_PEAK : Fld := ⟨.GRV_SLICE_PEAK, 0, 14, .RO⟩
end F.GRV_SLICE_PEAK
namespace F.GRV_STS
def STATE : Fld := ⟨.GRV_STS, 29, 3, .RO⟩
def DISSOLVING : Fld := ⟨.GRV_STS, 28, 1, .RO⟩
def REMOVING : Fld := ⟨.GRV_STS, 27, 1, .RO⟩
def TARGETS_UP : Fld := ⟨.GRV_STS, 26, 1, .RO⟩
def WINDOWS : Fld := ⟨.GRV_STS, 16, 5, .RO⟩
def MEMBERS : Fld := ⟨.GRV_STS, 8, 7, .RO⟩
def JOINED : Fld := ⟨.GRV_STS, 0, 7, .RO⟩
end F.GRV_STS
namespace F.GRV_MEMBER_LO
def INST : Fld := ⟨.GRV_MEMBER_LO, 0, 32, .RO⟩
end F.GRV_MEMBER_LO
namespace F.GRV_MEMBER_HI
def INST : Fld := ⟨.GRV_MEMBER_HI, 0, 32, .RO⟩
end F.GRV_MEMBER_HI
namespace F.GRV_JOINED_LO
def INST : Fld := ⟨.GRV_JOINED_LO, 0, 32, .RO⟩
end F.GRV_JOINED_LO
namespace F.GRV_JOINED_HI
def INST : Fld := ⟨.GRV_JOINED_HI, 0, 32, .RO⟩
end F.GRV_JOINED_HI
namespace F.GRV_WIN_CFG
def EN : Fld := ⟨.GRV_WIN_CFG, 31, 1, .RO⟩
def IW : Fld := ⟨.GRV_WIN_CFG, 24, 4, .RO⟩
def IG : Fld := ⟨.GRV_WIN_CFG, 20, 4, .RO⟩
end F.GRV_WIN_CFG
namespace F.GRV_WIN_GA
def GA_BASE : Fld := ⟨.GRV_WIN_GA, 0, 18, .RO⟩
end F.GRV_WIN_GA
namespace F.GRV_WIN_SIZE
def SIZE : Fld := ⟨.GRV_WIN_SIZE, 0, 19, .RO⟩
end F.GRV_WIN_SIZE
namespace F.GRV_WIN_TGT_A
def TYPE : Fld := ⟨.GRV_WIN_TGT_A, 30, 2, .RO⟩
def LD_ID : Fld := ⟨.GRV_WIN_TGT_A, 8, 4, .RO⟩
def PORT : Fld := ⟨.GRV_WIN_TGT_A, 0, 7, .RO⟩
end F.GRV_WIN_TGT_A
namespace F.GRV_WIN_TGT_B
def DPA_BASE : Fld := ⟨.GRV_WIN_TGT_B, 0, 24, .RO⟩
end F.GRV_WIN_TGT_B
namespace F.SNF_STS
def VALID : Fld := ⟨.SNF_STS, 0, 20, .RO⟩
end F.SNF_STS
namespace F.SNF_EVICT
def COUNT : Fld := ⟨.SNF_EVICT, 0, 32, .W1C⟩
end F.SNF_EVICT
namespace F.SNF_PROBE_ADDR_LO
def GA_LO : Fld := ⟨.SNF_PROBE_ADDR_LO, 6, 26, .RW⟩
end F.SNF_PROBE_ADDR_LO
namespace F.SNF_PROBE_ADDR_HI
def START : Fld := ⟨.SNF_PROBE_ADDR_HI, 31, 1, .WO⟩
def GA_HI : Fld := ⟨.SNF_PROBE_ADDR_HI, 0, 14, .RW⟩
end F.SNF_PROBE_ADDR_HI
namespace F.SNF_PROBE_RES
def DONE : Fld := ⟨.SNF_PROBE_RES, 31, 1, .RO⟩
def HIT : Fld := ⟨.SNF_PROBE_RES, 30, 1, .RO⟩
def STATE : Fld := ⟨.SNF_PROBE_RES, 28, 2, .RO⟩
def PINNED : Fld := ⟨.SNF_PROBE_RES, 27, 1, .RO⟩
def AGENT : Fld := ⟨.SNF_PROBE_RES, 26, 1, .RO⟩
def NOT_HOME : Fld := ⟨.SNF_PROBE_RES, 25, 1, .RO⟩
def SET : Fld := ⟨.SNF_PROBE_RES, 4, 15, .RO⟩
def WAY : Fld := ⟨.SNF_PROBE_RES, 0, 4, .RO⟩
end F.SNF_PROBE_RES
namespace F.SNF_PROBE_PV_LO
def PV : Fld := ⟨.SNF_PROBE_PV_LO, 0, 32, .RO⟩
end F.SNF_PROBE_PV_LO
namespace F.SNF_PROBE_PV_HI
def PV : Fld := ⟨.SNF_PROBE_PV_HI, 0, 32, .RO⟩
end F.SNF_PROBE_PV_HI
namespace F.GRV_SET_WAIT
def COUNT : Fld := ⟨.GRV_SET_WAIT, 0, 32, .W1C⟩
end F.GRV_SET_WAIT
namespace F.GRV_STRAY
def COUNT : Fld := ⟨.GRV_STRAY, 0, 32, .W1C⟩
end F.GRV_STRAY
namespace F.GRV_CONFLICT
def COUNT : Fld := ⟨.GRV_CONFLICT, 0, 32, .W1C⟩
end F.GRV_CONFLICT
namespace F.GRV_SNOOP_TRACK
def FULL_SEEN : Fld := ⟨.GRV_SNOOP_TRACK, 31, 1, .W1C⟩
def IN_USE : Fld := ⟨.GRV_SNOOP_TRACK, 0, 13, .RO⟩
end F.GRV_SNOOP_TRACK
namespace F.GRV_FELL
def CAUSE : Fld := ⟨.GRV_FELL, 28, 4, .RO⟩
def WRITES_OPEN : Fld := ⟨.GRV_FELL, 27, 1, .RO⟩
def REGION : Fld := ⟨.GRV_FELL, 24, 3, .RO⟩
def INST : Fld := ⟨.GRV_FELL, 16, 6, .RO⟩
def MERGED : Fld := ⟨.GRV_FELL, 8, 8, .RO⟩
def PORT : Fld := ⟨.GRV_FELL, 0, 7, .RO⟩
end F.GRV_FELL
namespace F.GRV_FELL_TIME_LO
def NS : Fld := ⟨.GRV_FELL_TIME_LO, 0, 32, .RO⟩
end F.GRV_FELL_TIME_LO
namespace F.GRV_FELL_TIME_HI
def NS : Fld := ⟨.GRV_FELL_TIME_HI, 0, 32, .RO⟩
end F.GRV_FELL_TIME_HI
namespace F.SNF_RETIRE
def FULL : Fld := ⟨.SNF_RETIRE, 31, 1, .RO⟩
def COUNT : Fld := ⟨.SNF_RETIRE, 0, 9, .RO⟩
end F.SNF_RETIRE
namespace F.SNF_ERR
def CLEAR : Fld := ⟨.SNF_ERR, 31, 1, .WO⟩
def UNCORR : Fld := ⟨.SNF_ERR, 16, 15, .RO⟩
def CORR : Fld := ⟨.SNF_ERR, 0, 16, .RO⟩
end F.SNF_ERR
namespace F.ERT_STS
def ACTIVE : Fld := ⟨.ERT_STS, 24, 5, .RO⟩
def VALID : Fld := ⟨.ERT_STS, 0, 17, .RO⟩
end F.ERT_STS
namespace F.ERT_PROBE_SRC
def START : Fld := ⟨.ERT_PROBE_SRC, 31, 1, .WO⟩
def TYPE : Fld := ⟨.ERT_PROBE_SRC, 12, 2, .RW⟩
def LD_ID : Fld := ⟨.ERT_PROBE_SRC, 8, 4, .RW⟩
def PORT : Fld := ⟨.ERT_PROBE_SRC, 0, 7, .RW⟩
end F.ERT_PROBE_SRC
namespace F.ERT_PROBE_DPA
def EXTENT : Fld := ⟨.ERT_PROBE_DPA, 0, 31, .RW⟩
end F.ERT_PROBE_DPA
namespace F.ERT_PROBE_RES
def DONE : Fld := ⟨.ERT_PROBE_RES, 31, 1, .RO⟩
def HIT : Fld := ⟨.ERT_PROBE_RES, 30, 1, .RO⟩
def STATE : Fld := ⟨.ERT_PROBE_RES, 27, 3, .RO⟩
def NOT_HOME : Fld := ⟨.ERT_PROBE_RES, 26, 1, .RO⟩
def CHANNEL : Fld := ⟨.ERT_PROBE_RES, 16, 4, .RO⟩
def TYPE : Fld := ⟨.ERT_PROBE_RES, 14, 2, .RO⟩
def LD_ID : Fld := ⟨.ERT_PROBE_RES, 8, 4, .RO⟩
def PORT : Fld := ⟨.ERT_PROBE_RES, 0, 7, .RO⟩
end F.ERT_PROBE_RES
namespace F.ERT_PROBE_TDPA
def EXTENT : Fld := ⟨.ERT_PROBE_TDPA, 0, 31, .RO⟩
end F.ERT_PROBE_TDPA
namespace F.MOV_CFG
def XFER_TO : Fld := ⟨.MOV_CFG, 16, 16, .RW⟩
def FLIP_TO : Fld := ⟨.MOV_CFG, 0, 16, .RW⟩
end F.MOV_CFG
namespace F.MOV_CH_CFG
def DEPTH : Fld := ⟨.MOV_CH_CFG, 8, 5, .RW⟩
def RATE : Fld := ⟨.MOV_CH_CFG, 0, 6, .RW⟩
end F.MOV_CH_CFG
namespace F.MOV_CH_STS
def STATE : Fld := ⟨.MOV_CH_STS, 29, 3, .RO⟩
def HALTED : Fld := ⟨.MOV_CH_STS, 28, 1, .W1C⟩
def CAUSE : Fld := ⟨.MOV_CH_STS, 24, 4, .RO⟩
def CHUNKS : Fld := ⟨.MOV_CH_STS, 0, 10, .RO⟩
end F.MOV_CH_STS
namespace F.MOV_CH_SRC
def TYPE : Fld := ⟨.MOV_CH_SRC, 12, 2, .RO⟩
def LD_ID : Fld := ⟨.MOV_CH_SRC, 8, 4, .RO⟩
def PORT : Fld := ⟨.MOV_CH_SRC, 0, 7, .RO⟩
end F.MOV_CH_SRC
namespace F.MOV_CH_TGT
def TYPE : Fld := ⟨.MOV_CH_TGT, 12, 2, .RO⟩
def LD_ID : Fld := ⟨.MOV_CH_TGT, 8, 4, .RO⟩
def PORT : Fld := ⟨.MOV_CH_TGT, 0, 7, .RO⟩
end F.MOV_CH_TGT
namespace F.MOV_CH_SRC_DPA
def EXTENT : Fld := ⟨.MOV_CH_SRC_DPA, 0, 31, .RO⟩
end F.MOV_CH_SRC_DPA
namespace F.MOV_CH_TGT_DPA
def EXTENT : Fld := ⟨.MOV_CH_TGT_DPA, 0, 31, .RO⟩
end F.MOV_CH_TGT_DPA
namespace F.MOV_CH_HELD
def COUNT : Fld := ⟨.MOV_CH_HELD, 0, 32, .RO⟩
end F.MOV_CH_HELD
namespace F.MOV_CH_EPOCH
def EPOCH : Fld := ⟨.MOV_CH_EPOCH, 0, 32, .RO⟩
end F.MOV_CH_EPOCH
namespace F.NOC_BND_STS
def STATE : Fld := ⟨.NOC_BND_STS, 29, 3, .RO⟩
def WAKE_PENDING : Fld := ⟨.NOC_BND_STS, 28, 1, .RO⟩
def HELD : Fld := ⟨.NOC_BND_STS, 0, 16, .RO⟩
end F.NOC_BND_STS
namespace F.NOC_BND_WAKES
def COUNT : Fld := ⟨.NOC_BND_WAKES, 0, 32, .W1C⟩
end F.NOC_BND_WAKES
namespace F.NOC_ERR
def CLEAR : Fld := ⟨.NOC_ERR, 31, 1, .WO⟩
def UNCORR : Fld := ⟨.NOC_ERR, 16, 15, .RO⟩
def CORR : Fld := ⟨.NOC_ERR, 0, 16, .RO⟩
end F.NOC_ERR
namespace F.NOC_ROUTE
def OUT : Fld := ⟨.NOC_ROUTE, 0, 27, .RW⟩
end F.NOC_ROUTE
namespace F.NOC_ROUTE_CTRL
def FLIP : Fld := ⟨.NOC_ROUTE_CTRL, 31, 1, .WO⟩
def DRAINED : Fld := ⟨.NOC_ROUTE_CTRL, 30, 1, .RO⟩
def EPOCH : Fld := ⟨.NOC_ROUTE_CTRL, 29, 1, .RO⟩
def REFUSED : Fld := ⟨.NOC_ROUTE_CTRL, 28, 1, .W1C⟩
def ACTIVE_WRITE : Fld := ⟨.NOC_ROUTE_CTRL, 27, 1, .W1C⟩
def RESULT : Fld := ⟨.NOC_ROUTE_CTRL, 24, 2, .RO⟩
def SRC_NODE : Fld := ⟨.NOC_ROUTE_CTRL, 20, 4, .RO⟩
def DEST_NODE : Fld := ⟨.NOC_ROUTE_CTRL, 16, 4, .RO⟩
def NET : Fld := ⟨.NOC_ROUTE_CTRL, 14, 2, .RO⟩
end F.NOC_ROUTE_CTRL
namespace F.NOC_VC_CFG
def BULK_SHARE : Fld := ⟨.NOC_VC_CFG, 0, 4, .RW⟩
end F.NOC_VC_CFG
namespace F.NOC_STAT_CTRL
def SNAP : Fld := ⟨.NOC_STAT_CTRL, 31, 1, .WO⟩
def CLEAR : Fld := ⟨.NOC_STAT_CTRL, 30, 1, .WO⟩
def SNAP_VALID : Fld := ⟨.NOC_STAT_CTRL, 29, 1, .RO⟩
end F.NOC_STAT_CTRL
namespace F.NOC_STAT_TXN
def COUNT : Fld := ⟨.NOC_STAT_TXN, 0, 32, .RO⟩
end F.NOC_STAT_TXN
namespace F.NOC_STAT_RD
def UNITS : Fld := ⟨.NOC_STAT_RD, 0, 32, .RO⟩
end F.NOC_STAT_RD
namespace F.NOC_STAT_WR
def UNITS : Fld := ⟨.NOC_STAT_WR, 0, 32, .RO⟩
end F.NOC_STAT_WR
namespace F.NOC_STAT_LAT_SUM
def NS : Fld := ⟨.NOC_STAT_LAT_SUM, 0, 32, .RO⟩
end F.NOC_STAT_LAT_SUM
namespace F.NOC_STAT_LAT_MAX
def TICKS : Fld := ⟨.NOC_STAT_LAT_MAX, 0, 32, .RO⟩
end F.NOC_STAT_LAT_MAX
namespace F.ETH_PORT_CFG
def VLAN : Fld := ⟨.ETH_PORT_CFG, 16, 12, .RW⟩
def JUMBO : Fld := ⟨.ETH_PORT_CFG, 15, 1, .RW⟩
def MACSEC_REQ : Fld := ⟨.ETH_PORT_CFG, 14, 1, .RW⟩
def EN : Fld := ⟨.ETH_PORT_CFG, 13, 1, .RW⟩
def ADV : Fld := ⟨.ETH_PORT_CFG, 8, 5, .RW⟩
def MODE : Fld := ⟨.ETH_PORT_CFG, 0, 3, .RW⟩
end F.ETH_PORT_CFG
namespace F.ETH_PORT_STS
def LINK_UP : Fld := ⟨.ETH_PORT_STS, 31, 1, .RO⟩
def PHY : Fld := ⟨.ETH_PORT_STS, 28, 3, .RO⟩
def FEC : Fld := ⟨.ETH_PORT_STS, 26, 2, .RO⟩
def SECURED : Fld := ⟨.ETH_PORT_STS, 25, 1, .RO⟩
def MACSEC_REQUIRED : Fld := ⟨.ETH_PORT_STS, 24, 1, .RO⟩
def LINK_DOWNS : Fld := ⟨.ETH_PORT_STS, 0, 16, .W1C⟩
end F.ETH_PORT_STS
namespace F.ETH_MACSEC_DROP
def FRAMES : Fld := ⟨.ETH_MACSEC_DROP, 0, 32, .W1C⟩
end F.ETH_MACSEC_DROP
namespace F.ETH_UNSEC_DROP
def FRAMES : Fld := ⟨.ETH_UNSEC_DROP, 0, 32, .W1C⟩
end F.ETH_UNSEC_DROP
namespace F.KMP_CFG
def IPV4_EN : Fld := ⟨.KMP_CFG, 31, 1, .RW⟩
def IPV6_EN : Fld := ⟨.KMP_CFG, 30, 1, .RW⟩
def UDP_PORT : Fld := ⟨.KMP_CFG, 0, 16, .RW⟩
end F.KMP_CFG
namespace F.KMP_TIMING
def GAP_MS : Fld := ⟨.KMP_TIMING, 24, 8, .RW⟩
def EVT_RETRY : Fld := ⟨.KMP_TIMING, 16, 8, .RW⟩
def EVT_TRIES : Fld := ⟨.KMP_TIMING, 12, 4, .RW⟩
end F.KMP_TIMING
namespace F.KMP_SESS_STS
def UP : Fld := ⟨.KMP_SESS_STS, 31, 1, .RO⟩
def PORT : Fld := ⟨.KMP_SESS_STS, 30, 1, .RO⟩
def RELAY : Fld := ⟨.KMP_SESS_STS, 29, 1, .RO⟩
def IPV6 : Fld := ⟨.KMP_SESS_STS, 28, 1, .RO⟩
def MAJOR : Fld := ⟨.KMP_SESS_STS, 16, 8, .RO⟩
def KEEPALIVE : Fld := ⟨.KMP_SESS_STS, 0, 16, .RO⟩
end F.KMP_SESS_STS
namespace F.KMP_SESS_EVT
def UNACKED : Fld := ⟨.KMP_SESS_EVT, 24, 8, .RO⟩
def QUEUED : Fld := ⟨.KMP_SESS_EVT, 0, 9, .RO⟩
end F.KMP_SESS_EVT
namespace F.IMG_STS
def STATE : Fld := ⟨.IMG_STS, 29, 3, .RO⟩
def SLOT : Fld := ⟨.IMG_STS, 28, 1, .RO⟩
def UNSIGNED : Fld := ⟨.IMG_STS, 27, 1, .RO⟩
def FALLBACK : Fld := ⟨.IMG_STS, 26, 1, .RO⟩
def LEVEL : Fld := ⟨.IMG_STS, 16, 8, .RO⟩
def WAVES : Fld := ⟨.IMG_STS, 4, 4, .RO⟩
def CAUSE : Fld := ⟨.IMG_STS, 0, 4, .RO⟩
end F.IMG_STS
namespace F.IMG_SEQ_LO
def SEQ : Fld := ⟨.IMG_SEQ_LO, 0, 32, .RO⟩
end F.IMG_SEQ_LO
namespace F.IMG_SEQ_HI
def SEQ : Fld := ⟨.IMG_SEQ_HI, 0, 32, .RO⟩
end F.IMG_SEQ_HI
namespace F.IMG_CORR
def PAGES : Fld := ⟨.IMG_CORR, 16, 16, .RO⟩
def WORDS : Fld := ⟨.IMG_CORR, 0, 16, .RO⟩
end F.IMG_CORR
namespace F.IMG_SLOT_STS
def TRIED : Fld := ⟨.IMG_SLOT_STS, 31, 1, .RO⟩
def PASSED : Fld := ⟨.IMG_SLOT_STS, 30, 1, .RO⟩
def DECODED : Fld := ⟨.IMG_SLOT_STS, 16, 12, .RO⟩
def CAUSE : Fld := ⟨.IMG_SLOT_STS, 0, 4, .RO⟩
end F.IMG_SLOT_STS
namespace F.IMG_ENTRY_CNT
def INDEX : Fld := ⟨.IMG_ENTRY_CNT, 16, 16, .RO⟩
def COUNT : Fld := ⟨.IMG_ENTRY_CNT, 0, 16, .RO⟩
end F.IMG_ENTRY_CNT
namespace F.IMG_ENTRY_FIRST
def TYPE : Fld := ⟨.IMG_ENTRY_FIRST, 16, 16, .RO⟩
def RESULT : Fld := ⟨.IMG_ENTRY_FIRST, 0, 8, .RO⟩
end F.IMG_ENTRY_FIRST
namespace F.IMG_RB
def ADVANCED : Fld := ⟨.IMG_RB, 23, 1, .RO⟩
def IMAGE : Fld := ⟨.IMG_RB, 16, 7, .RO⟩
def FUSED : Fld := ⟨.IMG_RB, 0, 7, .RO⟩
end F.IMG_RB
namespace F.FLT_REC_STS
def OPEN : Fld := ⟨.FLT_REC_STS, 31, 1, .RO⟩
def CLASS : Fld := ⟨.FLT_REC_STS, 29, 2, .RO⟩
def REFUSED : Fld := ⟨.FLT_REC_STS, 28, 1, .W1C⟩
def LIVE_ANY : Fld := ⟨.FLT_REC_STS, 27, 1, .RO⟩
def MERGED : Fld := ⟨.FLT_REC_STS, 16, 8, .RO⟩
end F.FLT_REC_STS
namespace F.FLT_REC_SRC
def SRC : Fld := ⟨.FLT_REC_SRC, 0, 32, .RO⟩
end F.FLT_REC_SRC
namespace F.FLT_REC_LIVE
def LIVE : Fld := ⟨.FLT_REC_LIVE, 0, 32, .RO⟩
end F.FLT_REC_LIVE
namespace F.FLT_REC_TIME_LO
def NS : Fld := ⟨.FLT_REC_TIME_LO, 0, 32, .RO⟩
end F.FLT_REC_TIME_LO
namespace F.FLT_REC_TIME_HI
def NS : Fld := ⟨.FLT_REC_TIME_HI, 0, 32, .RO⟩
end F.FLT_REC_TIME_HI
namespace F.FLT_REC_CTRL
def CLEAR : Fld := ⟨.FLT_REC_CTRL, 31, 1, .WO⟩
end F.FLT_REC_CTRL
namespace F.FLT_CFG
def FAIL_TEST : Fld := ⟨.FLT_CFG, 31, 1, .WO⟩
def EVT_C : Fld := ⟨.FLT_CFG, 30, 1, .RW⟩
def THERM_WARN : Fld := ⟨.FLT_CFG, 0, 8, .RW⟩
end F.FLT_CFG
namespace F.FLT_SAFE_STS
def SAFE : Fld := ⟨.FLT_SAFE_STS, 31, 1, .RO⟩
def FAIL_T : Fld := ⟨.FLT_SAFE_STS, 29, 1, .RO⟩
def FAIL_C : Fld := ⟨.FLT_SAFE_STS, 28, 1, .RO⟩
def FIRST : Fld := ⟨.FLT_SAFE_STS, 16, 8, .RO⟩
def ENTRIES : Fld := ⟨.FLT_SAFE_STS, 0, 16, .RO⟩
end F.FLT_SAFE_STS
namespace F.FLT_SAFE_SLOT
def OFF : Fld := ⟨.FLT_SAFE_SLOT, 0, 32, .RW⟩
end F.FLT_SAFE_SLOT
namespace F.FLT_SLOT_SRC
def SLOT : Fld := ⟨.FLT_SLOT_SRC, 0, 32, .RO⟩
end F.FLT_SLOT_SRC
namespace F.FLT_LOG_PTR
def WRAPPED : Fld := ⟨.FLT_LOG_PTR, 31, 1, .RO⟩
def NEXT : Fld := ⟨.FLT_LOG_PTR, 0, 6, .RO⟩
end F.FLT_LOG_PTR
namespace F.FLT_LOG
def CLASS : Fld := ⟨.FLT_LOG, 30, 2, .RO⟩
def MERGED : Fld := ⟨.FLT_LOG, 16, 8, .RO⟩
def COLLECTOR : Fld := ⟨.FLT_LOG, 0, 8, .RO⟩
def SRC : Fld := ⟨.FLT_LOG, 0, 32, .RO⟩
def NS : Fld := ⟨.FLT_LOG, 0, 32, .RO⟩
end F.FLT_LOG
namespace F.ECC_CL_ERR
def CLEAR : Fld := ⟨.ECC_CL_ERR, 31, 1, .WO⟩
def UNCORR : Fld := ⟨.ECC_CL_ERR, 16, 15, .RO⟩
def CORR : Fld := ⟨.ECC_CL_ERR, 0, 16, .RO⟩
end F.ECC_CL_ERR
namespace F.ECC_CL_ADDR
def VALID : Fld := ⟨.ECC_CL_ADDR, 31, 1, .RO⟩
def INDEX : Fld := ⟨.ECC_CL_ADDR, 0, 20, .RO⟩
end F.ECC_CL_ADDR
namespace F.ECC_SCRUB_CTRL
def START : Fld := ⟨.ECC_SCRUB_CTRL, 31, 1, .WO⟩
def PACE : Fld := ⟨.ECC_SCRUB_CTRL, 24, 3, .RW⟩
def FIRST : Fld := ⟨.ECC_SCRUB_CTRL, 0, 20, .RW⟩
end F.ECC_SCRUB_CTRL
namespace F.ECC_SCRUB_END
def LAST : Fld := ⟨.ECC_SCRUB_END, 0, 20, .RW⟩
end F.ECC_SCRUB_END
namespace F.ECC_SCRUB_RES
def DONE : Fld := ⟨.ECC_SCRUB_RES, 31, 1, .RO⟩
def BUSY : Fld := ⟨.ECC_SCRUB_RES, 30, 1, .RO⟩
def REFUSED : Fld := ⟨.ECC_SCRUB_RES, 29, 1, .W1C⟩
def ABORTED : Fld := ⟨.ECC_SCRUB_RES, 28, 1, .RO⟩
end F.ECC_SCRUB_RES
namespace F.ECC_SCRUB_CNT
def UNCORR : Fld := ⟨.ECC_SCRUB_CNT, 16, 16, .RO⟩
def CORR : Fld := ⟨.ECC_SCRUB_CNT, 0, 16, .RO⟩
end F.ECC_SCRUB_CNT
namespace F.ECC_SCRUB_FIRST
def VALID : Fld := ⟨.ECC_SCRUB_FIRST, 31, 1, .RO⟩
def INDEX : Fld := ⟨.ECC_SCRUB_FIRST, 0, 20, .RO⟩
end F.ECC_SCRUB_FIRST
namespace F.ECC_SCRUB_LAST
def VALID : Fld := ⟨.ECC_SCRUB_LAST, 31, 1, .RO⟩
def INDEX : Fld := ⟨.ECC_SCRUB_LAST, 0, 20, .RO⟩
end F.ECC_SCRUB_LAST
namespace F.ECC_SCRUB_TIME
def NS : Fld := ⟨.ECC_SCRUB_TIME, 0, 32, .RO⟩
end F.ECC_SCRUB_TIME
namespace F.ECC_REPAIR
def ROWS : Fld := ⟨.ECC_REPAIR, 24, 8, .RO⟩
def COLS : Fld := ⟨.ECC_REPAIR, 16, 8, .RO⟩
def SOFT : Fld := ⟨.ECC_REPAIR, 8, 8, .RO⟩
end F.ECC_REPAIR
namespace F.ECC_MP_WAIT
def NS : Fld := ⟨.ECC_MP_WAIT, 0, 32, .RO⟩
end F.ECC_MP_WAIT
namespace F.ECC_MP_STS
def CLEAR : Fld := ⟨.ECC_MP_STS, 31, 1, .WO⟩
def OWNER : Fld := ⟨.ECC_MP_STS, 28, 3, .RO⟩
def RESTARTS : Fld := ⟨.ECC_MP_STS, 0, 16, .RO⟩
end F.ECC_MP_STS
namespace F.ECC_CHK_STS
def FAILED : Fld := ⟨.ECC_CHK_STS, 0, 6, .RO⟩
end F.ECC_CHK_STS
namespace F.ECC_DMA_STS
def HALT_B : Fld := ⟨.ECC_DMA_STS, 1, 1, .W1C⟩
def HALT_A : Fld := ⟨.ECC_DMA_STS, 0, 1, .W1C⟩
end F.ECC_DMA_STS
namespace F.PWR_CMD
def GO : Fld := ⟨.PWR_CMD, 31, 1, .WO⟩
def ACTION : Fld := ⟨.PWR_CMD, 28, 3, .RW⟩
def OP : Fld := ⟨.PWR_CMD, 0, 2, .RW⟩
end F.PWR_CMD
namespace F.PWR_CMD_MASK
def DOM : Fld := ⟨.PWR_CMD_MASK, 0, 32, .RW⟩
end F.PWR_CMD_MASK
namespace F.PWR_ENTRY_CFG
def LIMIT : Fld := ⟨.PWR_ENTRY_CFG, 0, 14, .RW⟩
end F.PWR_ENTRY_CFG
namespace F.PWR_ENTRY_STS
def BUSY : Fld := ⟨.PWR_ENTRY_STS, 31, 1, .RO⟩
def DONE : Fld := ⟨.PWR_ENTRY_STS, 30, 1, .W1C⟩
def DOMAIN : Fld := ⟨.PWR_ENTRY_STS, 16, 8, .RO⟩
def CAUSE : Fld := ⟨.PWR_ENTRY_STS, 8, 8, .RO⟩
def RESULT : Fld := ⟨.PWR_ENTRY_STS, 0, 8, .RO⟩
end F.PWR_ENTRY_STS
namespace F.PWR_DOM_STS
def ON : Fld := ⟨.PWR_DOM_STS, 0, 32, .RO⟩
end F.PWR_DOM_STS
namespace F.PWR_OP_STS
def BUSY : Fld := ⟨.PWR_OP_STS, 31, 1, .RO⟩
def AVS_TIMEOUT : Fld := ⟨.PWR_OP_STS, 30, 1, .W1C⟩
def CUR : Fld := ⟨.PWR_OP_STS, 26, 2, .RO⟩
def TARGET : Fld := ⟨.PWR_OP_STS, 24, 2, .RO⟩
def SETPOINT_MV : Fld := ⟨.PWR_OP_STS, 0, 16, .RO⟩
end F.PWR_OP_STS
namespace F.PWR_AVS_CFG
def SETTLE_TO : Fld := ⟨.PWR_AVS_CFG, 0, 10, .RW⟩
end F.PWR_AVS_CFG
namespace F.PWR_DROOP_CFG
def REFUSED : Fld := ⟨.PWR_DROOP_CFG, 31, 1, .W1C⟩
def SLOW : Fld := ⟨.PWR_DROOP_CFG, 24, 1, .RW⟩
def RST : Fld := ⟨.PWR_DROOP_CFG, 16, 8, .RW⟩
def REL : Fld := ⟨.PWR_DROOP_CFG, 8, 8, .RW⟩
def WARN : Fld := ⟨.PWR_DROOP_CFG, 0, 8, .RW⟩
end F.PWR_DROOP_CFG
namespace F.PWR_DROOP_STS
def SLOWED : Fld := ⟨.PWR_DROOP_STS, 31, 1, .RO⟩
def CLEAR : Fld := ⟨.PWR_DROOP_STS, 30, 1, .WO⟩
def MIN_DEPTH : Fld := ⟨.PWR_DROOP_STS, 16, 8, .RO⟩
def EVENTS : Fld := ⟨.PWR_DROOP_STS, 0, 16, .RO⟩
end F.PWR_DROOP_STS
namespace F.PWR_DROOP_NS
def NS : Fld := ⟨.PWR_DROOP_NS, 0, 32, .RO⟩
end F.PWR_DROOP_NS
namespace F.PWR_TEMP
def VALID : Fld := ⟨.PWR_TEMP, 31, 1, .RO⟩
def TEMP : Fld := ⟨.PWR_TEMP, 0, 16, .RO⟩
end F.PWR_TEMP
namespace F.PWR_CLK_STS
def XTAL : Fld := ⟨.PWR_CLK_STS, 3, 1, .RO⟩
def ECLK : Fld := ⟨.PWR_CLK_STS, 2, 1, .RO⟩
def PCLK1 : Fld := ⟨.PWR_CLK_STS, 1, 1, .RO⟩
def PCLK0 : Fld := ⟨.PWR_CLK_STS, 0, 1, .RO⟩
end F.PWR_CLK_STS
namespace F.PWR_RESET_CAUSE
def AO_BROWNOUT : Fld := ⟨.PWR_RESET_CAUSE, 2, 1, .W1C⟩
def WARM : Fld := ⟨.PWR_RESET_CAUSE, 1, 1, .RO⟩
def PWRON : Fld := ⟨.PWR_RESET_CAUSE, 0, 1, .RO⟩
end F.PWR_RESET_CAUSE
namespace F.TMB_CFG
def SRC : Fld := ⟨.TMB_CFG, 1, 1, .RWS⟩
def ALARM_ARM : Fld := ⟨.TMB_CFG, 0, 1, .RW⟩
end F.TMB_CFG
namespace F.TMB_STS
def ALARM : Fld := ⟨.TMB_STS, 31, 1, .W1C⟩
def WOKE : Fld := ⟨.TMB_STS, 30, 1, .W1C⟩
def XTAL_FAIL : Fld := ⟨.TMB_STS, 29, 1, .W1C⟩
def SRC_LOST : Fld := ⟨.TMB_STS, 28, 1, .RO⟩
end F.TMB_STS
namespace F.TMB_NOW_FRAC
def NS : Fld := ⟨.TMB_NOW_FRAC, 0, 32, .RO⟩
end F.TMB_NOW_FRAC
namespace F.TMB_NOW_LO
def NS : Fld := ⟨.TMB_NOW_LO, 0, 32, .RO⟩
end F.TMB_NOW_LO
namespace F.TMB_NOW_HI
def NS : Fld := ⟨.TMB_NOW_HI, 0, 32, .RO⟩
end F.TMB_NOW_HI
namespace F.TMB_ALARM_LO
def NS : Fld := ⟨.TMB_ALARM_LO, 0, 32, .RW⟩
end F.TMB_ALARM_LO
namespace F.TMB_ALARM_HI
def NS : Fld := ⟨.TMB_ALARM_HI, 0, 32, .RW⟩
end F.TMB_ALARM_HI
namespace F.SLT_CTRL
def CLEAR : Fld := ⟨.SLT_CTRL, 31, 1, .WO⟩
def ECLR : Fld := ⟨.SLT_CTRL, 30, 1, .WO⟩
def FEED_B_OFF : Fld := ⟨.SLT_CTRL, 9, 1, .RWS⟩
def FEED_A_OFF : Fld := ⟨.SLT_CTRL, 8, 1, .RWS⟩
def RETRY_MAX : Fld := ⟨.SLT_CTRL, 4, 3, .RWS⟩
def EN : Fld := ⟨.SLT_CTRL, 0, 1, .RWS⟩
end F.SLT_CTRL
namespace F.SLT_CFG
def TMODE : Fld := ⟨.SLT_CFG, 10, 2, .RWS⟩
def NDEV : Fld := ⟨.SLT_CFG, 8, 2, .RWS⟩
def CLASS : Fld := ⟨.SLT_CFG, 0, 1, .RWS⟩
end F.SLT_CFG
namespace F.SLT_SHUNT
def RSH : Fld := ⟨.SLT_SHUNT, 0, 16, .RWS⟩
end F.SLT_SHUNT
namespace F.SLT_LIMIT
def FTIMER : Fld := ⟨.SLT_LIMIT, 16, 16, .RWS⟩
def ILIM : Fld := ⟨.SLT_LIMIT, 0, 16, .RWS⟩
end F.SLT_LIMIT
namespace F.SLT_VWIN
def OV : Fld := ⟨.SLT_VWIN, 16, 16, .RWS⟩
def UV : Fld := ⟨.SLT_VWIN, 0, 16, .RWS⟩
end F.SLT_VWIN
namespace F.SLT_TIMING
def SLEW : Fld := ⟨.SLT_TIMING, 24, 8, .RWS⟩
def RAMP_TO : Fld := ⟨.SLT_TIMING, 16, 8, .RWS⟩
def INS_DELAY : Fld := ⟨.SLT_TIMING, 0, 16, .RWS⟩
end F.SLT_TIMING
namespace F.SLT_THRESH
def TREF : Fld := ⟨.SLT_THRESH, 24, 8, .RWS⟩
def TJ_MAX : Fld := ⟨.SLT_THRESH, 16, 8, .RWS⟩
def PG_MIN : Fld := ⟨.SLT_THRESH, 0, 16, .RWS⟩
end F.SLT_THRESH
namespace F.SLT_TM_POLE
def TAU : Fld := ⟨.SLT_TM_POLE, 16, 16, .RWS⟩
def RTH : Fld := ⟨.SLT_TM_POLE, 0, 16, .RWS⟩
end F.SLT_TM_POLE
namespace F.SLT_STS
def STATE : Fld := ⟨.SLT_STS, 28, 4, .RO⟩
def CAUSE : Fld := ⟨.SLT_STS, 24, 4, .RO⟩
def PG : Fld := ⟨.SLT_STS, 23, 1, .RO⟩
def CLA : Fld := ⟨.SLT_STS, 22, 1, .RO⟩
def PRESENT : Fld := ⟨.SLT_STS, 21, 1, .RO⟩
def FEED_A_ON : Fld := ⟨.SLT_STS, 20, 1, .RO⟩
def FEED_B_ON : Fld := ⟨.SLT_STS, 19, 1, .RO⟩
def FEED_A_OK : Fld := ⟨.SLT_STS, 18, 1, .RO⟩
def FEED_B_OK : Fld := ⟨.SLT_STS, 17, 1, .RO⟩
def CFG_REFUSED : Fld := ⟨.SLT_STS, 16, 1, .W1C⟩
def CLEAR_REFUSED : Fld := ⟨.SLT_STS, 15, 1, .W1C⟩
def PG_WITHHELD : Fld := ⟨.SLT_STS, 14, 1, .W1C⟩
def RETRIES : Fld := ⟨.SLT_STS, 11, 3, .RO⟩
end F.SLT_STS
namespace F.SLT_EVT
def TRIPS : Fld := ⟨.SLT_EVT, 16, 16, .W1C⟩
def LIMITS : Fld := ⟨.SLT_EVT, 0, 16, .W1C⟩
end F.SLT_EVT
namespace F.SLT_MEAS_I
def MA : Fld := ⟨.SLT_MEAS_I, 0, 32, .RO⟩
end F.SLT_MEAS_I
namespace F.SLT_MEAS_V
def VOUT : Fld := ⟨.SLT_MEAS_V, 16, 16, .RO⟩
def VIN : Fld := ⟨.SLT_MEAS_V, 0, 16, .RO⟩
end F.SLT_MEAS_V
namespace F.SLT_MEAS_VF
def VFB : Fld := ⟨.SLT_MEAS_VF, 16, 16, .RO⟩
def VFA : Fld := ⟨.SLT_MEAS_VF, 0, 16, .RO⟩
end F.SLT_MEAS_VF
namespace F.SLT_MEAS_P
def MW : Fld := ⟨.SLT_MEAS_P, 0, 32, .RO⟩
end F.SLT_MEAS_P
namespace F.SLT_MEAS_TEMP
def VALID : Fld := ⟨.SLT_MEAS_TEMP, 31, 1, .RO⟩
def MODELLED : Fld := ⟨.SLT_MEAS_TEMP, 30, 1, .RO⟩
def TEMP : Fld := ⟨.SLT_MEAS_TEMP, 0, 16, .RO⟩
end F.SLT_MEAS_TEMP
namespace F.SLT_ENERGY_LO
def UJ : Fld := ⟨.SLT_ENERGY_LO, 0, 32, .RO⟩
end F.SLT_ENERGY_LO
namespace F.SLT_ENERGY_HI
def UJ : Fld := ⟨.SLT_ENERGY_HI, 0, 32, .RO⟩
end F.SLT_ENERGY_HI
namespace F.CNT_VAL_LO
def VAL : Fld := ⟨.CNT_VAL_LO, 0, 32, .RO⟩
end F.CNT_VAL_LO
namespace F.CNT_VAL_HI
def VAL : Fld := ⟨.CNT_VAL_HI, 0, 16, .RO⟩
end F.CNT_VAL_HI
namespace F.CNT_OVF
def WRAP : Fld := ⟨.CNT_OVF, 0, 32, .W1C⟩
end F.CNT_OVF
namespace F.CNT_SAMP_CFG
def EN : Fld := ⟨.CNT_SAMP_CFG, 31, 1, .RW⟩
def COUNTER : Fld := ⟨.CNT_SAMP_CFG, 0, 12, .RW⟩
end F.CNT_SAMP_CFG
namespace F.CNT_SAMP_PERIOD
def PERIOD : Fld := ⟨.CNT_SAMP_PERIOD, 0, 32, .RW⟩
end F.CNT_SAMP_PERIOD
namespace F.CNT_SAMP_STS
def FIRED : Fld := ⟨.CNT_SAMP_STS, 31, 1, .W1C⟩
def MISSED : Fld := ⟨.CNT_SAMP_STS, 0, 16, .RO⟩
end F.CNT_SAMP_STS
namespace F.CNT_SAMP_PC
def PC : Fld := ⟨.CNT_SAMP_PC, 0, 32, .RO⟩
end F.CNT_SAMP_PC
namespace F.CNT_HIST_CTRL
def COMMIT : Fld := ⟨.CNT_HIST_CTRL, 31, 1, .WO⟩
def FREEZE : Fld := ⟨.CNT_HIST_CTRL, 30, 1, .RW⟩
def REFUSED : Fld := ⟨.CNT_HIST_CTRL, 29, 1, .W1C⟩
def SET : Fld := ⟨.CNT_HIST_CTRL, 24, 2, .RW⟩
def MISSED : Fld := ⟨.CNT_HIST_CTRL, 0, 16, .RO⟩
end F.CNT_HIST_CTRL
namespace F.CNT_HIST_SEL
def SET : Fld := ⟨.CNT_HIST_SEL, 0, 32, .RW⟩
end F.CNT_HIST_SEL
namespace F.CNT_EDGE
def TICKS : Fld := ⟨.CNT_EDGE, 0, 32, .RW⟩
end F.CNT_EDGE
namespace F.CNT_HIST_LO
def VAL : Fld := ⟨.CNT_HIST_LO, 0, 32, .RO⟩
end F.CNT_HIST_LO
namespace F.CNT_HIST_HI
def WRAP : Fld := ⟨.CNT_HIST_HI, 31, 1, .W1C⟩
def VAL : Fld := ⟨.CNT_HIST_HI, 0, 16, .RO⟩
end F.CNT_HIST_HI
namespace F.BST_STS
def BUSY : Fld := ⟨.BST_STS, 31, 1, .RO⟩
def TEST : Fld := ⟨.BST_STS, 28, 3, .RO⟩
def RESULT : Fld := ⟨.BST_STS, 16, 8, .RO⟩
end F.BST_STS
namespace F.BST_START_STS
def CHK_FAIL : Fld := ⟨.BST_START_STS, 16, 9, .RO⟩
def MEM_FAIL : Fld := ⟨.BST_START_STS, 0, 9, .RO⟩
end F.BST_START_STS
namespace F.BST_DUR
def US : Fld := ⟨.BST_DUR, 0, 32, .RO⟩
end F.BST_DUR
namespace F.BST_FAIL
def UNITS : Fld := ⟨.BST_FAIL, 0, 32, .RO⟩
end F.BST_FAIL
namespace F.BST_SKIPPED
def SECTIONS : Fld := ⟨.BST_SKIPPED, 0, 16, .RO⟩
end F.BST_SKIPPED
namespace F.BST_LBIST_SIG_LO
def SIG : Fld := ⟨.BST_LBIST_SIG_LO, 0, 32, .RO⟩
end F.BST_LBIST_SIG_LO
namespace F.BST_LBIST_SIG_HI
def SIG : Fld := ⟨.BST_LBIST_SIG_HI, 0, 32, .RO⟩
end F.BST_LBIST_SIG_HI
namespace F.BST_CELL_FAIL
def CELLS : Fld := ⟨.BST_CELL_FAIL, 0, 32, .RO⟩
end F.BST_CELL_FAIL
namespace F.LCS_STATE
def DEBUG_OPEN : Fld := ⟨.LCS_STATE, 31, 1, .RO⟩
def KEY_FUSED : Fld := ⟨.LCS_STATE, 30, 1, .RO⟩
def KEY_REVOKED : Fld := ⟨.LCS_STATE, 29, 1, .RO⟩
def PROGRAMMING : Fld := ⟨.LCS_STATE, 28, 1, .RO⟩
def LAST_RESULT : Fld := ⟨.LCS_STATE, 8, 8, .RO⟩
def STATE : Fld := ⟨.LCS_STATE, 0, 3, .RO⟩
end F.LCS_STATE
namespace F.LCS_CHIP_ID_LO
def ID : Fld := ⟨.LCS_CHIP_ID_LO, 0, 32, .RO⟩
end F.LCS_CHIP_ID_LO
namespace F.LCS_CHIP_ID_HI
def ID : Fld := ⟨.LCS_CHIP_ID_HI, 0, 32, .RO⟩
end F.LCS_CHIP_ID_HI
namespace F.CHP_ID
def STEP_LETTER : Fld := ⟨.CHP_ID, 28, 4, .RO⟩
def STEP_DIGIT : Fld := ⟨.CHP_ID, 24, 4, .RO⟩
def PART : Fld := ⟨.CHP_ID, 8, 16, .RO⟩
def MAX_LEVEL : Fld := ⟨.CHP_ID, 0, 8, .RO⟩
end F.CHP_ID
namespace F.CHP_STATUS
def LOCKED_WRITE : Fld := ⟨.CHP_STATUS, 31, 1, .W1C⟩
def UNMAPPED : Fld := ⟨.CHP_STATUS, 30, 1, .W1C⟩
def DOMAIN_OFF : Fld := ⟨.CHP_STATUS, 29, 1, .W1C⟩
def NARROW_WRITE : Fld := ⟨.CHP_STATUS, 28, 1, .W1C⟩
end F.CHP_STATUS
namespace F.CHP_ERR_INFO
def VALID : Fld := ⟨.CHP_ERR_INFO, 31, 1, .W1C⟩
def KIND : Fld := ⟨.CHP_ERR_INFO, 28, 2, .RO⟩
def INITIATOR : Fld := ⟨.CHP_ERR_INFO, 16, 8, .RO⟩
def WRITE : Fld := ⟨.CHP_ERR_INFO, 0, 1, .RO⟩
end F.CHP_ERR_INFO
namespace F.CHP_ERR_ADDR_LO
def ADDR_LO : Fld := ⟨.CHP_ERR_ADDR_LO, 0, 32, .RO⟩
end F.CHP_ERR_ADDR_LO
namespace F.CHP_ERR_ADDR_HI
def ADDR_HI : Fld := ⟨.CHP_ERR_ADDR_HI, 0, 8, .RO⟩
end F.CHP_ERR_ADDR_HI
namespace F.CHP_RGN_ID
def Y : Fld := ⟨.CHP_RGN_ID, 6, 2, .RO⟩
def X : Fld := ⟨.CHP_RGN_ID, 4, 2, .RO⟩
def REGION : Fld := ⟨.CHP_RGN_ID, 0, 3, .RO⟩
end F.CHP_RGN_ID

/-- The fields of a register, in the order of its field table. Bits outside them are reserved (R5). -/
def RName.fields : RName → List Fld
  | .CEL_PORT_CFG => [F.CEL_PORT_CFG.SLOT_GATED, F.CEL_PORT_CFG.LOPT_EN, F.CEL_PORT_CFG.FLIT256_EN, F.CEL_PORT_CFG.CACHE_EN, F.CEL_PORT_CFG.CXL_EN, F.CEL_PORT_CFG.MAX_RATE, F.CEL_PORT_CFG.WIDTH, F.CEL_PORT_CFG.ROLE]
  | .CEL_PORT_STS => [F.CEL_PORT_STS.CFG_ERROR, F.CEL_PORT_STS.CFG_REFUSED, F.CEL_PORT_STS.GROVE_ELIGIBLE, F.CEL_PORT_STS.PARTNER_RATE, F.CEL_PORT_STS.PARTNER_VER, F.CEL_PORT_STS.LOPT, F.CEL_PORT_STS.FLIT256, F.CEL_PORT_STS.MEM_BI, F.CEL_PORT_STS.CACHE_ACTIVE, F.CEL_PORT_STS.CXL_ACTIVE, F.CEL_PORT_STS.NEG_WIDTH, F.CEL_PORT_STS.NEG_RATE]
  | .CEL_LINK_CFG => [F.CEL_LINK_CFG.EQ_BYPASS_EN, F.CEL_LINK_CFG.LOOP_ALLOW, F.CEL_LINK_CFG.LOOP_MODE, F.CEL_LINK_CFG.TEST_EN, F.CEL_LINK_CFG.CDR_BW, F.CEL_LINK_CFG.SRIS, F.CEL_LINK_CFG.REFSEL]
  | .CEL_LINK_STS => [F.CEL_LINK_STS.TEST_REFUSED, F.CEL_LINK_STS.RATE_DOWN, F.CEL_LINK_STS.REVERSED, F.CEL_LINK_STS.EQ_PHASE, F.CEL_LINK_STS.QUALITY_RETRAINS, F.CEL_LINK_STS.LTSSM, F.CEL_LINK_STS.EQ_DONE]
  | .LNK_LANE_STS => [F.LNK_LANE_STS.LOGICAL_LANE, F.LNK_LANE_STS.FEC_UNCORR, F.LNK_LANE_STS.SYNC_ERR, F.LNK_LANE_STS.DEC_ERR, F.LNK_LANE_STS.DISP_ERR, F.LNK_LANE_STS.POL_INV, F.LNK_LANE_STS.ALIGNED, F.LNK_LANE_STS.CDR_LOCK, F.LNK_LANE_STS.SIG_DET, F.LNK_LANE_STS.ACTIVE]
  | .LNK_EQ => [F.LNK_EQ.TX_POST, F.LNK_EQ.TX_PRE, F.LNK_EQ.CTLE, F.LNK_EQ.TX_PRE2, F.LNK_EQ.ADAPT_FREEZE, F.LNK_EQ.PRESET, F.LNK_EQ.PRESET_FORCE]
  | .LNK_PRBS => [F.LNK_PRBS.CLEAR, F.LNK_PRBS.LOCK, F.LNK_PRBS.INVERT, F.LNK_PRBS.PATTERN, F.LNK_PRBS.CHK_EN, F.LNK_PRBS.GEN_EN]
  | .LNK_PRBS_ERR => [F.LNK_PRBS_ERR.ERRORS]
  | .LNK_PRBS_BITS => [F.LNK_PRBS_BITS.BITS]
  | .LNK_MARGIN => [F.LNK_MARGIN.START, F.LNK_MARGIN.EYE, F.LNK_MARGIN.DWELL, F.LNK_MARGIN.T_OFFSET, F.LNK_MARGIN.V_OFFSET]
  | .LNK_MARGIN_RES => [F.LNK_MARGIN_RES.DONE, F.LNK_MARGIN_RES.ABORTED, F.LNK_MARGIN_RES.REFUSED, F.LNK_MARGIN_RES.BUSY, F.LNK_MARGIN_RES.ERRORS]
  | .BUF_CFG => [F.BUF_CFG.OVERSHOOT, F.BUF_CFG.RES_RSV]
  | .BUF_ALPHA0 => [F.BUF_ALPHA0.SC7, F.BUF_ALPHA0.SC6, F.BUF_ALPHA0.SC5, F.BUF_ALPHA0.SC4, F.BUF_ALPHA0.SC3, F.BUF_ALPHA0.SC2, F.BUF_ALPHA0.SC1, F.BUF_ALPHA0.SC0]
  | .BUF_ALPHA1 => [F.BUF_ALPHA1.RES_ALPHA, F.BUF_ALPHA1.SC11, F.BUF_ALPHA1.SC10, F.BUF_ALPHA1.SC9, F.BUF_ALPHA1.SC8]
  | .BUF_POOL => [F.BUF_POOL.SHARED, F.BUF_POOL.FREE]
  | .BUF_POOL_MIN => [F.BUF_POOL_MIN.CLEAR, F.BUF_POOL_MIN.LOWEST]
  | .BUF_RSV => [F.BUF_RSV.TOTAL]
  | .BUF_MC_STS => [F.BUF_MC_STS.COPIES, F.BUF_MC_STS.HELD]
  | .BUF_FLUSH => [F.BUF_FLUSH.COUNT, F.BUF_FLUSH.BUSY, F.BUF_FLUSH.PORT]
  | .BUF_ICRED => [F.BUF_ICRED.HELD, F.BUF_ICRED.INIT]
  | .BUF_EQ => [F.BUF_EQ.PEAK_CLR, F.BUF_EQ.PEAK, F.BUF_EQ.CLOSED, F.BUF_EQ.HELD]
  | .QOS_CLASS => [F.QOS_CLASS.CACHE_REQ, F.QOS_CLASS.MEM_RWD, F.QOS_CLASS.MEM_REQ, F.QOS_CLASS.IO_NP, F.QOS_CLASS.IO_P]
  | .QOS_HUB => [F.QOS_HUB.MOVER, F.QOS_HUB.MGMT]
  | .QOS_WEIGHT0 => [F.QOS_WEIGHT0.SC7, F.QOS_WEIGHT0.SC6, F.QOS_WEIGHT0.SC5, F.QOS_WEIGHT0.SC4]
  | .QOS_WEIGHT1 => [F.QOS_WEIGHT1.SC11, F.QOS_WEIGHT1.SC10, F.QOS_WEIGHT1.SC9, F.QOS_WEIGHT1.SC8]
  | .QOS_CON_CFG => [F.QOS_CON_CFG.EN, F.QOS_CON_CFG.READ_CHARGE, F.QOS_CON_CFG.OVH, F.QOS_CON_CFG.DEPTH]
  | .QOS_CON_MIN => [F.QOS_CON_MIN.RATE]
  | .QOS_CON_CAP => [F.QOS_CON_CAP.RATE]
  | .QOS_CON_STS => [F.QOS_CON_STS.HOLD, F.QOS_CON_STS.COMMITTED, F.QOS_CON_STS.MIN_SHORT, F.QOS_CON_STS.WAITING]
  | .QOS_EGR_STS => [F.QOS_EGR_STS.PROMOTED, F.QOS_EGR_STS.PRESSED]
  | .QOS_EPOL_CFG => [F.QOS_EPOL_CFG.DEPTH, F.QOS_EPOL_CFG.RATE]
  | .QOS_EPOL_DROP => [F.QOS_EPOL_DROP.FRAMES]
  | .QOS_EPOL_DROP_KB => [F.QOS_EPOL_DROP_KB.KIB]
  | .VCS_RST_CFG => [F.VCS_RST_CFG.DRAIN_TO]
  | .VCS_QUAR_CFG => [F.VCS_QUAR_CFG.IMG_REBIND, F.VCS_QUAR_CFG.REQUIRE_LOOP, F.VCS_QUAR_CFG.LOOP_MS, F.VCS_QUAR_CFG.DOWN_LIMIT]
  | .VCS_MBX_CFG => [F.VCS_MBX_CFG.RELAY_TO]
  | .VCS_POOL => [F.VCS_POOL.ALLOC, F.VCS_POOL.BOUND]
  | .VCS_PORT_ADM => [F.VCS_PORT_ADM.STATE, F.VCS_PORT_ADM.LOOP_RESULT, F.VCS_PORT_ADM.OOS_CAUSE, F.VCS_PORT_ADM.QUAR_DISCARDS]
  | .VCS_INST_CFG => [F.VCS_INST_CFG.EN, F.VCS_INST_CFG.VPPB_COUNT, F.VCS_INST_CFG.USP]
  | .VCS_INST_STS => [F.VCS_INST_STS.CFG_ERROR, F.VCS_INST_STS.CFG_REFUSED, F.VCS_INST_STS.RESET_BUSY, F.VCS_INST_STS.ATTACHED, F.VCS_INST_STS.BOUND]
  | .VCS_MBX_STS => [F.VCS_MBX_STS.RELAY_PENDING, F.VCS_MBX_STS.NO_MANAGER, F.VCS_MBX_STS.TIMED_OUT, F.VCS_MBX_STS.LAST_OPCODE]
  | .VCS_VPPB_BIND => [F.VCS_VPPB_BIND.TYPE, F.VCS_VPPB_BIND.IMG, F.VCS_VPPB_BIND.PBR_ID, F.VCS_VPPB_BIND.LD_ID, F.VCS_VPPB_BIND.PORT]
  | .VCS_VPPB_STS => [F.VCS_VPPB_STS.STATE, F.VCS_VPPB_STS.LINK_ACTIVE, F.VCS_VPPB_STS.PRESENT, F.VCS_VPPB_STS.DRAIN_TIMEOUT, F.VCS_VPPB_STS.GRAFT_ABORTED, F.VCS_VPPB_STS.SQUASHED]
  | .DEC_STG_CTRL => [F.DEC_STG_CTRL.COMMIT, F.DEC_STG_CTRL.INST, F.DEC_STG_CTRL.WIN]
  | .DEC_STG_STS => [F.DEC_STG_STS.BUSY, F.DEC_STG_STS.DONE, F.DEC_STG_STS.RESULT]
  | .DEC_STG_BASE => [F.DEC_STG_BASE.BASE]
  | .DEC_STG_SIZE => [F.DEC_STG_SIZE.SIZE]
  | .DEC_STG_CFG => [F.DEC_STG_CFG.EN, F.DEC_STG_CFG.KIND, F.DEC_STG_CFG.IW, F.DEC_STG_CFG.IG, F.DEC_STG_CFG.GROVE, F.DEC_STG_CFG.GWIN, F.DEC_STG_CFG.HR, F.DEC_STG_CFG.HW, F.DEC_STG_CFG.DR, F.DEC_STG_CFG.DW]
  | .DEC_STG_TGT_A => [F.DEC_STG_TGT_A.TYPE, F.DEC_STG_TGT_A.PBR_ID, F.DEC_STG_TGT_A.LD_ID, F.DEC_STG_TGT_A.PORT]
  | .DEC_STG_TGT_B => [F.DEC_STG_TGT_B.DPA_BASE]
  | .DEC_WIN_EPOCH => [F.DEC_WIN_EPOCH.EPOCH]
  | .DEC_WIN_BASE => [F.DEC_WIN_BASE.BASE]
  | .DEC_WIN_SIZE => [F.DEC_WIN_SIZE.SIZE]
  | .DEC_WIN_CFG => [F.DEC_WIN_CFG.EN, F.DEC_WIN_CFG.KIND, F.DEC_WIN_CFG.IW, F.DEC_WIN_CFG.IG, F.DEC_WIN_CFG.GROVE, F.DEC_WIN_CFG.GWIN, F.DEC_WIN_CFG.HR, F.DEC_WIN_CFG.HW, F.DEC_WIN_CFG.DR, F.DEC_WIN_CFG.DW]
  | .DEC_WIN_TGT_A => [F.DEC_WIN_TGT_A.TYPE, F.DEC_WIN_TGT_A.PBR_ID, F.DEC_WIN_TGT_A.LD_ID, F.DEC_WIN_TGT_A.PORT]
  | .DEC_WIN_TGT_B => [F.DEC_WIN_TGT_B.DPA_BASE]
  | .ACC_CFG => [F.ACC_CFG.COMMIT_TO]
  | .ACC_EPOCH_CUR => [F.ACC_EPOCH_CUR.EPOCH]
  | .ACC_EPOCH_CMT => [F.ACC_EPOCH_CMT.EPOCH]
  | .ACC_STS => [F.ACC_STS.STALLED, F.ACC_STS.EPOCH_WAIT, F.ACC_STS.LIVE]
  | .ACC_DENY_CNT => [F.ACC_DENY_CNT.COUNT]
  | .ACC_DENY_INFO => [F.ACC_DENY_INFO.INITIATOR, F.ACC_DENY_INFO.INST, F.ACC_DENY_INFO.REASON, F.ACC_DENY_INFO.KIND]
  | .ACC_DENY_ADDR_LO => [F.ACC_DENY_ADDR_LO.HPA_LO]
  | .ACC_DENY_ADDR_HI => [F.ACC_DENY_ADDR_HI.HPA_HI]
  | .MPU_CFG => [F.MPU_CFG.LOCK, F.MPU_CFG.MACHINE_DEFAULT, F.MPU_CFG.EN]
  | .MPU_STS => [F.MPU_STS.REFUSED, F.MPU_STS.FAULT, F.MPU_STS.ENTRY]
  | .MPU_FAULT_ADDR_LO => [F.MPU_FAULT_ADDR_LO.ADDR_LO]
  | .MPU_FAULT_ADDR_HI => [F.MPU_FAULT_ADDR_HI.ADDR_HI]
  | .MPU_FAULT_INFO => [F.MPU_FAULT_INFO.INITIATOR, F.MPU_FAULT_INFO.LEVEL, F.MPU_FAULT_INFO.ACCESS]
  | .MPU_BASE => [F.MPU_BASE.BASE]
  | .MPU_ATTR => [F.MPU_ATTR.LOCK, F.MPU_ATTR.EN, F.MPU_ATTR.SIZE, F.MPU_ATTR.SRD, F.MPU_ATTR.AGENT, F.MPU_ATTR.USER, F.MPU_ATTR.SUPERVISOR, F.MPU_ATTR.MACHINE]
  | .GRV_CFG => [F.GRV_CFG.BIRSP_TO]
  | .GRV_SLICE_STS => [F.GRV_SLICE_STS.WAITING, F.GRV_SLICE_STS.LOCKS]
  | .GRV_SLICE_PEAK => [F.GRV_SLICE_PEAK.CLEAR, F.GRV_SLICE_PEAK.LOCKS_PEAK]
  | .GRV_STS => [F.GRV_STS.STATE, F.GRV_STS.DISSOLVING, F.GRV_STS.REMOVING, F.GRV_STS.TARGETS_UP, F.GRV_STS.WINDOWS, F.GRV_STS.MEMBERS, F.GRV_STS.JOINED]
  | .GRV_MEMBER_LO => [F.GRV_MEMBER_LO.INST]
  | .GRV_MEMBER_HI => [F.GRV_MEMBER_HI.INST]
  | .GRV_JOINED_LO => [F.GRV_JOINED_LO.INST]
  | .GRV_JOINED_HI => [F.GRV_JOINED_HI.INST]
  | .GRV_WIN_CFG => [F.GRV_WIN_CFG.EN, F.GRV_WIN_CFG.IW, F.GRV_WIN_CFG.IG]
  | .GRV_WIN_GA => [F.GRV_WIN_GA.GA_BASE]
  | .GRV_WIN_SIZE => [F.GRV_WIN_SIZE.SIZE]
  | .GRV_WIN_TGT_A => [F.GRV_WIN_TGT_A.TYPE, F.GRV_WIN_TGT_A.LD_ID, F.GRV_WIN_TGT_A.PORT]
  | .GRV_WIN_TGT_B => [F.GRV_WIN_TGT_B.DPA_BASE]
  | .SNF_STS => [F.SNF_STS.VALID]
  | .SNF_EVICT => [F.SNF_EVICT.COUNT]
  | .SNF_PROBE_ADDR_LO => [F.SNF_PROBE_ADDR_LO.GA_LO]
  | .SNF_PROBE_ADDR_HI => [F.SNF_PROBE_ADDR_HI.START, F.SNF_PROBE_ADDR_HI.GA_HI]
  | .SNF_PROBE_RES => [F.SNF_PROBE_RES.DONE, F.SNF_PROBE_RES.HIT, F.SNF_PROBE_RES.STATE, F.SNF_PROBE_RES.PINNED, F.SNF_PROBE_RES.AGENT, F.SNF_PROBE_RES.NOT_HOME, F.SNF_PROBE_RES.SET, F.SNF_PROBE_RES.WAY]
  | .SNF_PROBE_PV_LO => [F.SNF_PROBE_PV_LO.PV]
  | .SNF_PROBE_PV_HI => [F.SNF_PROBE_PV_HI.PV]
  | .GRV_SET_WAIT => [F.GRV_SET_WAIT.COUNT]
  | .GRV_STRAY => [F.GRV_STRAY.COUNT]
  | .GRV_CONFLICT => [F.GRV_CONFLICT.COUNT]
  | .GRV_SNOOP_TRACK => [F.GRV_SNOOP_TRACK.FULL_SEEN, F.GRV_SNOOP_TRACK.IN_USE]
  | .GRV_FELL => [F.GRV_FELL.CAUSE, F.GRV_FELL.WRITES_OPEN, F.GRV_FELL.REGION, F.GRV_FELL.INST, F.GRV_FELL.MERGED, F.GRV_FELL.PORT]
  | .GRV_FELL_TIME_LO => [F.GRV_FELL_TIME_LO.NS]
  | .GRV_FELL_TIME_HI => [F.GRV_FELL_TIME_HI.NS]
  | .SNF_RETIRE => [F.SNF_RETIRE.FULL, F.SNF_RETIRE.COUNT]
  | .SNF_ERR => [F.SNF_ERR.CLEAR, F.SNF_ERR.UNCORR, F.SNF_ERR.CORR]
  | .ERT_STS => [F.ERT_STS.ACTIVE, F.ERT_STS.VALID]
  | .ERT_PROBE_SRC => [F.ERT_PROBE_SRC.START, F.ERT_PROBE_SRC.TYPE, F.ERT_PROBE_SRC.LD_ID, F.ERT_PROBE_SRC.PORT]
  | .ERT_PROBE_DPA => [F.ERT_PROBE_DPA.EXTENT]
  | .ERT_PROBE_RES => [F.ERT_PROBE_RES.DONE, F.ERT_PROBE_RES.HIT, F.ERT_PROBE_RES.STATE, F.ERT_PROBE_RES.NOT_HOME, F.ERT_PROBE_RES.CHANNEL, F.ERT_PROBE_RES.TYPE, F.ERT_PROBE_RES.LD_ID, F.ERT_PROBE_RES.PORT]
  | .ERT_PROBE_TDPA => [F.ERT_PROBE_TDPA.EXTENT]
  | .MOV_CFG => [F.MOV_CFG.XFER_TO, F.MOV_CFG.FLIP_TO]
  | .MOV_CH_CFG => [F.MOV_CH_CFG.DEPTH, F.MOV_CH_CFG.RATE]
  | .MOV_CH_STS => [F.MOV_CH_STS.STATE, F.MOV_CH_STS.HALTED, F.MOV_CH_STS.CAUSE, F.MOV_CH_STS.CHUNKS]
  | .MOV_CH_SRC => [F.MOV_CH_SRC.TYPE, F.MOV_CH_SRC.LD_ID, F.MOV_CH_SRC.PORT]
  | .MOV_CH_TGT => [F.MOV_CH_TGT.TYPE, F.MOV_CH_TGT.LD_ID, F.MOV_CH_TGT.PORT]
  | .MOV_CH_SRC_DPA => [F.MOV_CH_SRC_DPA.EXTENT]
  | .MOV_CH_TGT_DPA => [F.MOV_CH_TGT_DPA.EXTENT]
  | .MOV_CH_HELD => [F.MOV_CH_HELD.COUNT]
  | .MOV_CH_EPOCH => [F.MOV_CH_EPOCH.EPOCH]
  | .NOC_BND_STS => [F.NOC_BND_STS.STATE, F.NOC_BND_STS.WAKE_PENDING, F.NOC_BND_STS.HELD]
  | .NOC_BND_WAKES => [F.NOC_BND_WAKES.COUNT]
  | .NOC_ERR => [F.NOC_ERR.CLEAR, F.NOC_ERR.UNCORR, F.NOC_ERR.CORR]
  | .NOC_ROUTE => [F.NOC_ROUTE.OUT]
  | .NOC_ROUTE_CTRL => [F.NOC_ROUTE_CTRL.FLIP, F.NOC_ROUTE_CTRL.DRAINED, F.NOC_ROUTE_CTRL.EPOCH, F.NOC_ROUTE_CTRL.REFUSED, F.NOC_ROUTE_CTRL.ACTIVE_WRITE, F.NOC_ROUTE_CTRL.RESULT, F.NOC_ROUTE_CTRL.SRC_NODE, F.NOC_ROUTE_CTRL.DEST_NODE, F.NOC_ROUTE_CTRL.NET]
  | .NOC_VC_CFG => [F.NOC_VC_CFG.BULK_SHARE]
  | .NOC_STAT_CTRL => [F.NOC_STAT_CTRL.SNAP, F.NOC_STAT_CTRL.CLEAR, F.NOC_STAT_CTRL.SNAP_VALID]
  | .NOC_STAT_TXN => [F.NOC_STAT_TXN.COUNT]
  | .NOC_STAT_RD => [F.NOC_STAT_RD.UNITS]
  | .NOC_STAT_WR => [F.NOC_STAT_WR.UNITS]
  | .NOC_STAT_LAT_SUM => [F.NOC_STAT_LAT_SUM.NS]
  | .NOC_STAT_LAT_MAX => [F.NOC_STAT_LAT_MAX.TICKS]
  | .ETH_PORT_CFG => [F.ETH_PORT_CFG.VLAN, F.ETH_PORT_CFG.JUMBO, F.ETH_PORT_CFG.MACSEC_REQ, F.ETH_PORT_CFG.EN, F.ETH_PORT_CFG.ADV, F.ETH_PORT_CFG.MODE]
  | .ETH_PORT_STS => [F.ETH_PORT_STS.LINK_UP, F.ETH_PORT_STS.PHY, F.ETH_PORT_STS.FEC, F.ETH_PORT_STS.SECURED, F.ETH_PORT_STS.MACSEC_REQUIRED, F.ETH_PORT_STS.LINK_DOWNS]
  | .ETH_MACSEC_DROP => [F.ETH_MACSEC_DROP.FRAMES]
  | .ETH_UNSEC_DROP => [F.ETH_UNSEC_DROP.FRAMES]
  | .KMP_CFG => [F.KMP_CFG.IPV4_EN, F.KMP_CFG.IPV6_EN, F.KMP_CFG.UDP_PORT]
  | .KMP_TIMING => [F.KMP_TIMING.GAP_MS, F.KMP_TIMING.EVT_RETRY, F.KMP_TIMING.EVT_TRIES]
  | .KMP_SESS_STS => [F.KMP_SESS_STS.UP, F.KMP_SESS_STS.PORT, F.KMP_SESS_STS.RELAY, F.KMP_SESS_STS.IPV6, F.KMP_SESS_STS.MAJOR, F.KMP_SESS_STS.KEEPALIVE]
  | .KMP_SESS_EVT => [F.KMP_SESS_EVT.UNACKED, F.KMP_SESS_EVT.QUEUED]
  | .IMG_STS => [F.IMG_STS.STATE, F.IMG_STS.SLOT, F.IMG_STS.UNSIGNED, F.IMG_STS.FALLBACK, F.IMG_STS.LEVEL, F.IMG_STS.WAVES, F.IMG_STS.CAUSE]
  | .IMG_SEQ_LO => [F.IMG_SEQ_LO.SEQ]
  | .IMG_SEQ_HI => [F.IMG_SEQ_HI.SEQ]
  | .IMG_CORR => [F.IMG_CORR.PAGES, F.IMG_CORR.WORDS]
  | .IMG_SLOT_STS => [F.IMG_SLOT_STS.TRIED, F.IMG_SLOT_STS.PASSED, F.IMG_SLOT_STS.DECODED, F.IMG_SLOT_STS.CAUSE]
  | .IMG_ENTRY_CNT => [F.IMG_ENTRY_CNT.INDEX, F.IMG_ENTRY_CNT.COUNT]
  | .IMG_ENTRY_FIRST => [F.IMG_ENTRY_FIRST.TYPE, F.IMG_ENTRY_FIRST.RESULT]
  | .IMG_RB => [F.IMG_RB.ADVANCED, F.IMG_RB.IMAGE, F.IMG_RB.FUSED]
  | .FLT_REC_STS => [F.FLT_REC_STS.OPEN, F.FLT_REC_STS.CLASS, F.FLT_REC_STS.REFUSED, F.FLT_REC_STS.LIVE_ANY, F.FLT_REC_STS.MERGED]
  | .FLT_REC_SRC => [F.FLT_REC_SRC.SRC]
  | .FLT_REC_LIVE => [F.FLT_REC_LIVE.LIVE]
  | .FLT_REC_TIME_LO => [F.FLT_REC_TIME_LO.NS]
  | .FLT_REC_TIME_HI => [F.FLT_REC_TIME_HI.NS]
  | .FLT_REC_CTRL => [F.FLT_REC_CTRL.CLEAR]
  | .FLT_CFG => [F.FLT_CFG.FAIL_TEST, F.FLT_CFG.EVT_C, F.FLT_CFG.THERM_WARN]
  | .FLT_SAFE_STS => [F.FLT_SAFE_STS.SAFE, F.FLT_SAFE_STS.FAIL_T, F.FLT_SAFE_STS.FAIL_C, F.FLT_SAFE_STS.FIRST, F.FLT_SAFE_STS.ENTRIES]
  | .FLT_SAFE_SLOT => [F.FLT_SAFE_SLOT.OFF]
  | .FLT_SLOT_SRC => [F.FLT_SLOT_SRC.SLOT]
  | .FLT_LOG_PTR => [F.FLT_LOG_PTR.WRAPPED, F.FLT_LOG_PTR.NEXT]
  | .FLT_LOG => [F.FLT_LOG.CLASS, F.FLT_LOG.MERGED, F.FLT_LOG.COLLECTOR, F.FLT_LOG.SRC, F.FLT_LOG.NS]
  | .ECC_CL_ERR => [F.ECC_CL_ERR.CLEAR, F.ECC_CL_ERR.UNCORR, F.ECC_CL_ERR.CORR]
  | .ECC_CL_ADDR => [F.ECC_CL_ADDR.VALID, F.ECC_CL_ADDR.INDEX]
  | .ECC_SCRUB_CTRL => [F.ECC_SCRUB_CTRL.START, F.ECC_SCRUB_CTRL.PACE, F.ECC_SCRUB_CTRL.FIRST]
  | .ECC_SCRUB_END => [F.ECC_SCRUB_END.LAST]
  | .ECC_SCRUB_RES => [F.ECC_SCRUB_RES.DONE, F.ECC_SCRUB_RES.BUSY, F.ECC_SCRUB_RES.REFUSED, F.ECC_SCRUB_RES.ABORTED]
  | .ECC_SCRUB_CNT => [F.ECC_SCRUB_CNT.UNCORR, F.ECC_SCRUB_CNT.CORR]
  | .ECC_SCRUB_FIRST => [F.ECC_SCRUB_FIRST.VALID, F.ECC_SCRUB_FIRST.INDEX]
  | .ECC_SCRUB_LAST => [F.ECC_SCRUB_LAST.VALID, F.ECC_SCRUB_LAST.INDEX]
  | .ECC_SCRUB_TIME => [F.ECC_SCRUB_TIME.NS]
  | .ECC_REPAIR => [F.ECC_REPAIR.ROWS, F.ECC_REPAIR.COLS, F.ECC_REPAIR.SOFT]
  | .ECC_MP_WAIT => [F.ECC_MP_WAIT.NS]
  | .ECC_MP_STS => [F.ECC_MP_STS.CLEAR, F.ECC_MP_STS.OWNER, F.ECC_MP_STS.RESTARTS]
  | .ECC_CHK_STS => [F.ECC_CHK_STS.FAILED]
  | .ECC_DMA_STS => [F.ECC_DMA_STS.HALT_B, F.ECC_DMA_STS.HALT_A]
  | .PWR_CMD => [F.PWR_CMD.GO, F.PWR_CMD.ACTION, F.PWR_CMD.OP]
  | .PWR_CMD_MASK => [F.PWR_CMD_MASK.DOM]
  | .PWR_ENTRY_CFG => [F.PWR_ENTRY_CFG.LIMIT]
  | .PWR_ENTRY_STS => [F.PWR_ENTRY_STS.BUSY, F.PWR_ENTRY_STS.DONE, F.PWR_ENTRY_STS.DOMAIN, F.PWR_ENTRY_STS.CAUSE, F.PWR_ENTRY_STS.RESULT]
  | .PWR_DOM_STS => [F.PWR_DOM_STS.ON]
  | .PWR_OP_STS => [F.PWR_OP_STS.BUSY, F.PWR_OP_STS.AVS_TIMEOUT, F.PWR_OP_STS.CUR, F.PWR_OP_STS.TARGET, F.PWR_OP_STS.SETPOINT_MV]
  | .PWR_AVS_CFG => [F.PWR_AVS_CFG.SETTLE_TO]
  | .PWR_DROOP_CFG => [F.PWR_DROOP_CFG.REFUSED, F.PWR_DROOP_CFG.SLOW, F.PWR_DROOP_CFG.RST, F.PWR_DROOP_CFG.REL, F.PWR_DROOP_CFG.WARN]
  | .PWR_DROOP_STS => [F.PWR_DROOP_STS.SLOWED, F.PWR_DROOP_STS.CLEAR, F.PWR_DROOP_STS.MIN_DEPTH, F.PWR_DROOP_STS.EVENTS]
  | .PWR_DROOP_NS => [F.PWR_DROOP_NS.NS]
  | .PWR_TEMP => [F.PWR_TEMP.VALID, F.PWR_TEMP.TEMP]
  | .PWR_CLK_STS => [F.PWR_CLK_STS.XTAL, F.PWR_CLK_STS.ECLK, F.PWR_CLK_STS.PCLK1, F.PWR_CLK_STS.PCLK0]
  | .PWR_RESET_CAUSE => [F.PWR_RESET_CAUSE.AO_BROWNOUT, F.PWR_RESET_CAUSE.WARM, F.PWR_RESET_CAUSE.PWRON]
  | .TMB_CFG => [F.TMB_CFG.SRC, F.TMB_CFG.ALARM_ARM]
  | .TMB_STS => [F.TMB_STS.ALARM, F.TMB_STS.WOKE, F.TMB_STS.XTAL_FAIL, F.TMB_STS.SRC_LOST]
  | .TMB_NOW_FRAC => [F.TMB_NOW_FRAC.NS]
  | .TMB_NOW_LO => [F.TMB_NOW_LO.NS]
  | .TMB_NOW_HI => [F.TMB_NOW_HI.NS]
  | .TMB_ALARM_LO => [F.TMB_ALARM_LO.NS]
  | .TMB_ALARM_HI => [F.TMB_ALARM_HI.NS]
  | .SLT_CTRL => [F.SLT_CTRL.CLEAR, F.SLT_CTRL.ECLR, F.SLT_CTRL.FEED_B_OFF, F.SLT_CTRL.FEED_A_OFF, F.SLT_CTRL.RETRY_MAX, F.SLT_CTRL.EN]
  | .SLT_CFG => [F.SLT_CFG.TMODE, F.SLT_CFG.NDEV, F.SLT_CFG.CLASS]
  | .SLT_SHUNT => [F.SLT_SHUNT.RSH]
  | .SLT_LIMIT => [F.SLT_LIMIT.FTIMER, F.SLT_LIMIT.ILIM]
  | .SLT_VWIN => [F.SLT_VWIN.OV, F.SLT_VWIN.UV]
  | .SLT_TIMING => [F.SLT_TIMING.SLEW, F.SLT_TIMING.RAMP_TO, F.SLT_TIMING.INS_DELAY]
  | .SLT_THRESH => [F.SLT_THRESH.TREF, F.SLT_THRESH.TJ_MAX, F.SLT_THRESH.PG_MIN]
  | .SLT_TM_POLE => [F.SLT_TM_POLE.TAU, F.SLT_TM_POLE.RTH]
  | .SLT_STS => [F.SLT_STS.STATE, F.SLT_STS.CAUSE, F.SLT_STS.PG, F.SLT_STS.CLA, F.SLT_STS.PRESENT, F.SLT_STS.FEED_A_ON, F.SLT_STS.FEED_B_ON, F.SLT_STS.FEED_A_OK, F.SLT_STS.FEED_B_OK, F.SLT_STS.CFG_REFUSED, F.SLT_STS.CLEAR_REFUSED, F.SLT_STS.PG_WITHHELD, F.SLT_STS.RETRIES]
  | .SLT_EVT => [F.SLT_EVT.TRIPS, F.SLT_EVT.LIMITS]
  | .SLT_MEAS_I => [F.SLT_MEAS_I.MA]
  | .SLT_MEAS_V => [F.SLT_MEAS_V.VOUT, F.SLT_MEAS_V.VIN]
  | .SLT_MEAS_VF => [F.SLT_MEAS_VF.VFB, F.SLT_MEAS_VF.VFA]
  | .SLT_MEAS_P => [F.SLT_MEAS_P.MW]
  | .SLT_MEAS_TEMP => [F.SLT_MEAS_TEMP.VALID, F.SLT_MEAS_TEMP.MODELLED, F.SLT_MEAS_TEMP.TEMP]
  | .SLT_ENERGY_LO => [F.SLT_ENERGY_LO.UJ]
  | .SLT_ENERGY_HI => [F.SLT_ENERGY_HI.UJ]
  | .CNT_VAL_LO => [F.CNT_VAL_LO.VAL]
  | .CNT_VAL_HI => [F.CNT_VAL_HI.VAL]
  | .CNT_OVF => [F.CNT_OVF.WRAP]
  | .CNT_SAMP_CFG => [F.CNT_SAMP_CFG.EN, F.CNT_SAMP_CFG.COUNTER]
  | .CNT_SAMP_PERIOD => [F.CNT_SAMP_PERIOD.PERIOD]
  | .CNT_SAMP_STS => [F.CNT_SAMP_STS.FIRED, F.CNT_SAMP_STS.MISSED]
  | .CNT_SAMP_PC => [F.CNT_SAMP_PC.PC]
  | .CNT_HIST_CTRL => [F.CNT_HIST_CTRL.COMMIT, F.CNT_HIST_CTRL.FREEZE, F.CNT_HIST_CTRL.REFUSED, F.CNT_HIST_CTRL.SET, F.CNT_HIST_CTRL.MISSED]
  | .CNT_HIST_SEL => [F.CNT_HIST_SEL.SET]
  | .CNT_EDGE => [F.CNT_EDGE.TICKS]
  | .CNT_HIST_LO => [F.CNT_HIST_LO.VAL]
  | .CNT_HIST_HI => [F.CNT_HIST_HI.WRAP, F.CNT_HIST_HI.VAL]
  | .BST_STS => [F.BST_STS.BUSY, F.BST_STS.TEST, F.BST_STS.RESULT]
  | .BST_START_STS => [F.BST_START_STS.CHK_FAIL, F.BST_START_STS.MEM_FAIL]
  | .BST_DUR => [F.BST_DUR.US]
  | .BST_FAIL => [F.BST_FAIL.UNITS]
  | .BST_SKIPPED => [F.BST_SKIPPED.SECTIONS]
  | .BST_LBIST_SIG_LO => [F.BST_LBIST_SIG_LO.SIG]
  | .BST_LBIST_SIG_HI => [F.BST_LBIST_SIG_HI.SIG]
  | .BST_CELL_FAIL => [F.BST_CELL_FAIL.CELLS]
  | .LCS_STATE => [F.LCS_STATE.DEBUG_OPEN, F.LCS_STATE.KEY_FUSED, F.LCS_STATE.KEY_REVOKED, F.LCS_STATE.PROGRAMMING, F.LCS_STATE.LAST_RESULT, F.LCS_STATE.STATE]
  | .LCS_CHIP_ID_LO => [F.LCS_CHIP_ID_LO.ID]
  | .LCS_CHIP_ID_HI => [F.LCS_CHIP_ID_HI.ID]
  | .CHP_ID => [F.CHP_ID.STEP_LETTER, F.CHP_ID.STEP_DIGIT, F.CHP_ID.PART, F.CHP_ID.MAX_LEVEL]
  | .CHP_STATUS => [F.CHP_STATUS.LOCKED_WRITE, F.CHP_STATUS.UNMAPPED, F.CHP_STATUS.DOMAIN_OFF, F.CHP_STATUS.NARROW_WRITE]
  | .CHP_ERR_INFO => [F.CHP_ERR_INFO.VALID, F.CHP_ERR_INFO.KIND, F.CHP_ERR_INFO.INITIATOR, F.CHP_ERR_INFO.WRITE]
  | .CHP_ERR_ADDR_LO => [F.CHP_ERR_ADDR_LO.ADDR_LO]
  | .CHP_ERR_ADDR_HI => [F.CHP_ERR_ADDR_HI.ADDR_HI]
  | .CHP_RGN_ID => [F.CHP_RGN_ID.Y, F.CHP_RGN_ID.X, F.CHP_RGN_ID.REGION]

/-- Reset values of the route tables (Table 20.12, R387), by node. -/
def routeReset : Nat → Nat
  | 0 => 0x02912490 | 1 => 0x04262481 | 2 => 0x0124C809 | 3 => 0x0124C0C9 | 4 => 0x012486C9
  | 5 => 0x03242499 | 6 => 0x02612493 | 7 => 0x02112493 | 8 => 0x00262499 | _ => 0

/-- Reset values of the policers (Table 5.5). -/
def policerReset : Nat → Nat
  | 0 => 0x1000000A | 1 => 0x1000000A | 2 => 0x10000064 | 3 => 0x1001FFFF
  | 4 => 0x10004E20 | 5 => 0x1000000A | 6 => 0x10000001 | 7 => 0x1000000A | _ => 0

/-- Reset values of the histogram edges (R363). -/
def edgeReset (j : Nat) : Nat :=
  if j ≤ 15 then 160 * (j + 1) else 2560 * 2 ^ (j - 15)

/-- Mesh position of a node as Table 1.1 gives it, column and row. -/
def meshPos : Nat → Nat × Nat
  | 0 => (0, 0) | 1 => (1, 0) | 2 => (2, 0) | 3 => (2, 1) | 4 => (2, 2)
  | 5 => (1, 2) | 6 => (0, 2) | 7 => (0, 1) | _ => (1, 1)

/-- Reset value of a register (R3), as its heading gives it. Where a heading says from fuses or set by the cause, the
value of blank fuses and of a reset by PWRON_N. -/
def RName.resetNat (n : RName) (i j : Nat) : Nat :=
  match n with
  | .QOS_EPOL_CFG => policerReset j
  | .NOC_ROUTE => routeReset i
  | .CNT_EDGE => edgeReset j
  | .PWR_DOM_STS => if i ≤ 4 then 0xFFFFFFFF else if i = 5 then 0x003FFFFF else 0
  | .PWR_RESET_CAUSE => 1
  | .LCS_STATE => 0x80000000
  | .CHP_RGN_ID => (meshPos i).2 * 64 + (meshPos i).1 * 16 + i
  | .BUF_CFG => 0x00400100
  | .BUF_ALPHA0 => 0x33335567
  | .BUF_ALPHA1 => 0x00043333
  | .BUF_POOL => 0x3E003E00
  | .BUF_POOL_MIN => 0x00003E00
  | .BUF_RSV => 0x00000200
  | .QOS_CLASS => 0x00044444
  | .QOS_HUB => 0x00000082
  | .QOS_WEIGHT0 => 0x10101010
  | .QOS_WEIGHT1 => 0x10101010
  | .QOS_CON_CFG => 0x400C0008
  | .QOS_CON_CAP => 0x000FFFFF
  | .VCS_RST_CFG => 0x00000064
  | .VCS_QUAR_CFG => 0x800A03E8
  | .VCS_MBX_CFG => 0x000007D0
  | .ACC_CFG => 0x00000064
  | .MPU_CFG => 0x00000003
  | .GRV_CFG => 0x00000014
  | .MOV_CFG => 0x03E803E8
  | .MOV_CH_CFG => 0x00000820
  | .NOC_ROUTE_CTRL => 0x40000000
  | .NOC_VC_CFG => 0x00000004
  | .ETH_PORT_CFG => 0x00003F00
  | .KMP_CFG => 0xC000C555
  | .KMP_TIMING => 0x64148000
  | .FLT_CFG => 0x00000082
  | .FLT_SAFE_STS => 0x10000000
  | .ECC_SCRUB_CTRL => 0x02000000
  | .ECC_SCRUB_END => 0x000FFFFF
  | .ECC_MP_STS => 0x70000000
  | .PWR_ENTRY_CFG => 0x00000064
  | .PWR_OP_STS => 0x000002EE
  | .PWR_AVS_CFG => 0x00000064
  | .PWR_DROOP_CFG => 0x0018060A
  | .SLT_CTRL => 0x00000030
  | .SLT_CFG => 0x00000100
  | .SLT_SHUNT => 0x000001F4
  | .SLT_LIMIT => 0x01F403E8
  | .SLT_VWIN => 0x35E827D8
  | .SLT_TIMING => 0x0C320064
  | .SLT_THRESH => 0x55962710
  | .CNT_SAMP_PERIOD => 0x00000001
  | .CHP_ID => 0x00051201
  | _ => 0

/-- Reset value of a register as a word. -/
def Reg.reset (r : Reg) : W := BitVec.ofNat 32 (r.name.resetNat r.i r.j)

/-- Where the registers lie within their blocks (Tables 20.5 to 20.11). -/
def RName.place : RName → Place
  | .CEL_PORT_CFG => ⟨.cell, 0x100, 1, 0x0, 1, 0x0, 1⟩
  | .CEL_PORT_STS => ⟨.cell, 0x104, 1, 0x0, 1, 0x0, 1⟩
  | .CEL_LINK_CFG => ⟨.cell, 0x110, 1, 0x0, 1, 0x0, 1⟩
  | .CEL_LINK_STS => ⟨.cell, 0x114, 1, 0x0, 1, 0x0, 1⟩
  | .LNK_LANE_STS => ⟨.cell, 0x200, 1, 0x0, 1, 0x20, 4⟩
  | .LNK_EQ => ⟨.cell, 0x204, 1, 0x0, 1, 0x20, 4⟩
  | .LNK_PRBS => ⟨.cell, 0x208, 1, 0x0, 1, 0x20, 4⟩
  | .LNK_PRBS_ERR => ⟨.cell, 0x20C, 1, 0x0, 1, 0x20, 4⟩
  | .LNK_PRBS_BITS => ⟨.cell, 0x210, 1, 0x0, 1, 0x20, 4⟩
  | .LNK_MARGIN => ⟨.cell, 0x214, 1, 0x0, 1, 0x20, 4⟩
  | .LNK_MARGIN_RES => ⟨.cell, 0x218, 1, 0x0, 1, 0x20, 4⟩
  | .BUF_CFG => ⟨.buf, 0x0, 1, 0x0, 1, 0x0, 1⟩
  | .BUF_ALPHA0 => ⟨.buf, 0x4, 1, 0x0, 1, 0x0, 1⟩
  | .BUF_ALPHA1 => ⟨.buf, 0x8, 1, 0x0, 1, 0x0, 1⟩
  | .BUF_POOL => ⟨.buf, 0x10, 1, 0x0, 1, 0x0, 1⟩
  | .BUF_POOL_MIN => ⟨.buf, 0x14, 1, 0x0, 1, 0x0, 1⟩
  | .BUF_RSV => ⟨.buf, 0x18, 1, 0x0, 1, 0x0, 1⟩
  | .BUF_MC_STS => ⟨.buf, 0x30, 1, 0x0, 1, 0x0, 1⟩
  | .BUF_FLUSH => ⟨.buf, 0x40, 1, 0x0, 1, 0x0, 1⟩
  | .BUF_ICRED => ⟨.buf, 0x100, 16, 0x40, 16, 0x4, 12⟩
  | .BUF_EQ => ⟨.buf, 0x500, 16, 0x30, 16, 0x4, 12⟩
  | .QOS_CLASS => ⟨.buf, 0x800, 16, 0x4, 16, 0x0, 1⟩
  | .QOS_HUB => ⟨.buf, 0x840, 1, 0x0, 1, 0x0, 1⟩
  | .QOS_WEIGHT0 => ⟨.buf, 0x900, 16, 0x8, 16, 0x0, 1⟩
  | .QOS_WEIGHT1 => ⟨.buf, 0x904, 16, 0x8, 16, 0x0, 1⟩
  | .QOS_CON_CFG => ⟨.buf, 0xA00, 16, 0x20, 16, 0x0, 1⟩
  | .QOS_CON_MIN => ⟨.buf, 0xA04, 16, 0x20, 16, 0x0, 1⟩
  | .QOS_CON_CAP => ⟨.buf, 0xA08, 16, 0x20, 16, 0x0, 1⟩
  | .QOS_CON_STS => ⟨.buf, 0xA0C, 16, 0x20, 16, 0x0, 1⟩
  | .QOS_EGR_STS => ⟨.buf, 0xC00, 16, 0x4, 16, 0x0, 1⟩
  | .QOS_EPOL_CFG => ⟨.eth, 0x8000, 1, 0x1000, 2, 0x10, 8⟩
  | .QOS_EPOL_DROP => ⟨.eth, 0x8004, 1, 0x1000, 2, 0x10, 8⟩
  | .QOS_EPOL_DROP_KB => ⟨.eth, 0x8008, 1, 0x1000, 2, 0x10, 8⟩
  | .VCS_RST_CFG => ⟨.vcs, 0x0, 1, 0x0, 1, 0x0, 1⟩
  | .VCS_QUAR_CFG => ⟨.vcs, 0x4, 1, 0x0, 1, 0x0, 1⟩
  | .VCS_MBX_CFG => ⟨.vcs, 0x8, 1, 0x0, 1, 0x0, 1⟩
  | .VCS_POOL => ⟨.vcs, 0x10, 1, 0x0, 1, 0x0, 1⟩
  | .VCS_PORT_ADM => ⟨.vcs, 0x100, 1, 0x4, 128, 0x0, 1⟩
  | .VCS_INST_CFG => ⟨.vcs, 0x1000, 1, 0x1000, 64, 0x0, 1⟩
  | .VCS_INST_STS => ⟨.vcs, 0x1004, 1, 0x1000, 64, 0x0, 1⟩
  | .VCS_MBX_STS => ⟨.vcs, 0x1008, 1, 0x1000, 64, 0x0, 1⟩
  | .VCS_VPPB_BIND => ⟨.vcs, 0x1100, 1, 0x1000, 64, 0x10, 64⟩
  | .VCS_VPPB_STS => ⟨.vcs, 0x1104, 1, 0x1000, 64, 0x10, 64⟩
  | .DEC_STG_CTRL => ⟨.dec, 0x0, 1, 0x0, 1, 0x0, 1⟩
  | .DEC_STG_STS => ⟨.dec, 0x4, 1, 0x0, 1, 0x0, 1⟩
  | .DEC_STG_BASE => ⟨.dec, 0x10, 1, 0x0, 1, 0x0, 1⟩
  | .DEC_STG_SIZE => ⟨.dec, 0x14, 1, 0x0, 1, 0x0, 1⟩
  | .DEC_STG_CFG => ⟨.dec, 0x18, 1, 0x0, 1, 0x0, 1⟩
  | .DEC_STG_TGT_A => ⟨.dec, 0x80, 1, 0x0, 1, 0x8, 16⟩
  | .DEC_STG_TGT_B => ⟨.dec, 0x84, 1, 0x0, 1, 0x8, 16⟩
  | .DEC_WIN_EPOCH => ⟨.dec, 0x10000, 0, 0x100, 2048, 0x0, 1⟩
  | .DEC_WIN_BASE => ⟨.dec, 0x10010, 0, 0x100, 2048, 0x0, 1⟩
  | .DEC_WIN_SIZE => ⟨.dec, 0x10014, 0, 0x100, 2048, 0x0, 1⟩
  | .DEC_WIN_CFG => ⟨.dec, 0x10018, 0, 0x100, 2048, 0x0, 1⟩
  | .DEC_WIN_TGT_A => ⟨.dec, 0x10080, 0, 0x100, 2048, 0x8, 16⟩
  | .DEC_WIN_TGT_B => ⟨.dec, 0x10084, 0, 0x100, 2048, 0x8, 16⟩
  | .ACC_CFG => ⟨.dec, 0x800, 0, 0x0, 1, 0x0, 1⟩
  | .ACC_EPOCH_CUR => ⟨.dec, 0x804, 0, 0x0, 1, 0x0, 1⟩
  | .ACC_EPOCH_CMT => ⟨.dec, 0x808, 0, 0x0, 1, 0x0, 1⟩
  | .ACC_STS => ⟨.dec, 0x80C, 1, 0x0, 1, 0x0, 1⟩
  | .ACC_DENY_CNT => ⟨.dec, 0x810, 1, 0x0, 1, 0x0, 1⟩
  | .ACC_DENY_INFO => ⟨.dec, 0x814, 1, 0x0, 1, 0x0, 1⟩
  | .ACC_DENY_ADDR_LO => ⟨.dec, 0x818, 1, 0x0, 1, 0x0, 1⟩
  | .ACC_DENY_ADDR_HI => ⟨.dec, 0x81C, 1, 0x0, 1, 0x0, 1⟩
  | .MPU_CFG => ⟨.mpu, 0x0, 1, 0x0, 1, 0x0, 1⟩
  | .MPU_STS => ⟨.mpu, 0x4, 1, 0x0, 1, 0x0, 1⟩
  | .MPU_FAULT_ADDR_LO => ⟨.mpu, 0x8, 1, 0x0, 1, 0x0, 1⟩
  | .MPU_FAULT_ADDR_HI => ⟨.mpu, 0xC, 1, 0x0, 1, 0x0, 1⟩
  | .MPU_FAULT_INFO => ⟨.mpu, 0x10, 1, 0x0, 1, 0x0, 1⟩
  | .MPU_BASE => ⟨.mpu, 0x100, 1, 0x10, 32, 0x0, 1⟩
  | .MPU_ATTR => ⟨.mpu, 0x104, 1, 0x10, 32, 0x0, 1⟩
  | .GRV_CFG => ⟨.grv, 0x0, 0, 0x0, 1, 0x0, 1⟩
  | .GRV_SLICE_STS => ⟨.grv, 0x4, 1, 0x0, 1, 0x0, 1⟩
  | .GRV_SLICE_PEAK => ⟨.grv, 0x8, 1, 0x0, 1, 0x0, 1⟩
  | .GRV_STS => ⟨.grv, 0x100, 0, 0x20, 32, 0x0, 1⟩
  | .GRV_MEMBER_LO => ⟨.grv, 0x104, 0, 0x20, 32, 0x0, 1⟩
  | .GRV_MEMBER_HI => ⟨.grv, 0x108, 0, 0x20, 32, 0x0, 1⟩
  | .GRV_JOINED_LO => ⟨.grv, 0x10C, 0, 0x20, 32, 0x0, 1⟩
  | .GRV_JOINED_HI => ⟨.grv, 0x110, 0, 0x20, 32, 0x0, 1⟩
  | .GRV_WIN_CFG => ⟨.grv, 0x1000, 0, 0x100, 512, 0x0, 1⟩
  | .GRV_WIN_GA => ⟨.grv, 0x1004, 0, 0x100, 512, 0x0, 1⟩
  | .GRV_WIN_SIZE => ⟨.grv, 0x1008, 0, 0x100, 512, 0x0, 1⟩
  | .GRV_WIN_TGT_A => ⟨.grv, 0x1080, 0, 0x100, 512, 0x8, 16⟩
  | .GRV_WIN_TGT_B => ⟨.grv, 0x1084, 0, 0x100, 512, 0x8, 16⟩
  | .SNF_STS => ⟨.grv, 0x40000, 1, 0x0, 1, 0x0, 1⟩
  | .SNF_EVICT => ⟨.grv, 0x40004, 1, 0x0, 1, 0x0, 1⟩
  | .SNF_PROBE_ADDR_LO => ⟨.grv, 0x40010, 1, 0x0, 1, 0x0, 1⟩
  | .SNF_PROBE_ADDR_HI => ⟨.grv, 0x40014, 1, 0x0, 1, 0x0, 1⟩
  | .SNF_PROBE_RES => ⟨.grv, 0x40018, 1, 0x0, 1, 0x0, 1⟩
  | .SNF_PROBE_PV_LO => ⟨.grv, 0x4001C, 1, 0x0, 1, 0x0, 1⟩
  | .SNF_PROBE_PV_HI => ⟨.grv, 0x40020, 1, 0x0, 1, 0x0, 1⟩
  | .GRV_SET_WAIT => ⟨.grv, 0x10, 1, 0x0, 1, 0x0, 1⟩
  | .GRV_STRAY => ⟨.grv, 0x14, 1, 0x0, 1, 0x0, 1⟩
  | .GRV_CONFLICT => ⟨.grv, 0x18, 1, 0x0, 1, 0x0, 1⟩
  | .GRV_SNOOP_TRACK => ⟨.grv, 0x1C, 1, 0x0, 1, 0x0, 1⟩
  | .GRV_FELL => ⟨.grv, 0x114, 0, 0x20, 32, 0x0, 1⟩
  | .GRV_FELL_TIME_LO => ⟨.grv, 0x118, 0, 0x20, 32, 0x0, 1⟩
  | .GRV_FELL_TIME_HI => ⟨.grv, 0x11C, 0, 0x20, 32, 0x0, 1⟩
  | .SNF_RETIRE => ⟨.grv, 0x40030, 1, 0x0, 1, 0x0, 1⟩
  | .SNF_ERR => ⟨.grv, 0x40034, 1, 0x0, 1, 0x0, 1⟩
  | .ERT_STS => ⟨.ert, 0x0, 1, 0x0, 1, 0x0, 1⟩
  | .ERT_PROBE_SRC => ⟨.ert, 0x10, 1, 0x0, 1, 0x0, 1⟩
  | .ERT_PROBE_DPA => ⟨.ert, 0x14, 1, 0x0, 1, 0x0, 1⟩
  | .ERT_PROBE_RES => ⟨.ert, 0x18, 1, 0x0, 1, 0x0, 1⟩
  | .ERT_PROBE_TDPA => ⟨.ert, 0x1C, 1, 0x0, 1, 0x0, 1⟩
  | .MOV_CFG => ⟨.mov, 0x0, 1, 0x0, 1, 0x0, 1⟩
  | .MOV_CH_CFG => ⟨.mov, 0x100, 1, 0x40, 16, 0x0, 1⟩
  | .MOV_CH_STS => ⟨.mov, 0x104, 1, 0x40, 16, 0x0, 1⟩
  | .MOV_CH_SRC => ⟨.mov, 0x108, 1, 0x40, 16, 0x0, 1⟩
  | .MOV_CH_TGT => ⟨.mov, 0x110, 1, 0x40, 16, 0x0, 1⟩
  | .MOV_CH_SRC_DPA => ⟨.mov, 0x10C, 1, 0x40, 16, 0x0, 1⟩
  | .MOV_CH_TGT_DPA => ⟨.mov, 0x114, 1, 0x40, 16, 0x0, 1⟩
  | .MOV_CH_HELD => ⟨.mov, 0x118, 1, 0x40, 16, 0x0, 1⟩
  | .MOV_CH_EPOCH => ⟨.mov, 0x11C, 1, 0x40, 16, 0x0, 1⟩
  | .NOC_BND_STS => ⟨.noc, 0x0, 1, 0x0, 1, 0x10, 5⟩
  | .NOC_BND_WAKES => ⟨.noc, 0x4, 1, 0x0, 1, 0x10, 5⟩
  | .NOC_ERR => ⟨.noc, 0x80, 1, 0x0, 1, 0x0, 1⟩
  | .NOC_ROUTE => ⟨.noc, 0x100, 1, 0x0, 1, 0x4, 8⟩
  | .NOC_ROUTE_CTRL => ⟨.nochub, 0x800, 1, 0x0, 1, 0x0, 1⟩
  | .NOC_VC_CFG => ⟨.nochub, 0x804, 1, 0x0, 1, 0x0, 1⟩
  | .NOC_STAT_CTRL => ⟨.nochub, 0x810, 1, 0x0, 1, 0x0, 1⟩
  | .NOC_STAT_TXN => ⟨.nochub, 0x1000, 1, 0x20, 156, 0x0, 1⟩
  | .NOC_STAT_RD => ⟨.nochub, 0x1004, 1, 0x20, 156, 0x0, 1⟩
  | .NOC_STAT_WR => ⟨.nochub, 0x1008, 1, 0x20, 156, 0x0, 1⟩
  | .NOC_STAT_LAT_SUM => ⟨.nochub, 0x100C, 1, 0x20, 156, 0x0, 1⟩
  | .NOC_STAT_LAT_MAX => ⟨.nochub, 0x1010, 1, 0x20, 156, 0x0, 1⟩
  | .ETH_PORT_CFG => ⟨.eth, 0x0, 1, 0x1000, 2, 0x0, 1⟩
  | .ETH_PORT_STS => ⟨.eth, 0x4, 1, 0x1000, 2, 0x0, 1⟩
  | .ETH_MACSEC_DROP => ⟨.eth, 0x8, 1, 0x1000, 2, 0x0, 1⟩
  | .ETH_UNSEC_DROP => ⟨.eth, 0xC, 1, 0x1000, 2, 0x0, 1⟩
  | .KMP_CFG => ⟨.eth, 0x4000, 1, 0x0, 1, 0x0, 1⟩
  | .KMP_TIMING => ⟨.eth, 0x4004, 1, 0x0, 1, 0x0, 1⟩
  | .KMP_SESS_STS => ⟨.eth, 0x4110, 1, 0x10, 8, 0x0, 1⟩
  | .KMP_SESS_EVT => ⟨.eth, 0x4114, 1, 0x10, 8, 0x0, 1⟩
  | .IMG_STS => ⟨.img, 0x0, 1, 0x0, 1, 0x0, 1⟩
  | .IMG_SEQ_LO => ⟨.img, 0x4, 1, 0x0, 1, 0x0, 1⟩
  | .IMG_SEQ_HI => ⟨.img, 0x8, 1, 0x0, 1, 0x0, 1⟩
  | .IMG_CORR => ⟨.img, 0xC, 1, 0x0, 1, 0x0, 1⟩
  | .IMG_SLOT_STS => ⟨.img, 0x10, 1, 0x4, 3, 0x0, 1⟩
  | .IMG_ENTRY_CNT => ⟨.img, 0x40, 1, 0x0, 1, 0x0, 1⟩
  | .IMG_ENTRY_FIRST => ⟨.img, 0x44, 1, 0x0, 1, 0x0, 1⟩
  | .IMG_RB => ⟨.img, 0x50, 1, 0x0, 1, 0x0, 1⟩
  | .FLT_REC_STS => ⟨.flt, 0x0, 1, 0x0, 1, 0x0, 1⟩
  | .FLT_REC_SRC => ⟨.flt, 0x4, 1, 0x0, 1, 0x0, 1⟩
  | .FLT_REC_LIVE => ⟨.flt, 0x8, 1, 0x0, 1, 0x0, 1⟩
  | .FLT_REC_TIME_LO => ⟨.flt, 0xC, 1, 0x0, 1, 0x0, 1⟩
  | .FLT_REC_TIME_HI => ⟨.flt, 0x10, 1, 0x0, 1, 0x0, 1⟩
  | .FLT_REC_CTRL => ⟨.flt, 0x14, 1, 0x0, 1, 0x0, 1⟩
  | .FLT_CFG => ⟨.fltchip, 0x100, 1, 0x0, 1, 0x0, 1⟩
  | .FLT_SAFE_STS => ⟨.fltchip, 0x104, 1, 0x0, 1, 0x0, 1⟩
  | .FLT_SAFE_SLOT => ⟨.fltchip, 0x108, 1, 0x0, 1, 0x0, 1⟩
  | .FLT_SLOT_SRC => ⟨.fltchip, 0x10C, 1, 0x0, 1, 0x0, 1⟩
  | .FLT_LOG_PTR => ⟨.fltchip, 0x200, 1, 0x0, 1, 0x0, 1⟩
  | .FLT_LOG => ⟨.fltchip, 0x1000, 1, 0x10, 64, 0x4, 4⟩
  | .ECC_CL_ERR => ⟨.ecc, 0x0, 16, 0x100, 6, 0x0, 1⟩
  | .ECC_CL_ADDR => ⟨.ecc, 0x4, 16, 0x100, 6, 0x0, 1⟩
  | .ECC_SCRUB_CTRL => ⟨.ecc, 0x10, 16, 0x100, 6, 0x0, 1⟩
  | .ECC_SCRUB_END => ⟨.ecc, 0x14, 16, 0x100, 6, 0x0, 1⟩
  | .ECC_SCRUB_RES => ⟨.ecc, 0x18, 16, 0x100, 6, 0x0, 1⟩
  | .ECC_SCRUB_CNT => ⟨.ecc, 0x1C, 16, 0x100, 6, 0x0, 1⟩
  | .ECC_SCRUB_FIRST => ⟨.ecc, 0x20, 16, 0x100, 6, 0x0, 1⟩
  | .ECC_SCRUB_LAST => ⟨.ecc, 0x24, 16, 0x100, 6, 0x0, 1⟩
  | .ECC_SCRUB_TIME => ⟨.ecc, 0x28, 16, 0x100, 6, 0x0, 1⟩
  | .ECC_REPAIR => ⟨.ecc, 0x30, 16, 0x100, 6, 0x0, 1⟩
  | .ECC_MP_WAIT => ⟨.ecc, 0x40, 16, 0x100, 6, 0x4, 5⟩
  | .ECC_MP_STS => ⟨.ecc, 0x60, 16, 0x100, 6, 0x0, 1⟩
  | .ECC_CHK_STS => ⟨.ecc, 0xF00, 1, 0x0, 1, 0x0, 1⟩
  | .ECC_DMA_STS => ⟨.ecchub, 0xF04, 1, 0x0, 1, 0x0, 1⟩
  | .PWR_CMD => ⟨.pwr, 0x0, 1, 0x0, 1, 0x0, 1⟩
  | .PWR_CMD_MASK => ⟨.pwr, 0x10, 1, 0x4, 6, 0x0, 1⟩
  | .PWR_ENTRY_CFG => ⟨.pwr, 0x40, 1, 0x0, 1, 0x0, 1⟩
  | .PWR_ENTRY_STS => ⟨.pwr, 0x44, 1, 0x0, 1, 0x0, 1⟩
  | .PWR_DOM_STS => ⟨.pwr, 0x80, 1, 0x4, 7, 0x0, 1⟩
  | .PWR_OP_STS => ⟨.pwr, 0x100, 1, 0x0, 1, 0x0, 1⟩
  | .PWR_AVS_CFG => ⟨.pwr, 0x104, 1, 0x0, 1, 0x0, 1⟩
  | .PWR_DROOP_CFG => ⟨.pwr, 0x200, 1, 0x0, 1, 0x0, 1⟩
  | .PWR_DROOP_STS => ⟨.pwr, 0x210, 1, 0x10, 8, 0x0, 1⟩
  | .PWR_DROOP_NS => ⟨.pwr, 0x214, 1, 0x10, 8, 0x0, 1⟩
  | .PWR_TEMP => ⟨.pwr, 0x300, 1, 0x4, 10, 0x0, 1⟩
  | .PWR_CLK_STS => ⟨.pwr, 0x400, 1, 0x0, 1, 0x0, 1⟩
  | .PWR_RESET_CAUSE => ⟨.pwr, 0x404, 1, 0x0, 1, 0x0, 1⟩
  | .TMB_CFG => ⟨.tmb, 0x0, 1, 0x0, 1, 0x0, 1⟩
  | .TMB_STS => ⟨.tmb, 0x4, 1, 0x0, 1, 0x0, 1⟩
  | .TMB_NOW_FRAC => ⟨.tmb, 0x10, 1, 0x0, 1, 0x0, 1⟩
  | .TMB_NOW_LO => ⟨.tmb, 0x14, 1, 0x0, 1, 0x0, 1⟩
  | .TMB_NOW_HI => ⟨.tmb, 0x18, 1, 0x0, 1, 0x0, 1⟩
  | .TMB_ALARM_LO => ⟨.tmb, 0x20, 1, 0x0, 1, 0x0, 1⟩
  | .TMB_ALARM_HI => ⟨.tmb, 0x24, 1, 0x0, 1, 0x0, 1⟩
  | .SLT_CTRL => ⟨.slt, 0x0, 1, 0x100, 32, 0x0, 1⟩
  | .SLT_CFG => ⟨.slt, 0x4, 1, 0x100, 32, 0x0, 1⟩
  | .SLT_SHUNT => ⟨.slt, 0x8, 1, 0x100, 32, 0x0, 1⟩
  | .SLT_LIMIT => ⟨.slt, 0xC, 1, 0x100, 32, 0x0, 1⟩
  | .SLT_VWIN => ⟨.slt, 0x10, 1, 0x100, 32, 0x0, 1⟩
  | .SLT_TIMING => ⟨.slt, 0x14, 1, 0x100, 32, 0x0, 1⟩
  | .SLT_THRESH => ⟨.slt, 0x18, 1, 0x100, 32, 0x0, 1⟩
  | .SLT_TM_POLE => ⟨.slt, 0x20, 1, 0x100, 32, 0x4, 3⟩
  | .SLT_STS => ⟨.slt, 0x40, 1, 0x100, 32, 0x0, 1⟩
  | .SLT_EVT => ⟨.slt, 0x44, 1, 0x100, 32, 0x0, 1⟩
  | .SLT_MEAS_I => ⟨.slt, 0x50, 1, 0x100, 32, 0x0, 1⟩
  | .SLT_MEAS_V => ⟨.slt, 0x54, 1, 0x100, 32, 0x0, 1⟩
  | .SLT_MEAS_VF => ⟨.slt, 0x58, 1, 0x100, 32, 0x0, 1⟩
  | .SLT_MEAS_P => ⟨.slt, 0x5C, 1, 0x100, 32, 0x0, 1⟩
  | .SLT_MEAS_TEMP => ⟨.slt, 0x60, 1, 0x100, 32, 0x0, 1⟩
  | .SLT_ENERGY_LO => ⟨.slt, 0x64, 1, 0x100, 32, 0x0, 1⟩
  | .SLT_ENERGY_HI => ⟨.slt, 0x68, 1, 0x100, 32, 0x0, 1⟩
  | .CNT_VAL_LO => ⟨.cnt, 0x0, 1, 0x8, 4096, 0x0, 1⟩
  | .CNT_VAL_HI => ⟨.cnt, 0x4, 1, 0x8, 4096, 0x0, 1⟩
  | .CNT_OVF => ⟨.cnt, 0x8000, 1, 0x4, 128, 0x0, 1⟩
  | .CNT_SAMP_CFG => ⟨.cnt, 0x9000, 1, 0x10, 4, 0x0, 1⟩
  | .CNT_SAMP_PERIOD => ⟨.cnt, 0x9004, 1, 0x10, 4, 0x0, 1⟩
  | .CNT_SAMP_STS => ⟨.cnt, 0x9008, 1, 0x10, 4, 0x0, 1⟩
  | .CNT_SAMP_PC => ⟨.cnt, 0x900C, 1, 0x10, 4, 0x0, 1⟩
  | .CNT_HIST_CTRL => ⟨.cnt, 0xA000, 1, 0x0, 1, 0x0, 1⟩
  | .CNT_HIST_SEL => ⟨.cnt, 0xA010, 1, 0x4, 10, 0x0, 1⟩
  | .CNT_EDGE => ⟨.cnt, 0x10000, 1, 0x80, 4, 0x4, 31⟩
  | .CNT_HIST_LO => ⟨.cnt, 0x20000, 1, 0x100, 156, 0x8, 32⟩
  | .CNT_HIST_HI => ⟨.cnt, 0x20004, 1, 0x100, 156, 0x8, 32⟩
  | .BST_STS => ⟨.bst, 0x0, 1, 0x0, 1, 0x0, 1⟩
  | .BST_START_STS => ⟨.bst, 0x4, 1, 0x0, 1, 0x0, 1⟩
  | .BST_DUR => ⟨.bst, 0x8, 1, 0x0, 1, 0x0, 1⟩
  | .BST_FAIL => ⟨.bst, 0xC, 1, 0x0, 1, 0x0, 1⟩
  | .BST_SKIPPED => ⟨.bst, 0x10, 1, 0x0, 1, 0x0, 1⟩
  | .BST_LBIST_SIG_LO => ⟨.bst, 0x100, 1, 0x8, 8, 0x0, 1⟩
  | .BST_LBIST_SIG_HI => ⟨.bst, 0x104, 1, 0x8, 8, 0x0, 1⟩
  | .BST_CELL_FAIL => ⟨.bst, 0x200, 1, 0x4, 4, 0x0, 1⟩
  | .LCS_STATE => ⟨.bst, 0x8000, 1, 0x0, 1, 0x0, 1⟩
  | .LCS_CHIP_ID_LO => ⟨.bst, 0x8004, 1, 0x0, 1, 0x0, 1⟩
  | .LCS_CHIP_ID_HI => ⟨.bst, 0x8008, 1, 0x0, 1, 0x0, 1⟩
  | .CHP_ID => ⟨.chp, 0x0, 1, 0x0, 1, 0x0, 1⟩
  | .CHP_STATUS => ⟨.chp, 0x4, 1, 0x0, 1, 0x0, 1⟩
  | .CHP_ERR_INFO => ⟨.chp, 0x8, 1, 0x0, 1, 0x0, 1⟩
  | .CHP_ERR_ADDR_LO => ⟨.chp, 0xC, 1, 0x0, 1, 0x0, 1⟩
  | .CHP_ERR_ADDR_HI => ⟨.chp, 0x10, 1, 0x0, 1, 0x0, 1⟩
  | .CHP_RGN_ID => ⟨.rgn, 0x0, 1, 0x0, 1, 0x0, 1⟩

/-- The registers of each block. -/
def RBlock.names : RBlock → List RName
  | .cell => [.CEL_PORT_CFG, .CEL_PORT_STS, .CEL_LINK_CFG, .CEL_LINK_STS, .LNK_LANE_STS, .LNK_EQ, .LNK_PRBS, .LNK_PRBS_ERR, .LNK_PRBS_BITS, .LNK_MARGIN, .LNK_MARGIN_RES]
  | .buf => [.BUF_CFG, .BUF_ALPHA0, .BUF_ALPHA1, .BUF_POOL, .BUF_POOL_MIN, .BUF_RSV, .BUF_MC_STS, .BUF_FLUSH, .BUF_ICRED, .BUF_EQ, .QOS_CLASS, .QOS_HUB, .QOS_WEIGHT0, .QOS_WEIGHT1, .QOS_CON_CFG, .QOS_CON_MIN, .QOS_CON_CAP, .QOS_CON_STS, .QOS_EGR_STS]
  | .eth => [.QOS_EPOL_CFG, .QOS_EPOL_DROP, .QOS_EPOL_DROP_KB, .ETH_PORT_CFG, .ETH_PORT_STS, .ETH_MACSEC_DROP, .ETH_UNSEC_DROP, .KMP_CFG, .KMP_TIMING, .KMP_SESS_STS, .KMP_SESS_EVT]
  | .vcs => [.VCS_RST_CFG, .VCS_QUAR_CFG, .VCS_MBX_CFG, .VCS_POOL, .VCS_PORT_ADM, .VCS_INST_CFG, .VCS_INST_STS, .VCS_MBX_STS, .VCS_VPPB_BIND, .VCS_VPPB_STS]
  | .dec => [.DEC_STG_CTRL, .DEC_STG_STS, .DEC_STG_BASE, .DEC_STG_SIZE, .DEC_STG_CFG, .DEC_STG_TGT_A, .DEC_STG_TGT_B, .DEC_WIN_EPOCH, .DEC_WIN_BASE, .DEC_WIN_SIZE, .DEC_WIN_CFG, .DEC_WIN_TGT_A, .DEC_WIN_TGT_B, .ACC_CFG, .ACC_EPOCH_CUR, .ACC_EPOCH_CMT, .ACC_STS, .ACC_DENY_CNT, .ACC_DENY_INFO, .ACC_DENY_ADDR_LO, .ACC_DENY_ADDR_HI]
  | .mpu => [.MPU_CFG, .MPU_STS, .MPU_FAULT_ADDR_LO, .MPU_FAULT_ADDR_HI, .MPU_FAULT_INFO, .MPU_BASE, .MPU_ATTR]
  | .grv => [.GRV_CFG, .GRV_SLICE_STS, .GRV_SLICE_PEAK, .GRV_STS, .GRV_MEMBER_LO, .GRV_MEMBER_HI, .GRV_JOINED_LO, .GRV_JOINED_HI, .GRV_WIN_CFG, .GRV_WIN_GA, .GRV_WIN_SIZE, .GRV_WIN_TGT_A, .GRV_WIN_TGT_B, .SNF_STS, .SNF_EVICT, .SNF_PROBE_ADDR_LO, .SNF_PROBE_ADDR_HI, .SNF_PROBE_RES, .SNF_PROBE_PV_LO, .SNF_PROBE_PV_HI, .GRV_SET_WAIT, .GRV_STRAY, .GRV_CONFLICT, .GRV_SNOOP_TRACK, .GRV_FELL, .GRV_FELL_TIME_LO, .GRV_FELL_TIME_HI, .SNF_RETIRE, .SNF_ERR]
  | .ert => [.ERT_STS, .ERT_PROBE_SRC, .ERT_PROBE_DPA, .ERT_PROBE_RES, .ERT_PROBE_TDPA]
  | .mov => [.MOV_CFG, .MOV_CH_CFG, .MOV_CH_STS, .MOV_CH_SRC, .MOV_CH_TGT, .MOV_CH_SRC_DPA, .MOV_CH_TGT_DPA, .MOV_CH_HELD, .MOV_CH_EPOCH]
  | .noc => [.NOC_BND_STS, .NOC_BND_WAKES, .NOC_ERR, .NOC_ROUTE]
  | .nochub => [.NOC_ROUTE_CTRL, .NOC_VC_CFG, .NOC_STAT_CTRL, .NOC_STAT_TXN, .NOC_STAT_RD, .NOC_STAT_WR, .NOC_STAT_LAT_SUM, .NOC_STAT_LAT_MAX]
  | .img => [.IMG_STS, .IMG_SEQ_LO, .IMG_SEQ_HI, .IMG_CORR, .IMG_SLOT_STS, .IMG_ENTRY_CNT, .IMG_ENTRY_FIRST, .IMG_RB]
  | .flt => [.FLT_REC_STS, .FLT_REC_SRC, .FLT_REC_LIVE, .FLT_REC_TIME_LO, .FLT_REC_TIME_HI, .FLT_REC_CTRL]
  | .fltchip => [.FLT_CFG, .FLT_SAFE_STS, .FLT_SAFE_SLOT, .FLT_SLOT_SRC, .FLT_LOG_PTR, .FLT_LOG]
  | .ecc => [.ECC_CL_ERR, .ECC_CL_ADDR, .ECC_SCRUB_CTRL, .ECC_SCRUB_END, .ECC_SCRUB_RES, .ECC_SCRUB_CNT, .ECC_SCRUB_FIRST, .ECC_SCRUB_LAST, .ECC_SCRUB_TIME, .ECC_REPAIR, .ECC_MP_WAIT, .ECC_MP_STS, .ECC_CHK_STS]
  | .ecchub => [.ECC_DMA_STS]
  | .pwr => [.PWR_CMD, .PWR_CMD_MASK, .PWR_ENTRY_CFG, .PWR_ENTRY_STS, .PWR_DOM_STS, .PWR_OP_STS, .PWR_AVS_CFG, .PWR_DROOP_CFG, .PWR_DROOP_STS, .PWR_DROOP_NS, .PWR_TEMP, .PWR_CLK_STS, .PWR_RESET_CAUSE]
  | .tmb => [.TMB_CFG, .TMB_STS, .TMB_NOW_FRAC, .TMB_NOW_LO, .TMB_NOW_HI, .TMB_ALARM_LO, .TMB_ALARM_HI]
  | .slt => [.SLT_CTRL, .SLT_CFG, .SLT_SHUNT, .SLT_LIMIT, .SLT_VWIN, .SLT_TIMING, .SLT_THRESH, .SLT_TM_POLE, .SLT_STS, .SLT_EVT, .SLT_MEAS_I, .SLT_MEAS_V, .SLT_MEAS_VF, .SLT_MEAS_P, .SLT_MEAS_TEMP, .SLT_ENERGY_LO, .SLT_ENERGY_HI]
  | .cnt => [.CNT_VAL_LO, .CNT_VAL_HI, .CNT_OVF, .CNT_SAMP_CFG, .CNT_SAMP_PERIOD, .CNT_SAMP_STS, .CNT_SAMP_PC, .CNT_HIST_CTRL, .CNT_HIST_SEL, .CNT_EDGE, .CNT_HIST_LO, .CNT_HIST_HI]
  | .bst => [.BST_STS, .BST_START_STS, .BST_DUR, .BST_FAIL, .BST_SKIPPED, .BST_LBIST_SIG_LO, .BST_LBIST_SIG_HI, .BST_CELL_FAIL, .LCS_STATE, .LCS_CHIP_ID_LO, .LCS_CHIP_ID_HI]
  | .chp => [.CHP_ID, .CHP_STATUS, .CHP_ERR_INFO, .CHP_ERR_ADDR_LO, .CHP_ERR_ADDR_HI]
  | .rgn => [.CHP_RGN_ID]

end Sys2Proof.Machine
end

