-- ==== Sys2Proof/Machine/State.lean ====
section
/-! DEFINITION. The state of the TH512: plain data, every piece that spec/ gives the chip. -/

namespace Sys2Proof.Machine

/-- Everything the chip holds but its KMP sessions. -/
structure Chip where
  /-- The register file: no entry equal to its reset value, keys rising. -/
  regs : List (Reg × W) := []
  /-- Management SRAM (R380): bytes other than 0, addresses rising. -/
  sram : List Host.Cell := []
  /-- Elapsed time in sixteenths of a nanosecond (R331). -/
  time : Nat := 0
  /-- Event counters of 48 bits (R354) and histogram bins (R362) with their live edge sets (R363). -/
  cnt : Tab Nat := []
  hist : Tab Nat := []
  ports : Tab PortX := []
  lanes : Tab LaneX := []
  /-- Cell waves (R269): the START section, the time of wave 0, and the waves that have not begun. -/
  start : StartCfg := {}
  waveZero : Nat := 0
  waves : List Nat := []
  /-- An arriving message has been taken into an ingress queue or sent on by the direct path. Between commands it is false. -/
  taken : Bool := false
  /-- Router outputs: flit cycles, of the last 16, in which priority and bulk both held a packet that could advance, and those
  that bulk received (R215), by ((node × 5 + output) × 4 + network) × 2 + plane. -/
  noc : Tab (Nat × Nat) := []
  /-- Messages in the chip, oldest first within each queue; open requests; transactions not yet counted. -/
  msgs : List Msg := []
  opens : List OpenReq := []
  ended : List Ended := []
  cuts : List Cut := []
  vppbs : Tab Vppb := []
  vcs : Tab VcsX := []
  /-- Port Based Routing table: identifiers and the trunk port or edge port that each leads to (R32). -/
  pbr : Tab Nat := []
  /-- Committed windows by 32 × virtual switch + window (R128). -/
  wins : Tab Win := []
  /-- Epochs: start times of uncommitted ones, and what waits for the binding engine (R106, R136 to R140). -/
  epochs : List (Nat × Nat) := []
  stalls : List Nat := []
  engOwn : List EngOp := []
  engCmd : List EngOp := []
  /-- Queue states that the other regions know of each port (R72, R96): a mask of service classes. -/
  qOpen : Tab Nat := []
  qPressed : Tab Nat := []
  /-- Route epoch markers not yet arrived (Table 11.6): source, destination, network, virtual channel, plane. -/
  markers : List (Nat × Nat × Nat × Nat × Nat) := []
  /-- Live statistics by initiator (R225). -/
  stats : Tab Stat := []
  /-- Requests of the chip itself to devices. -/
  inners : List Inner := []
  /-- Snoop filters (R154) by (32768 × region + set) × 16 + way, with the pseudo-LRU tree of each set (R156), line-lock entries,
  agent copies oldest use first, snooped-line records (R174) as port and grove address, removals under way and replies held for
  a fell. -/
  snf : Tab Snf := []
  plru : Tab Nat := []
  txns : List Txn := []
  copies : List AgentCopy := []
  snooped : List (Nat × Nat) := []
  gjobs : List GroveJob := []
  gholds : List GroveHold := []
  /-- Page-mover channels: when the rate of each lets its next chunk begin, and, under 16, that of all; the one served last (R205). -/
  movAt : Tab Nat := []
  movLast : Nat := 15
  /-- Extent remap entries of all regions, and open mirrored writes. -/
  ert : List Ert := []
  mirrors : List Mirror := []
  /-- PORT_REMOVE requests that await the squash of a port's bindings (Table 6.5). -/
  removals : List (Nat × ReqId) := []
  /-- Bindings and upstream ports of the loaded image's instances (R122): instance, bridge and target word; instance and port. -/
  imgBinds : List (Nat × Nat × W) := []
  imgInsts : List (Nat × Nat) := []
  /-- Settled extents and the epoch whose commit frees their entries (R206). -/
  settles : List (Nat × List Ext) := []
  /-- Collectors whose record has changed and has not been passed upward (R273). -/
  unpassed : List Nat := []
  /-- Slot channels; VIN_SNS out of range (R403); gates held until safe state is left (R352). -/
  slots : Tab SlotX := []
  vinSnsBad : Bool := false
  slotHold : Bool := false
  /-- A class F error of the command under way: its collector (R281). Between commands there is none. -/
  fatal : Option Nat := none
  /-- Start of FAIL_TEST; heartbeat lost; the main die taken as lost until a resume (R285, R286). -/
  failTest : Option Nat := none
  beatLost : Bool := false
  dieLost : Bool := false
  /-- Step 5 of the start-up is done (Table 13.9), from which the FAIL pair may show healthy. -/
  started : Bool := false
  /-- Merge buffers, Ethernet DMA buffers, scrubs, and words of the hub's clusters that read as uncorrectable: cluster, index. -/
  merge : List MergeEntry := []
  dmaRam : List Host.Cell := []
  scrubs : List Scrub := []
  badWords : List (Nat × Nat) := []
  /-- Fuses; pages of the flash by number, those that are not erased; where the management complex was entered: level and address. -/
  fuses : Fuses := {}
  flash : Tab (List Byte) := []
  mgmt : Option (Nat × Nat) := none
  /-- Live edge sets (R363), a set not committed since reset has the reset edges; sampling units: counter and base (R360), and
  interrupts not yet taken; read latches by initiator × 65536 + what is latched (R386). -/
  edges : Tab (List Nat) := []
  samp : Tab (Nat × Nat) := []
  sampIrq : List Nat := []
  latches : Tab (List Nat) := []
  /-- Power and clock controller. -/
  pw : PowerX := {}
  /-- Self-test under way; fuse programming; Return challenge with its time (R374); JTAG instruction and the links that scan holds. -/
  test : Option TestX := none
  lcJob : Option LcJob := none
  challenge : Option (Nat × Nat) := none
  jtag : JtagInstr := .idcode
  scanLinks : List Nat := []
  /-- Start-up (Table 13.9): 0 until START_UP, 1 with a slot that has passed, 2 done or invalid. -/
  boot : Nat := 0
  /-- Release of PWRON_N, or the latest warm reset. -/
  resetAt : Nat := 0
  /-- Management ports. -/
  eth : Tab EthX := []
  /-- Session that holds the relay role (R247), with its port, and whether it is reached over IPv6. -/
  relay : Option (Nat × Nat × Bool) := none
  mail : List Mail := []
  outbox : List Output := []
  /-- Names for messages, requests and tags, and the counter of free values. -/
  nextId : Nat := 1
  freeCtr : Nat := 0
  deriving DecidableEq, Repr

/-! ## KMP sessions (R236 to R244) -/

/-- An event sent and not acknowledged: sequence number, code, payload, sends so far, time of the latest. -/
structure Unacked where
  seq : Nat
  code : Nat
  words : List W
  sends : Nat
  last : Nat
  deriving DecidableEq, Repr

/-- A request that is held until its gap is filled (R241): opcode, datagram, arrival. -/
structure Held where
  opcode : Nat
  q : KmpReq
  since : Nat
  deriving DecidableEq, Repr

/-- A kept reply (R243): its request, status and the payloads of its datagrams. -/
structure Kept where
  seq : Nat
  opcode : Nat
  status : Nat
  parts : List (List W)
  deriving DecidableEq, Repr

/-- A session: its number, its identity, its key (port, address, UDP port), the MAC address that its peer was last heard from,
agreed major version, granted keepalive in ms, time of the latest valid message, requests started,
the next sequence number expected, requests in progress, held requests, kept replies, next event number, unacknowledged events,
queued events, and events discarded since EVENTS_LOST. -/
structure Sess where
  num : Nat
  uid : Nat
  eth : Nat
  mac : Nat
  ip : Nat
  udp : Nat
  ipv6 : Bool
  major : Nat
  keepalive : Nat
  heard : Nat
  started : Nat := 0
  expect : Nat
  prog : List ReqId := []
  held : List Held := []
  kept : List Kept := []
  evtNext : Nat := 0
  unacked : List Unacked := []
  queue : List (Nat × List W) := []
  lost : Nat := 0
  deriving DecidableEq, Repr

/-- The sessions of both ports, and the next identity. -/
structure Kmp where
  sess : List Sess := []
  nextUid : Nat := 1
  deriving DecidableEq, Repr

/-! ## The machine -/

/-- The TH512, with the commands that wait. -/
structure State where
  chip : Chip := {}
  kmp : Kmp := {}
  /-- Commands not yet taken, first in first out. -/
  pending : List Instr := []
  deriving DecidableEq, Repr

/-- Why a command stops. -/
inductive Fault where
  /-- Raised by every command whose operand names a part that the TH512 does not have: a port of 128 or above, a counter that no
  register holds. No such command can reach the chip: safe. -/
  | noSuchPart
  deriving DecidableEq, Repr

/-- Why a command is refused. -/
inductive Refusal where
  /-- A command without a meaning, by its mnemonic: safe. -/
  | notModelled (mnemonic : String)
  deriving DecidableEq, Repr

/-- The chip right after the release of PWRON_N: every register at its reset value, memories empty, fuses blank, flash erased, no
session, no command waiting. START_UP begins the start-up. -/
def State.reset : State := {}

end Sys2Proof.Machine
end

