-- ==== Sys2Proof/Machine/Ops.lean ====
section
/-! DEFINITION. The named operations over the chip's state: registers and their fields, the tables of ports, lanes, virtual
bridges and virtual switches, counters, events and replies, management SRAM, time. -/

namespace Sys2Proof.Machine

/-! ## Numbers and bits -/

/-- Bits `lo` to `lo + w - 1` of a number. -/
def bitsOf (v lo w : Nat) : Nat := v / 2 ^ lo % 2 ^ w

/-- A number with bits `lo` to `lo + w - 1` replaced. -/
def putBits (v lo w x : Nat) : Nat := v - bitsOf v lo w * 2 ^ lo + x % 2 ^ w * 2 ^ lo

/-- Bit `i` of a number. -/
def bitAt (v i : Nat) : Bool := decide (v / 2 ^ i % 2 = 1)

/-- A Boolean as a bit. -/
def b2n (b : Bool) : Nat := if b then 1 else 0

/-- A word from a number. -/
def w32 (v : Nat) : W := BitVec.ofNat 32 v

/-- Payload word `i` of a list, 0 where there is none. -/
def wordAt (ws : List W) (i : Nat) : Nat := (ws.getD i 0).toNat

/-- A number held between two bounds. -/
def clampTo (lo hi v : Nat) : Nat := if v < lo then lo else if v > hi then hi else v

/-- Setting a bit of a number. -/
def setBit (v i : Nat) : Nat := if bitAt v i then v else v + 2 ^ i

/-- Clearing a bit of a number. -/
def clrBit (v i : Nat) : Nat := if bitAt v i then v - 2 ^ i else v

/-- The bits of a number that are set, below `n`, ascending. -/
def bitsSet (v n : Nat) : List Nat := (List.range n).filter (bitAt v)

/-- The number whose set bits are listed. -/
def maskOf (l : List Nat) : Nat := l.foldl setBit 0

/-- Bytes of 32-bit words as they travel: the first byte in bits 31 to 24 (R235). -/
def bytesOfWords (ws : List W) : List Byte :=
  ws.flatMap (fun w => [BitVec.ofNat 8 (w.toNat / 2 ^ 24), BitVec.ofNat 8 (w.toNat / 2 ^ 16), BitVec.ofNat 8 (w.toNat / 2 ^ 8),
    BitVec.ofNat 8 w.toNat])

/-- Words of bytes as they travel, padded with zeros. -/
def wordsOfBytes (l : List Byte) : List Nat :=
  (List.range ((l.length + 3) / 4)).map (fun i =>
    (l.getD (4 * i) 0).toNat * 2 ^ 24 + (l.getD (4 * i + 1) 0).toNat * 2 ^ 16 + (l.getD (4 * i + 2) 0).toNat * 2 ^ 8 +
      (l.getD (4 * i + 3) 0).toNat)

/-- A number from bytes in memory order, the lowest address lowest, and back. -/
def natOfBytes : List Byte → Nat
  | [] => 0
  | b :: bs => b.toNat + 256 * natOfBytes bs
def bytesOfNat : Nat → Nat → List Byte
  | 0, _ => []
  | n + 1, v => BitVec.ofNat 8 v :: bytesOfNat n (v / 256)

/-- The value an AtomicOp leaves, from the original bytes and the operands: FetchAdd, Swap, CAS with the compare value first. -/
def atomResult (op : AtomOp) (size : Nat) (orig args : List Byte) : List Byte :=
  match op with
  | .fetchAdd => bytesOfNat size ((natOfBytes orig + natOfBytes (args.take size)) % 2 ^ (8 * size))
  | .swap => args.take size
  | .cas => if orig = args.take size then (args.drop size).take size else orig

/-! ## Time (R331): sixteenths of a nanosecond -/

def nsT : Nat := 16
def usT : Nat := 16 * 1000
def msT : Nat := 16 * 1000000
def secT : Nat := 16 * 1000000000

/-- Elapsed nanoseconds. -/
def Chip.ns (s : Chip) : Nat := s.time / 16

/-! ## The parts of the chip (R10 to R12) -/

def regionOf (cell : Nat) : Nat := cell / 16
def blockOf (cell : Nat) : Nat := cell / 4
/-- Trunk-capable cells (R12). -/
def trunkCapable (cell : Nat) : Bool := cell % 16 == 14 || cell % 16 == 15
def numCells : Nat := 128
def hubNode : Nat := 8
/-- Collector numbers (Table 14.1). -/
def blockCollector (b : Nat) : Nat := 128 + b
def regionCollector (r : Nat) : Nat := 160 + r
def chipCollector : Nat := 168

/-! ## Registers (R4, R5) -/

/-- The value a register holds. -/
def Chip.rd (s : Chip) (n : RName) (i : Nat := 0) (j : Nat := 0) : W :=
  tget (Reg.reset ⟨n, i, j⟩) s.regs ⟨n, i, j⟩

/-- Setting a register. -/
def Chip.wr (s : Chip) (n : RName) (i j : Nat) (v : W) : Chip :=
  { s with regs := tput Reg.lt (Reg.reset ⟨n, i, j⟩) s.regs ⟨n, i, j⟩ v }

/-- The value of a field. -/
def Chip.fld (s : Chip) (f : Fld) (i : Nat := 0) (j : Nat := 0) : Nat :=
  bitsOf (s.rd f.reg i j).toNat f.lo f.width

/-- Setting a field. -/
def Chip.set (s : Chip) (f : Fld) (v : Nat) (i : Nat := 0) (j : Nat := 0) : Chip :=
  s.wr f.reg i j (w32 (putBits (s.rd f.reg i j).toNat f.lo f.width v))

/-- Whether a field of one bit is set. -/
def Chip.is (s : Chip) (f : Fld) (i : Nat := 0) (j : Nat := 0) : Bool := decide (s.fld f i j ≠ 0)

/-- Adding to a count that saturates at its field's width. -/
def Chip.bump (s : Chip) (f : Fld) (n : Nat) (i : Nat := 0) (j : Nat := 0) : Chip :=
  s.set f (min (s.fld f i j + n) (2 ^ f.width - 1)) i j

/-- The mask of a register's fields of one access type. -/
def accMask (n : RName) (a : Acc) : Nat :=
  (n.fields.filter (fun f => decide (f.acc = a))).foldl (fun m f => m ||| ((2 ^ f.width - 1) * 2 ^ f.lo)) 0

/-- Fields whose values outside a range are clamped to it, each with its range: such a field takes the clamped value. -/
def RName.clamps : RName → List (Fld × Nat × Nat)
  | .VCS_QUAR_CFG => [(F.VCS_QUAR_CFG.DOWN_LIMIT, 10, 60000)]
  | .VCS_MBX_CFG => [(F.VCS_MBX_CFG.RELAY_TO, 10, 60000)]
  | .MOV_CFG => [(F.MOV_CFG.XFER_TO, 10, 60000), (F.MOV_CFG.FLIP_TO, 10, 60000)]
  | .FLT_CFG => [(F.FLT_CFG.THERM_WARN, 100, 140)]
  | .PWR_AVS_CFG => [(F.PWR_AVS_CFG.SETTLE_TO, 10, 1000)]
  | .SLT_SHUNT => [(F.SLT_SHUNT.RSH, 50, 10000)]
  | .SLT_LIMIT => [(F.SLT_LIMIT.FTIMER, 10, 5000)]
  | .SLT_VWIN => [(F.SLT_VWIN.OV, 12200, 14000), (F.SLT_VWIN.UV, 9000, 11800)]
  | .SLT_TIMING => [(F.SLT_TIMING.SLEW, 5, 120), (F.SLT_TIMING.INS_DELAY, 10, 1000)]
  | .SLT_THRESH => [(F.SLT_THRESH.TREF, 0, 125), (F.SLT_THRESH.TJ_MAX, 100, 175), (F.SLT_THRESH.PG_MIN, 8000, 12000)]
  | _ => []

/-- A word of a register with its clamped fields in their ranges. -/
def clampWord (n : RName) (v : Nat) : Nat :=
  n.clamps.foldl (fun v c => putBits v c.1.lo c.1.width (clampTo c.2.1 c.2.2 (bitsOf v c.1.lo c.1.width))) v

/-- A write by the access types of a register's fields (Table 0.3): fields RW and RWS take the value, RWL too unless
locked, each 1 clears a W1C bit and sets a W1S bit; RO, WO and reserved bits stay; clamped fields take the clamped value. -/
def accessWrite (n : RName) (locked : Bool) (old new : Nat) : Nat :=
  let rw := accMask n .RW ||| accMask n .RWS ||| (if locked then 0 else accMask n .RWL)
  let w1c := accMask n .W1C
  let w1s := if locked then 0 else accMask n .W1S
  let kept := (0xFFFFFFFF ^^^ rw) &&& old
  clampWord n (((kept &&& (0xFFFFFFFF ^^^ (w1c &&& new))) ||| (rw &&& new)) ||| (w1s &&& new))

/-- What a read returns of a register's stored value (R5, Table 0.3): WO fields and reserved bits read 0. -/
def readMask (n : RName) : Nat :=
  accMask n .RW ||| accMask n .RO ||| accMask n .W1C ||| accMask n .W1S ||| accMask n .RWL ||| accMask n .RWS

/-! ## Tables of the structured state -/

def Chip.port (s : Chip) (p : Nat) : PortX := s.ports.get {} p
def Chip.setPort (s : Chip) (p : Nat) (x : PortX) : Chip := { s with ports := s.ports.set {} p x }
def Chip.modPort (s : Chip) (p : Nat) (f : PortX → PortX) : Chip := s.setPort p (f (s.port p))
/-- An LD-ID is below the device's logical device count, as far as the device has told it. -/
def Chip.ldOk (s : Chip) (p ld : Nat) : Bool :=
  match (s.port p).lds with
  | some n => decide (ld < n)
  | none => true
def Chip.lane (s : Chip) (l : Nat) : LaneX := s.lanes.get {} l
def Chip.setLane (s : Chip) (l : Nat) (x : LaneX) : Chip := { s with lanes := s.lanes.set {} l x }
/-- Virtual bridge `v` of virtual switch `n`. -/
def Chip.vppb (s : Chip) (n v : Nat) : Vppb := s.vppbs.get {} (64 * n + v)
def Chip.setVppb (s : Chip) (n v : Nat) (x : Vppb) : Chip := { s with vppbs := s.vppbs.set {} (64 * n + v) x }
def Chip.modVppb (s : Chip) (n v : Nat) (f : Vppb → Vppb) : Chip := s.setVppb n v (f (s.vppb n v))
def Chip.vsw (s : Chip) (n : Nat) : VcsX := s.vcs.get {} n
def Chip.setVsw (s : Chip) (n : Nat) (x : VcsX) : Chip := { s with vcs := s.vcs.set {} n x }
def Chip.win (s : Chip) (n w : Nat) : Win := s.wins.get {} (32 * n + w)
def Chip.setWin (s : Chip) (n w : Nat) (x : Win) : Chip := { s with wins := s.wins.set {} (32 * n + w) x }

/-! ## Counters (R354, R355) -/

/-- The value of an event counter. -/
def Chip.counter (s : Chip) (n : Nat) : Nat := s.cnt.get 0 n

/-- The sticky bit of a counter (R355). -/
def Chip.sticky (s : Chip) (n : Nat) : Chip :=
  s.wr .CNT_OVF (n / 32) 0 (w32 (setBit (s.rd .CNT_OVF (n / 32)).toNat (n % 32)))

/-- An uncorrectable counter word that is read restarts from 0 with its sticky bit set (R354, Table 15.3). -/
def Chip.freshCount (s : Chip) (n : Nat) : Chip :=
  if s.badWords.contains (3, n) then
    let s : Chip := { s with cnt := s.cnt.set 0 n 0, badWords := s.badWords.filter (fun x => decide (x ≠ (3, n))) }
    s.sticky n
  else s

/-- `k` events reach counter `n`: it wraps past 2^48 - 1 and then sets its bit in CNT_OVF (R355). -/
def Chip.count (s : Chip) (n : Nat) (k : Nat := 1) : Chip :=
  let s := s.freshCount n
  let v := s.counter n + k
  let s := { s with cnt := s.cnt.set 0 n (v % 2 ^ 48) }
  if v < 2 ^ 48 then s else s.sticky n

/-- Counter numbers (Table 18.1). -/
def cntCell (c e : Nat) : Nat := 16 * c + e
def cntRegion (r e : Nat) : Nat := 0x800 + 64 * r + e
def cntNode (d e : Nat) : Nat := 0xA00 + 16 * d + e
def cntChan (c e : Nat) : Nat := 0xB00 + 4 * c + e
def cntEth (p e : Nat) : Nat := 0xB40 + 32 * p + e
def cntCpx (e : Nat) : Nat := 0xB80 + e
def cntChip (e : Nat) : Nat := 0xBA0 + e
def cntSlot (k e : Nat) : Nat := 0xC00 + 4 * k + e

/-! ## Power domains (R312) -/

/-- A domain of the main die is on. -/
def Chip.domOn (s : Chip) (d : Nat) : Bool := !s.pw.off.contains d
/-- Domain of the switching logic of region `r`, and of its home slice. -/
def regionDom (r : Nat) : Nat := 160 + r
def homeDom (r : Nat) : Nat := 168 + r

/-- The lane test runs on cell `c` (R368). -/
def Chip.laneTested (s : Chip) (c : Nat) : Bool :=
  match s.test with
  | some t => decide (t.kind = 4) && bitAt t.named c
  | none => false

/-! ## What leaves the chip -/

def Chip.out (s : Chip) (o : Output) : Chip := { s with outbox := s.outbox ++ [o] }
def Chip.post (s : Chip) (m : Mail) : Chip := { s with mail := s.mail ++ [m] }
/-- A KMP event for every session (R244). -/
def Chip.event (s : Chip) (code : Nat) (ws : List Nat) : Chip := s.post (.event code (ws.map w32))
/-- A KMP reply of one datagram. -/
def Chip.reply (s : Chip) (q : ReqId) (status : Nat) (ws : List Nat) : Chip := s.post (.reply q status [ws.map w32])
/-- A reply where a request awaits one. -/
def Chip.replyTo (s : Chip) (q : Option ReqId) (status : Nat) (ws : List Nat) : Chip :=
  match q with
  | some q => s.reply q status ws
  | none => s
/-- The result reply of R249: result code, and the epoch of the access change if there is one. -/
def Chip.result (s : Chip) (q : Option ReqId) (code : Nat) (epoch : Option Nat := none) (chan : Nat := 0) : Chip :=
  match epoch with
  | some e => s.replyTo q 0 [code + 0x100 + chan * 0x10000, e]
  | none => s.replyTo q 0 [code + chan * 0x10000, 0]

/-- A fresh name. -/
def Chip.fresh (s : Chip) : Chip := { s with nextId := s.nextId + 1 }

/-- Advancing the counter of free values. -/
def Chip.useFree (s : Chip) : Chip := { s with freeCtr := s.freeCtr + 1 }

/-! ## Management SRAM (R380, R414): bytes, little-endian -/

/-- The canonical form of a memory: addresses rising, no byte that is 0, as an unlisted address reads. -/
def Memory.wf (m : List Host.Cell) : Bool := twf natLt (fun _ => (0 : Byte)) m

def Chip.ramByte (s : Chip) (a : Nat) : Byte := tget (0 : Byte) s.sram a
def Chip.setRamByte (s : Chip) (a : Nat) (v : Byte) : Chip := { s with sram := tput natLt (0 : Byte) s.sram a v }

/-- `n` bytes from address `a` as a number, the lowest address in the lowest bits. -/
def Chip.ramNat (s : Chip) (a : Nat) : Nat → Nat
  | 0 => 0
  | n + 1 => (s.ramByte a).toNat + 256 * s.ramNat (a + 1) n

/-- Storing bytes at successive addresses. -/
def Chip.setRamBytes (s : Chip) (a : Nat) : List Byte → Chip
  | [] => s
  | b :: bs => (s.setRamByte a b).setRamBytes (a + 1) bs

end Sys2Proof.Machine
end

