-- ==== Sys2Proof/Machine/Flags.lean ====
section
/-! DEFINITION. Fault records and their flags: opening, merging and passing upward (R272 to R276), the FAULT event (R291), the
FAIL pair (R284, R285). The action of each source is its own chapter's. -/

namespace Sys2Proof.Machine

/-- Fault classes in order of severity (R273): 0 C, 1 P, 2 G, 3 F. -/
def clsC : Nat := 0
def clsP : Nat := 1
def clsG : Nat := 2
def clsF : Nat := 3

/-- The FAULT event with the record of collector `c` (R291); a record of class C only when EVT_C is 1. -/
def Chip.faultEvent (s : Chip) (c : Nat) : Chip :=
  if s.fld F.FLT_REC_STS.CLASS c = clsC && !s.is F.FLT_CFG.EVT_C then s
  else s.event 0x0830
    [s.fld F.FLT_REC_STS.CLASS c * 2 ^ 30 + s.fld F.FLT_SAFE_STS.SAFE * 2 ^ 29 +
        s.fld F.FLT_REC_STS.MERGED c * 2 ^ 16 + c,
      (s.rd .FLT_REC_SRC c).toNat, (s.rd .FLT_REC_TIME_HI c).toNat, (s.rd .FLT_REC_TIME_LO c).toNat]

/-- The FAULT event of entering or leaving safe state (R291), which is sent whatever EVT_C holds. -/
def Chip.safeEvent (s : Chip) (c : Nat) : Chip :=
  s.event 0x0830
    [s.fld F.FLT_REC_STS.CLASS c * 2 ^ 30 + s.fld F.FLT_SAFE_STS.SAFE * 2 ^ 29 +
        s.fld F.FLT_REC_STS.MERGED c * 2 ^ 16 + c,
      (s.rd .FLT_REC_SRC c).toNat, (s.rd .FLT_REC_TIME_HI c).toNat, (s.rd .FLT_REC_TIME_LO c).toNat]

/-- Marking a collector's record as changed and not yet passed upward (R273). -/
def Chip.unpass (s : Chip) (c : Nat) : Chip :=
  if s.unpassed.contains c then s else { s with unpassed := s.unpassed ++ [c] }

/-- An error with the source bits `srcs` and class `cls` reaches collector `c`: it opens the record or merges into it (R273,
R274), `errs` errors at once. -/
def Chip.raiseBits (s : Chip) (c srcs cls errs : Nat) : Chip :=
  let s : Chip := if cls = clsF ∧ s.fatal = none then { s with fatal := some c } else s
  if s.is F.FLT_REC_STS.OPEN c then
    let oldC := s.fld F.FLT_REC_STS.CLASS c
    let oldS := (s.rd .FLT_REC_SRC c).toNat
    let newC := max oldC cls
    let newS := oldS ||| srcs
    let s := s.set F.FLT_REC_STS.MERGED (min (s.fld F.FLT_REC_STS.MERGED c + errs) 255) c
    let s := s.set F.FLT_REC_STS.CLASS newC c
    let s := s.wr .FLT_REC_SRC c 0 (w32 newS)
    if newC ≠ oldC || newS ≠ oldS then (s.unpass c).faultEvent c else s
  else
    let s := s.set F.FLT_REC_STS.OPEN 1 c
    let s := s.set F.FLT_REC_STS.CLASS cls c
    let s := s.set F.FLT_REC_STS.MERGED (min (errs - 1) 255) c
    let s := s.wr .FLT_REC_SRC c 0 (w32 srcs)
    let s := s.wr .FLT_REC_TIME_LO c 0 (w32 s.ns)
    let s := s.wr .FLT_REC_TIME_HI c 0 (w32 (s.ns / 2 ^ 32))
    let s := s.count (cntChip cls)
    (s.unpass c).faultEvent c

/-- One error with one source bit. -/
def Chip.raise (s : Chip) (c bit cls : Nat) : Chip := s.raiseBits c (2 ^ bit) cls 1

/-- A class C notice, and a class P fault, of a cell, of a region and of the chip. -/
def Chip.cellFault (s : Chip) (c bit cls : Nat) : Chip := s.raise c bit cls
def Chip.regionFault (s : Chip) (r bit cls : Nat) : Chip := s.raise (regionCollector r) bit cls
def Chip.chipFault (s : Chip) (bit cls : Nat) : Chip := s.raise chipCollector bit cls

/-! ## Errors of stored data (R293, R294): block 0 to 7 the regions, 8 the hub; cluster of Table 15.1 -/

/-- A corrected word. -/
def Chip.eccCorr (s : Chip) (blk c : Nat) : Chip :=
  let s := s.bump F.ECC_CL_ERR.CORR 1 (16 * blk + c)
  if blk < 8 then s.count (cntRegion blk 24) else s

/-- An uncorrectable word with its index. -/
def Chip.eccUncorr (s : Chip) (blk c ix : Nat) : Chip :=
  let s := s.bump F.ECC_CL_ERR.UNCORR 1 (16 * blk + c)
  let s := (s.set F.ECC_CL_ADDR.VALID 1 (16 * blk + c)).set F.ECC_CL_ADDR.INDEX (ix % 2 ^ 20) (16 * blk + c)
  if blk < 8 then s.count (cntRegion blk 25) else s

/-- An uncorrectable word whose index the command does not name: a free value. -/
def Chip.eccLost (s : Chip) (blk c : Nat) : Chip := (s.eccUncorr blk c (Config.eccIndex s.freeCtr)).useFree

/-- The parent of a collector and the child bit that its record has there (R273). -/
def parentOf (c : Nat) : Option (Nat × Nat) :=
  if c < 128 then some (blockCollector (c / 4), 16 + c % 4)
  else if c < 160 then some (regionCollector ((c - 128) / 4), 16 + (c - 128) % 4)
  else if c < 168 then some (chipCollector, 16 + (c - 160))
  else none

/-- The FAIL pair (R285, Table 14.8): the fault code until step 5 of the start-up, in safe state, in a test and while the
main die is lost; else the healthy code. -/
def Chip.driveFail (s : Chip) : Chip :=
  let fault := !s.started || s.is F.FLT_SAFE_STS.SAFE || s.failTest.isSome || s.dieLost
  (s.set F.FLT_SAFE_STS.FAIL_T (b2n (!fault))).set F.FLT_SAFE_STS.FAIL_C (b2n fault)

end Sys2Proof.Machine
end

