-- ==== Sys2Proof/Machine/Access.lean ====
section
/-! DEFINITION. Fabric windows and the access check (R128 to R133), epochs (R136 to R140), and the management MPU (R141 to
R147), as spec/07_windows_and_protection.md gives them. -/

namespace Sys2Proof.Machine

/-! ## Interleave codes (Table 7.1) -/

/-- Ways of an IW code, none for a code refused at commit. -/
def waysOf : Nat → Option Nat
  | 0 => some 1 | 1 => some 2 | 2 => some 4 | 3 => some 8 | 4 => some 16
  | 8 => some 3 | 9 => some 6 | 10 => some 12 | _ => none

/-- Granularity in bytes of an IG code, none for a code refused at commit. -/
def granOf (code : Nat) : Option Nat := if code ≤ 6 then some (256 * 2 ^ code) else none

/-! ## Windows -/

/-- Unit of a window's base and size (R129). -/
def winUnit : Nat := 2 ^ 28

def Win.f (w : Win) (lo width : Nat) : Nat := bitsOf w.cfg.toNat lo width
def Win.en (w : Win) : Bool := decide (w.f 31 1 = 1)
def Win.isGrove (w : Win) : Bool := decide (w.f 30 1 = 1)
def Win.iw (w : Win) : Nat := w.f 24 4
def Win.ig (w : Win) : Nat := w.f 20 4
def Win.grove (w : Win) : Nat := w.f 8 5
def Win.gwin (w : Win) : Nat := w.f 4 4
def Win.hr (w : Win) : Bool := decide (w.f 3 1 = 1)
def Win.hw (w : Win) : Bool := decide (w.f 2 1 = 1)
def Win.dr (w : Win) : Bool := decide (w.f 1 1 = 1)
def Win.dw (w : Win) : Bool := decide (w.f 0 1 = 1)
/-- First address of a window and the first beyond it. -/
def Win.lo (w : Win) : Nat := w.base.toNat % 2 ^ 24 * winUnit
def Win.hi (w : Win) : Nat := w.lo + w.size.toNat % 2 ^ 25 * winUnit

/-- A target word in the layout of VCS_VPPB_BIND and DEC_STG_TGT_A. -/
structure Tgt where
  type : Nat
  port : Nat
  ld : Nat
  pbr : Nat
  deriving DecidableEq, Repr

/-- Reading a target word; fields that the type does not use are 0. -/
def tgtOf (v : Nat) : Tgt :=
  let t := bitsOf v 30 2
  { type := t
    port := if t = 1 ∨ t = 2 then bitsOf v 0 7 else 0
    ld := if t = 2 then bitsOf v 8 4 else 0
    pbr := if t = 3 then bitsOf v 12 12 else 0 }

/-- A target as a word. -/
def Tgt.word (t : Tgt) : Nat := t.type * 2 ^ 30 + t.pbr * 2 ^ 12 + t.ld * 2 ^ 8 + t.port

/-- The target words of a window. -/
def Win.tgt (w : Win) (i : Nat) : Tgt := tgtOf (wordAt w.ta i)
def Win.dpaBase (w : Win) (i : Nat) : Nat := wordAt w.tb i % 2 ^ 24 * winUnit

/-- Virtual bridges of a virtual switch (R101). -/
def Chip.vppbCount (s : Chip) (n : Nat) : Nat := min (s.fld F.VCS_INST_CFG.VPPB_COUNT n) 64

/-- The target that a virtual bridge is bound to. -/
def Chip.bound (s : Chip) (n v : Nat) : Tgt := tgtOf (s.rd .VCS_VPPB_BIND n v).toNat

/-- The virtual bridge of `n` through which the access check reaches target `t` (R104). -/
def Chip.reachedBy (s : Chip) (n : Nat) (t : Tgt) : Option Nat :=
  if t.type = 0 then none
  else (List.range (s.vppbCount n)).find? (fun v => decide (s.bound n v = t) && (s.vppb n v).reach)

/-- The virtual bridge of `n` to which target `t` is bound. -/
def Chip.boundBy (s : Chip) (n : Nat) (t : Tgt) : Option Nat :=
  if t.type = 0 then none
  else (List.range (s.vppbCount n)).find? (fun v => decide (s.bound n v = t))

/-- Port through which a target is reached: its own, or the trunk that its identifier's entry names (R32). -/
def Chip.tgtPort (s : Chip) (t : Tgt) : Option Nat :=
  if t.type = 3 then (match s.pbr.get 0 t.pbr with | 0 => none | p + 1 => some p)
  else if t.type = 0 then none else some t.port

/-- Access needed (Table 7.2): 0 read, 1 write, 2 read and write. -/
def Win.permits (w : Win) (dev : Bool) (kind : Nat) : Bool :=
  let r := if dev then w.dr else w.hr
  let x := if dev then w.dw else w.hw
  match kind with
  | 0 => r
  | 1 => x
  | _ => r && x

/-- The outcome of the access check (R130). -/
inductive Check where
  /-- Denied: 0 no window, 1 permission, 2 target unbound. -/
  | deny (reason : Nat)
  /-- A grove window: grove, grove window, offset within the window. -/
  | grove (g gw off : Nat)
  /-- Target, its virtual bridge and the device physical address. -/
  | target (t : Tgt) (vb dpa : Nat)
  deriving DecidableEq, Repr

/-- The enabled window of `n` that holds address `a`. -/
def Chip.findWin (s : Chip) (n a : Nat) : Option Win :=
  ((List.range 32).map (s.win n)).find? (fun w => w.en && decide (w.lo ≤ a) && decide (a < w.hi))

/-- Grove address of the base of a grove window (R151). -/
def Chip.gaBase (s : Chip) (g gw : Nat) : Nat := s.fld F.GRV_WIN_GA.GA_BASE (16 * g + gw) * winUnit
def Chip.gaSize (s : Chip) (g gw : Nat) : Nat := s.fld F.GRV_WIN_SIZE.SIZE (16 * g + gw) * winUnit

/-- The address at which member `n` sees a grove line: through its fabric window of the grove window. -/
def Chip.hpaOf (s : Chip) (n g gw ga : Nat) : Nat :=
  match ((List.range 32).map (s.win n)).find? (fun w => w.en && w.isGrove && decide (w.grove = g) && decide (w.gwin = gw)) with
  | some w => w.lo + (ga - s.gaBase g gw)
  | none => 0

/-- Interleaved target and device address of an offset (R130): target index and chunk address. -/
def interleave (k g off : Nat) : Nat × Nat :=
  let chunk := off / g
  (chunk % k, chunk / k * g + off % g)

/-- The access check of R130. -/
def Chip.check (s : Chip) (n : Nat) (dev : Bool) (kind a : Nat) : Check :=
  match s.findWin n a with
  | none => .deny 0
  | some w =>
    if !w.permits dev kind then .deny 1
    else if w.isGrove then .grove w.grove w.gwin (a - w.lo)
    else
      let (t, o) := interleave ((waysOf w.iw).getD 1) ((granOf w.ig).getD 256) (a - w.lo)
      match s.reachedBy n (w.tgt t) with
      | none => .deny 2
      | some vb => .target (w.tgt t) vb (w.dpaBase t + o)

/-- The last window rule in the commit check: two enabled windows of one virtual switch with a common address (R132). -/
def Chip.overlaps (s : Chip) (n w : Nat) (c : Win) : Bool :=
  (List.range 32).any (fun i =>
    let x := s.win n i
    decide (i ≠ w) && x.en && decide (x.lo < c.hi) && decide (c.lo < x.hi))

/-! ## Epochs -/

def Chip.epCur (s : Chip) : Nat := (s.rd .ACC_EPOCH_CUR).toNat
def Chip.epCmt (s : Chip) : Nat := (s.rd .ACC_EPOCH_CMT).toNat

/-- Distance of an epoch from the latest committed one; the counter of 32 bits wraps. -/
def Chip.epDist (s : Chip) (e : Nat) : Nat := (e + 2 ^ 32 - s.epCmt) % 2 ^ 32

/-- Seven epochs earlier than the current one are uncommitted (R139; log entry 130). -/
def Chip.epFull (s : Chip) : Bool := decide (s.epDist s.epCur ≥ 8)

/-- The next epoch is given to a change and applied by every check unit but those of sleeping regions (R136, R221). -/
def Chip.newEpoch (s : Chip) : Chip :=
  let e := (s.epCur + 1) % 2 ^ 32
  let s := s.wr .ACC_EPOCH_CUR 0 0 (w32 e)
  let s := { s with epochs := s.epochs ++ [(e, s.time)] }
  foldl' ((List.range 8).filter (fun r => s.domOn (regionDom r))) (fun r s => s.count (cntRegion r 12)) s

/-- The latest epoch that may be committed (R138): no request checked under an earlier one is open. -/
def Chip.epReady (s : Chip) : Nat :=
  let d := s.opens.foldl (fun d o => min d (s.epDist o.epoch)) (s.epDist s.epCur)
  ((s.inners.filterMap (·.epoch)).foldl (fun d e => min d (s.epDist e)) d + s.epCmt) % 2 ^ 32

/-- Committing the epochs that may be (R138), with the ACC_COMMITTED event. Epochs committed at once are counted each. -/
def Chip.commitEpochs (s : Chip) : Chip :=
  let e := s.epReady
  let d := s.epDist e
  if d = 0 then s
  else
    let cmt := s.epCmt
    let s := { s with
      epochs := s.epochs.filter (fun x => decide ((x.1 + 2 ^ 32 - cmt) % 2 ^ 32 > d))
      stalls := s.stalls.filter (fun x => decide ((x + 2 ^ 32 - cmt) % 2 ^ 32 > d)) }
    let s := (s.wr .ACC_EPOCH_CMT 0 0 (w32 e)).count (cntChip 7) d
    s.event 0x0800 [e]

/-- An epoch has committed. -/
def Chip.isCommitted (s : Chip) (e : Nat) : Bool :=
  !(s.epochs.any (fun x => decide (x.1 = e)))

/-- Epochs with open requests in a region (ACC_STS.LIVE), 0 to 8 (R139; log entry 130). -/
def Chip.epLive (s : Chip) (r : Nat) : Nat :=
  min 8 ((s.opens.filter (fun o => decide (o.region = r))).map (·.epoch)).eraseDups.length

/-- COMMIT_TO in the time base (R140). -/
def Chip.commitTo (s : Chip) : Nat := clampTo 1 10000 (s.fld F.ACC_CFG.COMMIT_TO) * 100 * usT

/-- Requests that are open, each with its start and the region that holds it; a page-mover request, which no region checked, is held by
the region of its device: DESIGN CHOICE (log entry 131). -/
def Chip.openAges (s : Chip) : List (Nat × Nat) :=
  s.opens.map (fun o => (o.start, o.region)) ++ (s.inners.filter (fun i => i.epoch.isSome)).map (fun i => (i.start, i.dest / 16))

/-- EPOCH_STALL (R140): the epoch is uncommitted past COMMIT_TO and has not been reported. -/
def epochStall (e : Nat) (s : Chip) : Chip :=
  match s.epochs.find? (fun x => decide (x.1 = e)) with
  | none => s
  | some x =>
    if s.time < x.2 + s.commitTo ∨ s.stalls.contains e then s
    else
      match s.openAges with
      | [] => s
      | o :: os =>
        let r := (os.foldl (fun a b => if b.1 < a.1 then b else a) o).2
        let s := { s with stalls := s.stalls ++ [e] }
        let s := s.set F.ACC_STS.STALLED 1 r
        let s := s.regionFault r 12 clsC
        s.event 0x0801 [e, r]

/-! ## Denials (R133) -/

/-- A denial is counted in ACC_DENY_CNT and recorded in ACC_DENY_INFO and ACC_DENY_ADDR. -/
def Chip.noteDeny (s : Chip) (r ini n reason kind a : Nat) : Chip :=
  let s := s.bump F.ACC_DENY_CNT.COUNT 1 r
  let s := s.wr .ACC_DENY_INFO r 0 (w32 (ini * 2 ^ 24 + n * 2 ^ 16 + reason * 2 ^ 12 + kind))
  let s := s.wr .ACC_DENY_ADDR_LO r 0 (w32 a)
  let s := s.wr .ACC_DENY_ADDR_HI r 0 (w32 (a / 2 ^ 32 % 2 ^ 20))
  s.count (cntRegion r 11)

/-- A denied request (R133): recorded, and a class P fault. -/
def Chip.recordDeny (s : Chip) (r ini n reason kind a : Nat) : Chip := (s.noteDeny r ini n reason kind a).regionFault r 0 clsP

/-! ## The management MPU -/

/-- An MPU entry as its registers hold it. -/
structure MpuEntry where
  base : Nat
  attr : Nat
  deriving DecidableEq, Repr

def Chip.mpu (s : Chip) (e : Nat) : MpuEntry :=
  { base := (s.rd .MPU_BASE e).toNat * 256, attr := (s.rd .MPU_ATTR e).toNat }

def MpuEntry.en (m : MpuEntry) : Bool := bitAt m.attr 30
def MpuEntry.lock (m : MpuEntry) : Bool := bitAt m.attr 31
def MpuEntry.size (m : MpuEntry) : Nat := bitsOf m.attr 24 6
def MpuEntry.srd (m : MpuEntry) : Nat := bitsOf m.attr 16 8

/-- An enabled sub-region of an enabled entry covers the byte (R142). -/
def MpuEntry.covers (m : MpuEntry) (a : Nat) : Bool :=
  m.en && decide (m.base ≤ a) && decide (a < m.base + 2 ^ m.size) &&
    !(bitAt m.srd ((a - m.base) / 2 ^ (m.size - 3)))

/-- Permission of an entry at a level (0 machine, 1 supervisor, 2 user, 3 agent) for an access (0 read, 1 write, 2 execute). -/
def MpuEntry.grants (m : MpuEntry) (level acc : Nat) : Bool :=
  if level = 3 ∧ acc = 2 then false else bitAt m.attr (3 * level + (2 - acc))

/-- A byte is permitted at a level (R142). -/
def Chip.mpuByte (s : Chip) (level acc a : Nat) : Bool :=
  match ((List.range 32).map s.mpu).find? (fun m => m.covers a) with
  | some m => m.grants level acc
  | none => decide (level = 0) && s.is F.MPU_CFG.MACHINE_DEFAULT

/-- A byte is permitted to the debug master (Table 7.6): `lc` is the life-cycle state. -/
def Chip.mpuDebug (s : Chip) (lc acc a : Nat) : Bool :=
  if lc = 2 then false
  else if lc = 1 then true
  else
    match ((List.range 32).map s.mpu).find? (fun m => m.covers a && m.lock) with
    | some m => m.grants 0 acc
    | none => true

/-- The MPU permits an access of `n` bytes (R141 to R147). -/
def Chip.mpuOk (s : Chip) (lc ini level acc a n : Nat) : Bool :=
  if ini = 155 then (rangeFrom a n).all (s.mpuDebug lc acc)
  else if !s.is F.MPU_CFG.EN then true
  else (rangeFrom a n).all (s.mpuByte level acc)

/-- A denied access is recorded (R146): the first since FAULT was last cleared, and a class C notice for each. -/
def Chip.mpuDeny (s : Chip) (ini level acc a : Nat) : Chip :=
  let s :=
    if s.is F.MPU_STS.FAULT then s
    else
      let s := s.set F.MPU_STS.FAULT 1
      let s := s.wr .MPU_FAULT_ADDR_LO 0 0 (w32 a)
      let s := s.wr .MPU_FAULT_ADDR_HI 0 0 (w32 (a / 2 ^ 32 % 256))
      s.wr .MPU_FAULT_INFO 0 0 (w32 (ini * 256 + level * 4 + acc))
  (s.count (cntCpx 4)).chipFault 6 clsC

/-- A refused MPU write (R143). -/
def Chip.mpuRefuse (s : Chip) (e : Nat) : Chip :=
  ((s.set F.MPU_STS.REFUSED 1).set F.MPU_STS.ENTRY e).chipFault 6 clsC

/-- Two entries that cover a common byte: sub-region by sub-region, since sub-regions of powers of two nest or are apart. -/
def MpuEntry.overlap (a b : MpuEntry) : Bool :=
  a.en && b.en && (List.range 8).any (fun i =>
    !(bitAt a.srd i) && (List.range 8).any (fun j =>
      !(bitAt b.srd j) &&
        (let la := a.base + i * 2 ^ (a.size - 3)
         let lb := b.base + j * 2 ^ (b.size - 3)
         decide (la < lb + 2 ^ (b.size - 3)) && decide (lb < la + 2 ^ (a.size - 3)))))

/-- An entry that R143 refuses to enable. -/
def Chip.mpuBad (s : Chip) (e : Nat) (m : MpuEntry) : Bool :=
  m.en && (decide (m.size < 8) || decide (m.size > 40) || decide (m.base % 2 ^ m.size ≠ 0) ||
    (List.range 32).any (fun i => decide (i ≠ e) && m.overlap (s.mpu i)))

/-- An access to a locked RWL field is ignored and found later (R6); the record of R383 is the register chapter's. -/
def Chip.recordErr (s : Chip) (kind ini : Nat) (write : Bool) (a : Nat) : Chip :=
  let s := s.set (match kind with
    | 0 => F.CHP_STATUS.LOCKED_WRITE
    | 1 => F.CHP_STATUS.UNMAPPED
    | 2 => F.CHP_STATUS.DOMAIN_OFF
    | _ => F.CHP_STATUS.NARROW_WRITE) 1
  if s.is F.CHP_ERR_INFO.VALID then s
  else
    let s := s.wr .CHP_ERR_INFO 0 0 (w32 (2 ^ 31 + kind * 2 ^ 28 + ini % 256 * 2 ^ 16 + b2n write))
    let s := s.wr .CHP_ERR_ADDR_LO 0 0 (w32 a)
    s.wr .CHP_ERR_ADDR_HI 0 0 (w32 (a / 2 ^ 32 % 256))

/-- MAS address of an MPU register, for the record of a locked write. -/
def mpuAddr (off e : Nat) : Nat := 0xB0000000 + 0x100 + off + 16 * e

/-- MPU_ATTR_WRITE (R143, R144): checked as a whole, a locked entry ignores it. -/
def mpuAttrWrite (ini e : Nat) (v : W) (s : Chip) : Chip :=
  let old := s.mpu e
  if old.lock then s.recordErr 0 ini true (mpuAddr 4 e)
  else
    let new : MpuEntry := { old with attr := v.toNat &&& readMask .MPU_ATTR }
    if s.mpuBad e new then s.mpuRefuse e
    else s.wr .MPU_ATTR e 0 (w32 new.attr)

/-- MPU_BASE_WRITE (R143, R144). -/
def mpuBaseWrite (ini e : Nat) (v : W) (s : Chip) : Chip :=
  let old := s.mpu e
  if old.lock then s.recordErr 0 ini true (mpuAddr 0 e)
  else if old.en then s.mpuRefuse e
  else s.wr .MPU_BASE e 0 v

end Sys2Proof.Machine
end

