-- ==== Sys2Proof/Machine/Fabric.lean ====
section
/-! DEFINITION. Message classes, queues and the shared pool (spec/04_forwarding_core.md, R64 to R73), service classes, the egress
scheduler and contracts (spec/05_service_classes_and_contracts.md, R84 to R99). -/

namespace Sys2Proof.Machine

/-! ## Ports -/

/-- Role in force: 0 Disabled, 1 Upstream, 2 Downstream, 3 Trunk. A port that failed its check stays Disabled (R24). -/
def Chip.role (s : Chip) (p : Nat) : Nat :=
  if s.is F.CEL_PORT_STS.CFG_ERROR p then 0
  else
    let r := s.fld F.CEL_PORT_CFG.ROLE p
    if r ≤ 3 then r else 0

/-- Cells of a port by its WIDTH code. -/
def cellsOf (width : Nat) : Nat := if width = 0 then 1 else if width = 1 then 2 else 4
def Chip.cells (s : Chip) (p : Nat) : Nat := cellsOf (s.fld F.CEL_PORT_CFG.WIDTH p)

/-- Ports of a region that are not Disabled. -/
def Chip.portsOf (s : Chip) (r : Nat) : List Nat := (rangeFrom (16 * r) 16).filter (fun p => decide (s.role p ≠ 0))

/-- The enabled virtual switch whose upstream port is `p`. -/
def Chip.instOf (s : Chip) (p : Nat) : Option Nat :=
  (List.range 64).find? (fun n => s.is F.VCS_INST_CFG.EN n && decide (s.fld F.VCS_INST_CFG.USP n = p))

/-- The enabled and attached virtual switch whose upstream port is `p` (R415). -/
def Chip.attachedOf (s : Chip) (p : Nat) : Option Nat :=
  match s.instOf p with
  | some n => if s.is F.VCS_INST_STS.ATTACHED n then some n else none
  | none => none

/-- The binding through which a device's request arrives: virtual switch and virtual bridge bound to the port whole, or to
its logical device (R131). -/
def Chip.bindingOf (s : Chip) (p ld : Nat) : Option (Nat × Nat) :=
  ((List.range 64).flatMap (fun n => (List.range (s.vppbCount n)).map (fun v => (n, v)))).find?
    (fun x =>
      let t := s.bound x.1 x.2
      (decide (t.type = 1) && decide (t.port = p)) ||
        (decide (t.type = 2) && decide (t.port = p) && decide (t.ld = ld)))

/-- Every binding of a port: its own, and those of its logical devices. -/
def Chip.bindingsOf (s : Chip) (p : Nat) : List (Nat × Nat) :=
  ((List.range 64).flatMap (fun n => (List.range (s.vppbCount n)).map (fun v => (n, v)))).filter
    (fun x =>
      let t := s.bound x.1 x.2
      (decide (t.type = 1) || decide (t.type = 2)) && decide (t.port = p))

/-- Link in 68-byte or 256-byte flit mode (Table 5.3). -/
def Chip.flitMode (s : Chip) (p : Nat) : Bool := s.is F.CEL_PORT_STS.FLIT256 p || s.is F.CEL_PORT_STS.CXL_ACTIVE p

/-! ## Message classes (Table 4.1) -/

/-- Message classes of Table 4.1; BIConflict is carried in MC3 (R172). -/
def mcOf : MsgKind → Nat
  | .ioWr | .ioMsg | .ioMsi => 0
  | .ioRd | .cfgRd | .cfgWr | .ioPortRd | .ioPortWr | .uioWr | .ioAtomic _ _ => 1
  | .cpl | .cplD => 2
  | .memRd | .memRdData | .memInv | .memSpecRd | .biConflict => 3
  | .memWr | .memWrPtl => 4
  | .biRspI | .biRspS | .biRspE => 5
  | .cmp | .cmpS | .cmpE | .biConflictAck => 6
  | .memData => 7
  | .biSnpCur | .biSnpData | .biSnpInv => 8
  | .d2hReq | .h2dReq => 9
  | .d2hRsp | .h2dRsp => 10
  | .d2hData | .h2dData => 11

/-- A request, as against a response: Table 4.6 completes requests. -/
def isRequest : MsgKind → Bool
  | .cpl | .cplD | .biRspI | .biRspS | .biRspE | .cmp | .cmpS | .cmpE | .biConflictAck | .memData
  | .d2hRsp | .h2dRsp | .d2hData | .h2dData | .biConflict => false
  | _ => true

/-- Posted: complete for R137 once transmitted to the target. -/
def isPosted : MsgKind → Bool
  | .ioWr | .ioMsg | .ioMsi | .memSpecRd => true
  | _ => false

/-- Networks that carry a message: header, and data where it has a payload (Table 4.1, R19). -/
def headerNet : MsgKind → Nat
  | .h2dReq => 2
  | k => match mcOf k with
    | 2 | 5 | 6 | 10 => 1
    | 8 => 2
    | 7 | 11 => 3
    | _ => 0

/-- Buffer slots of a message (R65). -/
def slotsOf (len : Nat) : Nat := if len ≤ 256 then 1 else 2

/-- Flit bytes B of a message on a link (Table 5.3). -/
def flitBytes (flit : Bool) (k : MsgKind) (len : Nat) (longHdr : Bool) : Nat :=
  if mcOf k ≤ 2 then
    if flit then 16 + (len + 15) / 16 * 16 else (if longHdr then 16 else 12) + len + 8
  else match k with
    | .memWr | .memWrPtl | .memData | .d2hData | .h2dData => 80
    | _ => 16

/-! ## Reserves, pool and thresholds (R66 to R69, R72) -/

/-- INIT as configured (BUF_ICRED.INIT). -/
def Chip.initCfg (s : Chip) (p m : Nat) : Nat :=
  let v := s.fld F.BUF_ICRED.INIT p m
  if v = 0 then 32 * s.cells p else if v < 8 then 8 else v

/-- INIT in force: what the port's latest training took. -/
def Chip.initOf (s : Chip) (p m : Nat) : Nat :=
  match (s.port p).initCr.get 0 m with
  | 0 => s.initCfg p m
  | v => v

/-- Slots that a header credit stands for (Table 4.2). -/
def kOf (m : Nat) : Nat := if m = 0 ∨ m = 2 then 2 else 1

def Chip.ingressRsv (s : Chip) (p m : Nat) : Nat := s.initOf p m * kOf m

/-- Reserve of one port: ingress queues and twelve egress queues of 8 slots. -/
def Chip.portRsv (s : Chip) (p : Nat) : Nat := ((List.range 12).map (s.ingressRsv p)).sum + 96

/-- Residue reserve. -/
def Chip.resRsv (s : Chip) (r : Nat) : Nat := max 16 (s.fld F.BUF_CFG.RES_RSV r)

/-- Sum of the reserves of a region (R67): ports, landing areas of 256 slots, residue queue. -/
def Chip.totalRsv (s : Chip) (r : Nat) : Nat := ((s.portsOf r).map s.portRsv).sum + 256 + s.resRsv r

/-- Shared pool of a region. -/
def Chip.sharedPool (s : Chip) (r : Nat) : Nat := 16384 - s.totalRsv r

/-- Region whose buffer holds a message. -/
def locRegion : Loc → Option Nat
  | .ingress p => some (p / 16)
  | .egress p _ => some (p / 16)
  | .residue r => some r
  | .landing d _ => if d < 8 then some d else none
  | _ => none

/-- Free slots F of a region's shared pool. -/
def Chip.free (s : Chip) (r : Nat) : Nat :=
  s.sharedPool r - ((s.msgs.filter (fun m => decide (locRegion m.loc = some r))).map (·.shared)).sum

/-- Threshold of a factor code: floor(α × F), α = 2^(code - 4) (Table 4.3). -/
def threshold (code f : Nat) : Nat := f * 2 ^ (min code 7) / 16

/-- Factor code of a service class. -/
def Chip.alphaSc (s : Chip) (r sc : Nat) : Nat :=
  if sc < 8 then bitsOf (s.rd .BUF_ALPHA0 r).toNat (4 * sc) 4 else bitsOf (s.rd .BUF_ALPHA1 r).toNat (4 * (sc - 8)) 4

def inEgress (p sc : Nat) (m : Msg) : Bool := decide (m.loc = .egress p sc)
def inIngress (p mc : Nat) (m : Msg) : Bool := decide (m.loc = .ingress p) && decide (mcOf m.kind = mc)

/-- A residue copy has a reference in an egress queue. -/
def Msg.refIn (m : Msg) (p sc : Nat) : Bool := m.refs.any (fun x => decide (x.port = p) && decide (x.sc = sc) && !x.waiting)

/-- A message stands in an egress queue: itself, or by a reference of its residue copy. -/
def Msg.inQueue (m : Msg) (p sc : Nat) : Bool := inEgress p sc m || m.refIn p sc

/-- Messages of an egress queue, in order: its own and the references that the residue copies hold for it. -/
def Chip.egressQ (s : Chip) (p sc : Nat) : List Msg := s.msgs.filter (fun m => m.inQueue p sc)

/-- A reference waits for an egress queue, in the residue queue or before it in a copy of the region itself: the queue takes it before
any other message (R78). -/
def Chip.refWaits (s : Chip) (p sc : Nat) : Bool :=
  s.msgs.any (fun m => (decide (m.loc = .residue (p / 16)) || decide (m.loc = .landing (p / 16) (p / 16))) &&
    m.refs.any (fun x => decide (x.port = p) && decide (x.sc = sc) && x.waiting))

def Chip.egShared (s : Chip) (p sc : Nat) : Nat := ((s.msgs.filter (inEgress p sc)).map (·.shared)).sum
def Chip.egRsv (s : Chip) (p sc : Nat) : Nat := ((s.msgs.filter (inEgress p sc)).map (·.rsv)).sum
def Chip.egHeld (s : Chip) (p sc : Nat) : Nat := s.egShared p sc + s.egRsv p sc

def Chip.egThreshold (s : Chip) (p sc : Nat) : Nat := threshold (s.alphaSc (p / 16) sc) (s.free (p / 16))

/-- An egress queue is open (R72). A port that is down or being flushed takes nothing (Table 4.5), nor does a trunk whose partner runs
without 256-byte flits (R32). -/
def Chip.egOpen (s : Chip) (p sc : Nat) : Bool :=
  decide (s.role p ≠ 0) && !(s.port p).flushing && (s.port p).up && !(s.port p).noTraffic &&
    (decide (s.egShared p sc < s.egThreshold p sc) || decide (s.egRsv p sc < 8))

/-- An egress queue is pressed (R96): its shared holding is at or above half of floor(α × F). -/
def Chip.egPressed (s : Chip) (p sc : Nat) : Bool := decide (s.egThreshold p sc ≤ 2 * s.egShared p sc)

/-- Slots that an egress queue would take from its reserve and from the pool for `n` slots (R68). -/
def Chip.egSplit (s : Chip) (p sc n : Nat) : Nat × Nat :=
  let r := min n (8 - s.egRsv p sc)
  (r, n - r)

/-- An egress queue admits `n` slots (R69, R72): open, and the pool admits what the reserve does not take. -/
def Chip.egAdmits (s : Chip) (p sc n : Nat) : Bool :=
  let (_, sh) := s.egSplit p sc n
  s.egOpen p sc && (decide (sh = 0) || decide (s.egShared p sc + sh ≤ s.egThreshold p sc))

/-- The lowest FREE seen (BUF_POOL_MIN) and the highest HELD of an egress queue (BUF_EQ.PEAK). -/
def Chip.notePool (s : Chip) (r : Nat) : Chip :=
  if s.free r < s.fld F.BUF_POOL_MIN.LOWEST r then s.set F.BUF_POOL_MIN.LOWEST (s.free r) r else s

def Chip.notePeak (s : Chip) (p sc : Nat) : Chip :=
  let s := s.notePool (p / 16)
  if s.egHeld p sc > s.fld F.BUF_EQ.PEAK p sc then s.set F.BUF_EQ.PEAK (s.egHeld p sc) p sc else s

/-! ## Messages -/

def Chip.msg? (s : Chip) (id : Nat) : Option Msg := s.msgs.find? (fun m => decide (m.id = id))
def Chip.delMsg (s : Chip) (id : Nat) : Chip := { s with msgs := s.msgs.filter (fun m => decide (m.id ≠ id)) }
/-- Changing a message in place. -/
def Chip.modMsg (s : Chip) (id : Nat) (f : Msg → Msg) : Chip :=
  { s with msgs := s.msgs.map (fun m => if m.id = id then f m else m) }
/-- Moving a message to the end of another queue. -/
def Chip.moveMsg (s : Chip) (m : Msg) : Chip :=
  { s with msgs := s.msgs.filter (fun x => decide (x.id ≠ m.id)) ++ [m] }
/-- A new message, named freshly. -/
def Chip.newMsg (s : Chip) (m : Msg) : Chip :=
  ({ s with msgs := s.msgs ++ [{ m with id := s.nextId }] }).fresh

def Chip.open? (s : Chip) (id : Nat) : Option OpenReq := s.opens.find? (fun o => decide (o.id = id))
def Chip.delOpen (s : Chip) (id : Nat) : Chip := { s with opens := s.opens.filter (fun o => decide (o.id ≠ id)) }
def Chip.modOpen (s : Chip) (id : Nat) (f : OpenReq → OpenReq) : Chip :=
  { s with opens := s.opens.map (fun o => if o.id = id then f o else o) }

/-- Counting a transaction whose last response reaches its initiator (R225); TRANSACTION_END enters it in the statistics. -/
def Chip.endStat (s : Chip) (id ini start rd wr : Nat) : Chip :=
  { s with ended := s.ended ++ [{ id := id, initiator := ini, lat := s.time - start, rd := rd, wr := wr }] }

/-- A CXL.cache request with a further response or data message noted: a response whose `want` is not 0 announces data. -/
def OpenReq.note (o : OpenReq) (m : Msg) : OpenReq :=
  match mcOf m.kind with
  | 10 => { o with gotRsp := true, due := o.due || decide (m.want ≠ 0) }
  | 11 => { o with gotData := true }
  | _ => o

/-- Whether a response is the last of those its request awaits; the home slice ends a grove request itself, and a
CXL.cache request awaits its response and the data due. -/
def lastResponse (o : OpenReq) (m : Msg) : Bool :=
  match mcOf m.kind with
  | 10 | 11 => let o := o.note m; o.gotRsp && (!o.due || o.gotData)
  | _ => !isRequest m.kind && o.grove.isNone

/-- A response is handed to the egress queue of its requester (R225). -/
def Chip.handed (s : Chip) (m : Msg) : Chip :=
  if m.killed then s
  else match m.stat with
  | some (id, ini, start, rd, wr) => s.endStat id ini start rd wr
  | none => match s.open? m.opn with
    | none => s
    | some o =>
      if lastResponse o m && (decide (m.dest = o.rport) || decide (mcOf m.kind = 11)) then
        s.endStat o.id o.initiator o.start o.rd o.wr
      else s

/-- Virtual channel of a message on the interior network (Table 11.2): 0 bulk, 1 priority. -/
def vcOf (k : MsgKind) : Nat :=
  match mcOf k with
  | 2 | 5 | 6 | 7 | 8 | 10 | 11 => 1
  | 9 => if k = .h2dReq then 1 else 0
  | _ => 0

/-- Place of a message's header in the order of arrival at the node it is at. -/
def Msg.ord (m : Msg) : Nat :=
  match m.parts.find? (fun p => decide (p.net = headerNet m.kind)) with
  | some p => p.ord
  | none => m.id

/-- A message whose parts have all landed and that no earlier message of its source node, network and virtual channel, by the
order in which headers landed, precedes in the landing area (R213). -/
def Chip.landedInTurn (s : Chip) (m : Msg) : Bool :=
  m.parts.all (fun p => p.landed && !p.held) &&
    !(s.msgs.any (fun x => decide (x.loc = m.loc) && decide (headerNet x.kind = headerNet m.kind) &&
      decide (vcOf x.kind = vcOf m.kind) && decide (x.ord < m.ord)))

/-- Placing a message in an egress queue, reserve first (R68). -/
def Chip.toEgress (s : Chip) (m : Msg) (p sc : Nat) : Chip :=
  let s := s.delMsg m.id
  let (r, sh) := s.egSplit p sc (slotsOf m.len)
  ((s.moveMsg { m with loc := .egress p sc, rsv := r, shared := sh, sc := sc, parts := [], lcred := false, dest := p
                       arrived := s.time }).handed { m with dest := p }).notePeak p sc

/-- An egress queue takes a message now (R69, R78): it admits the slots, and no reference waits for it. -/
def Chip.egTakes (s : Chip) (p sc n : Nat) : Bool := s.egAdmits p sc n && !s.refWaits p sc

/-- An older message of the chip's own waits at its node for the same egress queue. -/
def Chip.sentWaits (s : Chip) (r : Nat) (m : Msg) : Bool :=
  (s.msgs.takeWhile (fun x => decide (x.id ≠ m.id))).any (fun x => decide (x.loc = .inject r) && decide (x.toNode = r) &&
    decide (x.dest = m.dest) && decide (x.sc = m.sc) && !x.toHome)

/-- Sending a message that the chip makes itself, from region or hub node `r` to its egress port: into the egress queue of
its own region if that takes it, behind those that wait there, or to the mesh. -/
def Chip.send (s : Chip) (r : Nat) (m : Msg) : Chip :=
  let m := { m with id := s.nextId, arrived := s.time, fromNode := r, toNode := m.dest / 16 }
  let s := s.fresh
  if r = m.dest / 16 ∧ s.egTakes m.dest m.sc (slotsOf m.len) = true ∧ s.sentWaits r m = false then s.toEgress m m.dest m.sc
  else s.moveMsg { m with loc := .inject r, rsv := 0, shared := 0 }

/-- Sending a message to the home slice of region `h` (R152). -/
def Chip.sendHome (s : Chip) (r h : Nat) (m : Msg) : Chip :=
  let m := { m with id := s.nextId, arrived := s.time, fromNode := r, toNode := h }
  let s := s.fresh
  if r = h then s.moveMsg { m with loc := .home h, rsv := 0, shared := 0 }
  else s.moveMsg { m with loc := .inject r, rsv := 0, shared := 0 }

/-! ## Service classes (R85 to R87) -/

/-- Codes of a classification entry: SC2 to SC11, any other is treated as 4 (R86). -/
def scCode (v : Nat) : Nat := if 2 ≤ v ∧ v ≤ 11 then v else 4

/-- Service class of a message from ingress port `p` (Tables 5.1 and QOS_CLASS). Table 5.1 and R86 name upstream and downstream
ingresses only; MC9 from any other port takes CACHE_REQ: DESIGN CHOICE (log entry 121). -/
def Chip.classify (s : Chip) (p : Nat) (k : MsgKind) : Nat :=
  match mcOf k with
  | 0 => scCode (s.fld F.QOS_CLASS.IO_P p)
  | 1 => scCode (s.fld F.QOS_CLASS.IO_NP p)
  | 3 => scCode (s.fld F.QOS_CLASS.MEM_REQ p)
  | 4 => scCode (s.fld F.QOS_CLASS.MEM_RWD p)
  | 5 | 8 => 0
  | 9 => if s.role p = 1 then 0 else scCode (s.fld F.QOS_CLASS.CACHE_REQ p)
  | _ => 1

def Chip.scMover (s : Chip) (r : Nat) : Nat := scCode (s.fld F.QOS_HUB.MOVER r)
def Chip.scMgmt (s : Chip) (r : Nat) : Nat := scCode (s.fld F.QOS_HUB.MGMT r)

/-! ## Contracts (R92 to R95) -/

/-- A contract applies to port `p` (R92). -/
def Chip.contracted (s : Chip) (p : Nat) : Bool := decide (s.role p = 1) && s.is F.QOS_CON_CFG.EN p

/-- The message is metered by the contract of port `p` (R92); BIConflict is not (R172). -/
def Chip.meters (s : Chip) (p : Nat) (k : MsgKind) : Bool :=
  s.contracted p &&
    (match mcOf k with
      | 0 | 1 | 3 | 4 => decide (k ≠ .biConflict)
      | _ => false)

/-- Payload that an io-NP request brings back (R93): a read what it asks for, an AtomicOp its operand size, a configuration or I/O
read four bytes. -/
def cplBytes (k : MsgKind) (want : Nat) : Option Nat :=
  match k with
  | .ioRd => some want
  | .ioAtomic _ size => some size
  | .cfgRd | .ioPortRd => some 4
  | _ => none

/-- Charge of a message (R93). A completion's header is 12 bytes long. -/
def Chip.chargeOf (s : Chip) (p : Nat) (k : MsgKind) (len want : Nat) (longHdr : Bool) : Nat :=
  let fm := s.flitMode p
  let resp :=
    if s.is F.QOS_CON_CFG.READ_CHARGE p then
      match k with
      | .memRd | .memRdData => 80
      | k => match cplBytes k want with
        | some n => flitBytes fm .cplD n false
        | none => 0
    else 0
  let t := flitBytes fm k len longHdr + resp
  t + (t * s.fld F.QOS_CON_CFG.OVH p + 255) / 256

/-- Ceiling of a port's buckets in 1/125 byte. -/
def Chip.conCeil (s : Chip) (p : Nat) : Int := (max 1 (s.fld F.QOS_CON_CFG.DEPTH p) * 64 * 125 : Nat)

/-- Cap rate in force (R95): a CAP.RATE below MIN.RATE is MIN.RATE. So is a CAP.RATE of 0 beside a MIN.RATE above 0, which then
holds nothing: DESIGN CHOICE (log entry 120), for R95 says both that it is MIN.RATE and that it holds. -/
def Chip.capRate (s : Chip) (p : Nat) : Nat := max (s.fld F.QOS_CON_CAP.RATE p) (s.fld F.QOS_CON_MIN.RATE p)

/-- The number of 64 ns edges of the time base that have passed (R94). -/
def Chip.edge (s : Chip) : Nat := s.time / (64 * nsT)

/-- The buckets fill (R94); the next refill is at the next edge. -/
def Chip.fillBuckets (s : Chip) (p : Nat) : Chip :=
  s.modPort p (fun x => { x with bMin := s.conCeil p, bCap := s.conCeil p, refill := s.edge, capHeld := decide (s.capRate p = 0) })

/-- Credits of a message are returned to the partner (R70): its header and its data. -/
def Chip.returnCredit (s : Chip) (m : Msg) : Chip :=
  match m.iport with
  | some p => s.out (.credit p (mcOf m.kind) 1 m.len)
  | none => s

/-- A message leaves its ingress queue: the credits of one charged to the reserve are returned (R70). -/
def Chip.leaveIngress (s : Chip) (m : Msg) : Chip :=
  if m.rsv > 0 then s.returnCredit m else s

/-- A message of an ingress queue is freed there: credits not yet returned go back (R70, R94). -/
def Chip.freeIngress (s : Chip) (m : Msg) : Chip :=
  (match m.loc with
    | .ingress _ => if m.rsv > 0 ∨ m.released = false then s.returnCredit m else s
    | _ => s).delMsg m.id

/-- A message is released by its contract (R94): its credits are returned unless it holds reserved slots, and one that was answered
at its ingress leaves it. -/
def Chip.releaseMsg (s : Chip) (m : Msg) : Chip :=
  let s := s.modMsg m.id (fun y => { y with released := true, capCharged := true, relAt := s.time })
  if m.spent then (s.returnCredit m).delMsg m.id else if m.rsv = 0 then s.returnCredit m else s

/-- A message of port `p` that its contract has not released. -/
def Msg.unreleased (m : Msg) (p : Nat) : Bool := m.metered && !m.released && decide (m.iport = some p)

/-- Releasing waiting messages of port `p` in arrival order, each once cap after its own charge is at or above 0 (R94), and none
while the cap rate of the latest refill was 0 (R95). The list is the messages still to be looked at. -/
def releaseFrom (p : Nat) : List Msg → Chip → Chip
  | [], s => s
  | m :: ms, s =>
    if !m.unreleased p then releaseFrom p ms s
    else
      let s := if m.capCharged then s
        else (s.modPort p (fun x => { x with bCap := x.bCap - (m.charge * 125 : Nat) })).modMsg m.id
          (fun y => { y with capCharged := true })
      if (s.port p).bCap < 0 ∨ (s.port p).capHeld = true then s
      else releaseFrom p ms (s.releaseMsg m)

def Chip.release (s : Chip) (p : Nat) : Chip := releaseFrom p s.msgs s

/-- The buckets of port `p` gain the rates of `k` refills, up to the ceiling, to which contents above it are cut (R94, R95). -/
def Chip.refillBy (s : Chip) (p k : Nat) : Chip :=
  let c := s.conCeil p
  s.modPort p (fun x => { x with
    bMin := min (x.bMin + (k * s.fld F.QOS_CON_MIN.RATE p : Nat)) c
    bCap := min (x.bCap + (k * s.capRate p : Nat)) c
    refill := x.refill + k
    capHeld := decide (s.capRate p = 0) })

/-- The refills of `k` edges, each followed by its releases while messages wait. -/
def refillEdges (p : Nat) : Nat → Chip → Chip
  | 0, s => s
  | k + 1, s =>
    if s.msgs.any (fun m => m.unreleased p) then refillEdges p k ((s.refillBy p 1).release p) else s.refillBy p (k + 1)

/-- The refills of every edge that has passed since the latest (R94). -/
def Chip.refills (s : Chip) (p : Nat) : Chip := refillEdges p (s.edge - (s.port p).refill) s

/-- CONTRACT_BUCKET_REFILL (R94, R95): the contract of port `p` is refilled for the edges that have passed. -/
def contractRefill (p : Nat) (s : Chip) : Chip := s.refills p

/-- The min bucket as the edges that have passed leave it. -/
def Chip.minNow (s : Chip) (p : Nat) : Int :=
  let x := s.port p
  if s.edge ≤ x.refill then x.bMin
  else min (x.bMin + ((s.edge - x.refill) * s.fld F.QOS_CON_MIN.RATE p : Nat)) (s.conCeil p)

/-- The write that enables a contract fills its buckets (R94). -/
def contractEnable (p : Nat) (s : Chip) : Chip :=
  if s.is F.QOS_CON_CFG.EN p then s
  else ((s.set F.QOS_CON_CFG.EN 1 p).fillBuckets p)

/-- A write of QOS_CON_CFG, which applies from the next edge (R95): EN from 0 to 1 fills the buckets; EN to 0 releases what waits. -/
def conCfgWrite (p v : Nat) (s : Chip) : Chip :=
  let was := s.is F.QOS_CON_CFG.EN p
  let s := s.refills p
  let s := s.wr .QOS_CON_CFG p 0 (w32 (accessWrite .QOS_CON_CFG false (s.rd .QOS_CON_CFG p).toNat v))
  let now := s.is F.QOS_CON_CFG.EN p
  if now && !was then s.fillBuckets p
  else if !now && was then foldl' (s.msgs.filter (fun m => m.unreleased p)) (fun m s => s.releaseMsg m) s
  else s

/-- A committed message of an ingress queue that its contract released over 100 µs ago and whose egress queue is closed. -/
def Chip.waitsLong (s : Chip) (p : Nat) (m : Msg) : Bool :=
  decide (m.loc = .ingress p) && m.metered && m.committed && m.released && !(s.egOpen m.dest m.sc) && !m.toHome &&
    decide (m.relAt + 100 * usT < s.time)

/-- COMMITTED_WAIT_TIMEOUT (R99): MIN_SHORT is set; the notice, at most one a second, names the ingress port by its register and
the egress port and service class of the oldest message that waits. -/
def committedWait (p : Nat) (s : Chip) : Chip :=
  match s.msgs.find? (s.waitsLong p) with
  | none => s
  | some m =>
    let s := s.set F.QOS_CON_STS.MIN_SHORT 1 p
    let quiet := match (s.port p).shortAt with
      | some t => decide (s.time < t + secT)
      | none => false
    if quiet then s
    else
      let s := s.modPort p (fun x => { x with shortAt := some s.time, shortFor := some (m.dest, m.sc) })
      (s.count (cntRegion (p / 16) 9)).regionFault (p / 16) 8 clsC

/-! ## Admission to ingress queues (R68, R69) -/

/-- Slots of an arriving message: the shared pool first, its queue's reserve where the pool refuses. -/
def Chip.admitIngress (s : Chip) (p : Nat) (m : Msg) : Chip :=
  let r := p / 16
  let n := slotsOf m.len
  let held := ((s.msgs.filter (inIngress p (mcOf m.kind))).map (·.shared)).sum
  if held + n ≤ threshold (s.alphaSc r (s.classify p m.kind)) (s.free r) then
    let s := s.moveMsg { m with loc := .ingress p, shared := n, rsv := 0 }
    let s := (s.notePool r).count (cntRegion r 0)
    if m.released then s.returnCredit m else s
  else
    (s.moveMsg { m with loc := .ingress p, shared := 0, rsv := n }).count (cntRegion r 1)

/-- An older message of the same ingress port, class and egress port is still in the ingress queue (R75). -/
def Chip.olderWaits (s : Chip) (m : Msg) : Bool :=
  s.msgs.any (fun x => decide (x.id < m.id) && decide (x.loc = m.loc) && decide (mcOf x.kind = mcOf m.kind) &&
    decide (x.dest = m.dest) && decide (x.toHome = m.toHome) && decide (x.toNode = m.toNode) && !x.spent)

/-- The conditions of R71, R78 and R96 on a message in an ingress queue, for an egress queue of its own region. -/
def Chip.mayLeave (s : Chip) (m : Msg) : Bool :=
  m.released && !m.spent && !s.olderWaits m && s.egTakes m.dest m.sc (slotsOf m.len) && (m.committed || !s.egPressed m.dest m.sc)

/-- A landed message that its egress queue, in region `d`, takes under the overshoot rule (R72). -/
def Chip.landReady (s : Chip) (d : Nat) (m : Msg) : Bool :=
  (match m.loc with
    | .landing x _ => decide (x = d)
    | _ => false) && !m.toHome && m.refs.isEmpty && decide (m.dest / 16 = d) && s.landedInTurn m && !s.refWaits m.dest m.sc &&
    decide (s.egShared m.dest m.sc < s.egThreshold m.dest m.sc + s.fld F.BUF_CFG.OVERSHOOT d)

/-- Another offer to the egress queue of an ingress message is decided before it (R69): a landed message, or one of an ingress
queue of lower number, port before class. -/
def Chip.outranked (s : Chip) (p : Nat) (m : Msg) : Bool :=
  s.msgs.any (fun y => decide (y.dest = m.dest) && decide (y.sc = m.sc) && (s.landReady (p / 16) y ||
    (match y.loc with
      | .ingress q => decide (q / 16 = p / 16) && !y.toHome && decide (16 * q + mcOf y.kind < 16 * p + mcOf m.kind) && s.mayLeave y
      | _ => false)))

/-- The posted fence of a message that goes to egress port `d` (R76, Table 4.4): the latest io-P of its ingress port to that port. -/
def Chip.fenceOf (s : Chip) (p d : Nat) (k : MsgKind) (ro ido : Bool) (rid : Nat) : Nat :=
  if (mcOf k = 1 ∨ mcOf k = 2) ∧ ro = false then
    ((s.msgs.filter (fun x => decide (x.iport = some p) && decide (mcOf x.kind = 0) && decide (x.dest = d) &&
      !x.spent && (!ido || decide (x.rid = rid)))).map (·.id)).foldl max 0
  else 0

/-- State of an egress queue as the other regions know it (R72, R96). -/
def Chip.seenOpen (s : Chip) (p sc : Nat) : Bool := bitAt (s.qOpen.get 0 p) sc
def Chip.seenPressed (s : Chip) (p sc : Nat) : Bool := bitAt (s.qPressed.get 0 p) sc

/-! ## The residue queue (R77, R78) -/

/-- The residue queue admits `n` slots (R68, R69). -/
def Chip.residueSplit (s : Chip) (r n : Nat) : Option (Nat × Nat) :=
  let mine := s.msgs.filter (fun m => decide (m.loc = .residue r))
  let rsv := (mine.map (·.rsv)).sum
  let sh := (mine.map (·.shared)).sum
  let a := min n (s.resRsv r - rsv)
  if n - a = 0 ∨ sh + (n - a) ≤ threshold (s.fld F.BUF_ALPHA1.RES_ALPHA r) (s.free r) then some (a, n - a) else none

/-- A multicast copy in region `d` is stored once in the residue queue (R77): open queues take a reference at once, behind the
references that wait for them, closed ones wait. Where the residue queue does not admit it, it stays in the landing area. -/
def Chip.storeCopy (s : Chip) (d : Nat) (m : Msg) : Chip :=
  match s.residueSplit d (slotsOf m.len) with
  | none => s.moveMsg { m with loc := .landing d d, rsv := 0, shared := 0, parts := [], lcred := false }
  | some (a, b) =>
    let s := s.delMsg m.id
    let refs := m.refs.map (fun x => { x with waiting := !s.egOpen x.port x.sc || s.refWaits x.port x.sc })
    let s := (s.count (cntRegion d 3)).count (cntRegion d 4) refs.length
    if refs.isEmpty then s
    else (s.moveMsg { m with loc := .residue d, refs := refs, rsv := a, shared := b, lcred := false, parts := [] }).notePool d

/-! ## The egress scheduler (R88 to R91) -/

/-- The link holds credit for the whole message (R73). -/
def Chip.hasCredit (s : Chip) (p : Nat) (m : Msg) : Bool :=
  decide (1 ≤ (s.port p).crHdr.get 0 (mcOf m.kind)) && decide (m.len ≤ (s.port p).crData.get 0 (mcOf m.kind))

/-- No posted fence holds the message (R76): the io-P it names has been transmitted to its egress port. -/
def Chip.unfenced (s : Chip) (m : Msg) : Bool :=
  decide (m.fence = 0) || (match s.msg? m.fence with
    | none => true
    | some f => !f.refs.isEmpty && !f.refs.any (fun x => decide (x.port = m.dest)))

/-- Candidates of a queue: the oldest message of each message class (R88). -/
def candidatesOf : List Msg → List Nat → List Msg
  | [], _ => []
  | m :: ms, seen =>
    if seen.contains (mcOf m.kind) then candidatesOf ms seen
    else m :: candidatesOf ms (mcOf m.kind :: seen)

/-- A BISnp of a home slice waits while the region's snooped-line records are all in use (R174). -/
def Chip.mayRecord (s : Chip) (p : Nat) (m : Msg) : Bool :=
  !(decide (mcOf m.kind = 8) && decide (m.txn ≠ 0)) ||
    decide ((s.snooped.filter (fun x => decide (x.1 / 16 = p / 16))).length < 4096)

def Chip.eligible (s : Chip) (p : Nat) (m : Msg) : Bool := s.hasCredit p m && s.unfenced m && s.mayRecord p m

/-- The oldest message promoted to class `sc` at port `p`: promoted messages are sent oldest first (R91). -/
def Chip.promotedTo (s : Chip) (p sc : Nat) : Option Msg :=
  s.msgs.find? (fun m => decide (m.promoted = some sc) && (List.range 12).any (m.inQueue p))

/-- The oldest eligible candidate of class `sc` at port `p`, with the promoted message that it may send (R88, R91). -/
def Chip.candidate (s : Chip) (p sc : Nat) : Option Msg :=
  let own := candidatesOf (s.egressQ p sc) []
  s.msgs.find? (fun m => s.eligible p m &&
    (own.any (fun x => decide (x.id = m.id)) || decide ((s.promotedTo p sc).map (·.id) = some m.id)))

/-- Promotion of the posted messages that fence a candidate of a strict class (R91), also of those promoted to a lower one. -/
def promoteFor (p : Nat) (c : Msg) (sc : Nat) (s : Chip) : Chip :=
  match s.msg? c.fence with
  | none => s
  | some f =>
    match (List.range 12).find? (f.inQueue p) with
    | none => s
    | some fsc =>
      if fsc > sc ∧ (mcOf c.kind = 1 ∨ mcOf c.kind = 2) ∧ c.fence ≠ 0 then
        let older := (s.msgs.takeWhile (fun x => decide (x.id ≠ f.id))).filter (fun x =>
          x.inQueue p fsc && decide (mcOf x.kind = 0) && decide (x.iport = f.iport))
        let new := (older ++ [f]).filter (fun x => match x.promoted with
          | none => true
          | some k => decide (sc < k))
        if new.isEmpty then s
        else
          let s := foldl' new (fun x s => s.modMsg x.id (fun y => { y with promoted := some sc })) s
          (s.set F.QOS_EGR_STS.PROMOTED 1 p).count (cntRegion (p / 16) 10)
      else s

/-- Promotions at a port, strict class by strict class. -/
def promoteAll (p : Nat) (s : Chip) : Chip :=
  foldl' [0, 1, 2, 3] (fun sc s => foldl' (candidatesOf (s.egressQ p sc) []) (fun c s => promoteFor p c sc s) s) s

/-- Weight of a class of the weighted group. -/
def Chip.weight (s : Chip) (p sc : Nat) : Nat :=
  max 1 (if sc < 8 then bitsOf (s.rd .QOS_WEIGHT0 p).toNat (8 * (sc - 4)) 8
    else bitsOf (s.rd .QOS_WEIGHT1 p).toNat (8 * (sc - 8)) 8)

/-- Bytes that a message counts in its deficit. -/
def Chip.lenOf (s : Chip) (p : Nat) (m : Msg) : Nat := flitBytes (s.flitMode p) m.kind m.len m.longHdr

/-- The weighted rounds of select() (R89): at most `fuel` rounds, deficits and pointer as they go. -/
def selectRounds (s : Chip) (p : Nat) : Nat → Tab Int → Nat → Option Msg × Tab Int × Nat
  | 0, d, ptr => (none, d, ptr)
  | fuel + 1, d, ptr =>
    let sc := 4 + ptr
    let c := s.candidate p sc
    let take := match c with
      | some m => decide ((s.lenOf p m : Int) ≤ d.get 0 sc)
      | none => false
    match take, c with
    | true, some m => (some m, d.set 0 sc (d.get 0 sc - (s.lenOf p m : Nat)), ptr)
    | _, _ =>
      let d := if (s.egressQ p sc).isEmpty then d.set 0 sc 0 else d
      let ptr := (ptr + 1) % 8
      let sc := 4 + ptr
      let q : Nat := 64 * s.weight p sc
      let d := d.set 0 sc (min (d.get 0 sc + q) ((q : Int) + 544))
      selectRounds s p fuel d ptr

/-- select() of R89: the message chosen, and the deficits and pointer after. A promoted message is charged to its own class. -/
def Chip.select (s : Chip) (p : Nat) : Option Msg × Tab Int × Nat :=
  let x := s.port p
  match ([0, 1, 2, 3].filterMap (s.candidate p)).head? with
  | some m =>
    let own := ((List.range 12).find? (m.inQueue p)).getD m.sc
    let d := if own ≥ 4 then x.deficit.set 0 own (x.deficit.get 0 own - (s.lenOf p m : Nat)) else x.deficit
    (some m, d, x.ptr)
  | none => selectRounds s p 8 x.deficit x.ptr

/-- Spending the link credits of a message. -/
def Chip.spend (s : Chip) (p : Nat) (m : Msg) : Chip :=
  let c := mcOf m.kind
  s.modPort p (fun x => { x with
    crHdr := x.crHdr.set 0 c (x.crHdr.get 0 c - 1)
    crData := x.crData.set 0 c (x.crData.get 0 c - m.len) })

/-- LINK_CREDIT_RETURN (R73): the partner returns headers and data bytes of a class. -/
def linkCreditReturn (p mc hdr dat : Nat) (s : Chip) : Chip :=
  s.modPort p (fun x => { x with
    crHdr := x.crHdr.set 0 mc (x.crHdr.get 0 mc + hdr)
    crData := x.crData.set 0 mc (x.crData.get 0 mc + dat) })

/-- What the transmission of a message on its egress link ends (R137): the request of a posted message or MemSpecRd, and the
request that a response answers; a grove request is open until its line is unblocked. -/
def Chip.onSent (s : Chip) (m : Msg) : Chip :=
  match s.open? m.opn with
  | none => s
  | some o =>
    if o.grove.isSome then s
    else if isRequest m.kind then
      if isPosted o.kind then s.delOpen o.id else s.modOpen o.id (fun o => { o with sent := true })
    else if lastResponse o m then s.delOpen o.id else s.modOpen o.id (fun o => o.note m)

/-- The address that a message carries on the link of port `p`: a device address toward a device, and for a snoop of a home
slice the address at which the member sees the line. -/
def Chip.linkAddr (s : Chip) (p : Nat) (m : Msg) : Nat :=
  if s.role p ≠ 1 then m.dpa
  else match m.grove, s.instOf p with
    | some (g, gw), some n => if mcOf m.kind = 8 then s.hpaOf n g gw m.addr else m.addr
    | _, _ => m.addr

/-- The tag that a message carries on its egress link: a number of the chip's own where the answer comes back to the chip. -/
def linkTag (m : Msg) : Nat := if m.inn ≠ 0 then m.inn else if isRequest m.kind && decide (m.opn ≠ 0) then m.opn else m.tag

/-- A failed copy of a message ends with EDB on a PCI Express egress without flit mode, and is poisoned on any other (R74). -/
def Chip.endsEdb (s : Chip) (p : Nat) (m : Msg) : Bool := !s.flitMode p && decide (mcOf m.kind ≤ 2)

/-- A message goes out on the link of port `p`: credits spent, counted; a copy whose tail has not arrived is noted (R74). -/
def Chip.sendOn (s : Chip) (p : Nat) (m : Msg) : Chip :=
  let s := (s.spend p m).out (.link p m.kind (linkTag m) (s.linkAddr p m) m.data m.poison m.status m.ld m.pbr m.mv m.noOp)
  let s := s.count (cntCell p 1)
  let s := if m.edb then s.out (.ended p (linkTag m) true) else s
  if m.tail then s
  else { s with cuts := s.cuts ++ [{ id := if m.origin = 0 then m.id else m.origin, iport := m.iport.getD 128, port := p, tag := linkTag m
                                     opn := m.opn, edb := s.endsEdb p m, inn := m.inn
                                     req := if isRequest m.kind then none else s.open? m.opn }] }

/-- What a reference sends: for a copy of a mirrored write, at its own device address. -/
def Msg.via (m : Msg) (x : McRef) : Msg :=
  if x.inn = 0 then m else { m with dest := x.port, sc := x.sc, ld := x.ld, dpa := x.dpa, inn := x.inn, refs := [] }

/-- The oldest eligible message is transmitted on the link (R89), the slot or reference freed. `none` where nothing is
eligible; promotions and deficits are kept. -/
def Chip.transmit (s : Chip) (p : Nat) : Option Msg × Chip :=
  let s := promoteAll p s
  let (c, d, ptr) := s.select p
  let s := s.modPort p (fun x => { x with deficit := d, ptr := ptr })
  match c with
  | none => (none, s)
  | some m =>
    match m.refs.find? (fun (x : McRef) => decide (x.port = p) && !x.waiting) with
    | none => (some m, ((s.sendOn p m).delMsg m.id).onSent m)
    | some x =>
      let y := m.via x
      let s := s.sendOn p y
      let left := m.refs.erase x
      let s := if left.isEmpty then s.delMsg m.id else s.modMsg m.id (fun z => { z with refs := left })
      (some y, s.onSent y)

end Sys2Proof.Machine
end

