-- ==== Sys2Proof/Machine/Complete.lean ====
section
/-! DEFINITION. Completions that the chip gives itself: of denied requests (Table 7.3), of flushed messages and outstanding
requests (Table 4.6), with what a virtual bridge logs of them (R82, R116). -/

namespace Sys2Proof.Machine

/-! ## What a virtual bridge logs -/

/-- The errors a virtual bridge logs through AER. -/
inductive AerErr where
  | surpriseDown | unsupported | internal | acs
  deriving DecidableEq, Repr

/-- A virtual bridge logs an error through AER. No bridge logs it where the request is of no virtual switch (64), or of a host and
for no bridge (64): DESIGN CHOICE (log entry 136). -/
def Chip.aerLog (s : Chip) (n v : Nat) (e : AerErr) : Chip :=
  if n ≥ 64 ∨ v ≥ 64 then s else
  (s.modVppb n v (fun x => match e with
    | .surpriseDown => { x with aerSd := true }
    | .unsupported => { x with aerUr := true }
    | .internal => { x with aerUie := true }
    | .acs => { x with aerAcs := true })).out (.aer n v (decide (e ≠ .unsupported)))

/-- The bridges bound to a port log a Surprise Down error. -/
def Chip.surpriseDown (s : Chip) (n v : Nat) : Chip := s.aerLog n v .surpriseDown

/-! ## Responses -/

/-- Data of a response that carries poison or that the spec gives a fixed content: all zeros, or all ones. -/
def zeros (n : Nat) : List Byte := List.replicate n 0
def ones (n : Nat) : List Byte := List.replicate n 0xFF

/-- Completion status codes of PCI Express. -/
def cplSC : Nat := 0
def cplUR : Nat := 1
def cplCRS : Nat := 2
def cplCA : Nat := 4

/-- A response to an open request, sent from node `r` to its requester. Nothing is sent to a requester that gets no further
response or whose port is down; the request then ends. A request completed by a denial, a flush or a squash (`killed`) ends at
once (R137), and its later responses find no request. -/
def Chip.respond (s : Chip) (r : Nat) (o : OpenReq) (k : MsgKind) (data : List Byte) (poison : Bool) (status : Nat)
    (killed : Bool) : Chip :=
  let s := if killed then s.delOpen o.id else s
  if o.mute || !(s.port o.rport).up || (s.port o.rport).flushing then
    if o.grove.isSome then s else s.delOpen o.id
  else
    s.send r
      { id := 0, kind := k, src := o.initiator, iport := none, region := r, inst := o.inst, vb := o.vb, tag := o.tag,
        addr := o.addr, dpa := o.dpa, dest := o.rport, ld := o.ld, len := data.length, data := data, poison := poison,
        status := status, sc := if mcOf k = 8 ∨ mcOf k = 5 then 0 else 1, opn := if killed then 0 else o.id, killed := killed
        loc := .inject r }

/-- An open request that gets no response ends. -/
def Chip.discard (s : Chip) (o : OpenReq) : Chip := s.delOpen o.id

/-- Completion of an open request as if toward a down port (Table 4.6, middle column), sent from node `r`. A D2H Req is due data
where it asks for some. -/
def Chip.complete46 (s : Chip) (r : Nat) (o : OpenReq) : Chip :=
  match o.kind with
  | .ioWr | .ioMsg | .ioMsi => (s.surpriseDown o.inst o.vb).discard o
  | .ioRd | .cfgRd | .cfgWr | .ioPortRd | .ioPortWr | .uioWr | .ioAtomic _ _ =>
    s.respond r o .cpl [] false (if (s.vppb o.inst o.vb).dpcCa then cplCA else cplUR) true
  | .memRd | .memRdData => s.respond r o .memData (zeros 64) true 0 true
  | .memInv => s.respond r o .cmp [] false 0 true
  | .memWr | .memWrPtl => (s.surpriseDown o.inst o.vb).respond r o .cmp [] false 0 true
  | .biSnpCur | .biSnpData | .biSnpInv => s.respond r o .biRspI [] false 0 true
  | .d2hReq =>
    let s := s.respond r o .h2dRsp [] false 1 true
    if (o.due || decide (o.want ≠ 0)) && !o.gotData then s.respond r o .h2dData (ones 64) false 0 true else s
  | .h2dReq => (s.aerLog o.inst o.vb .internal).respond r o .d2hRsp [] false 0 true
  | _ => s.discard o

/-- Completion of a denied request (Table 7.3), at its ingress region `r`. -/
def Chip.completeDenied (s : Chip) (r : Nat) (o : OpenReq) : Chip :=
  match o.kind with
  | .memRd | .memRdData => s.respond r o .memData (zeros 64) true 0 true
  | .memWr | .memWrPtl | .memInv => s.respond r o .cmp [] false 0 true
  | .ioRd | .cfgRd | .cfgWr | .ioPortRd | .ioPortWr | .uioWr | .ioAtomic _ _ => s.respond r o .cpl [] false cplUR true
  | .ioWr | .ioMsg | .ioMsi => (s.aerLog o.inst o.vb .unsupported).discard o
  | _ => s.discard o

/-- Whether the flush forwards a message of this kind from a down port (Table 4.6, right column). -/
def forwardedFromDown (k : MsgKind) : Bool :=
  match mcOf k with
  | 2 | 5 | 6 | 7 | 10 | 11 => true
  | _ => false

end Sys2Proof.Machine
end

