-- ==== Sys2Proof/Machine/Remap.lean ====
section
/-! DEFINITION. The extent remap tables (spec/10_grafts.md): the look-up of an access at the region of its device's port (R193,
R197), held writes, mirrored writes, and the abort of a graft (R202). -/

namespace Sys2Proof.Machine

/-! ## Extents and entries -/

def extBytes : Nat := 2 ^ 21

/-- The extent key that a port, LD-ID and device address fall in. -/
def Ext.holds (e : Ext) (port ld dpa : Nat) : Bool :=
  decide (e.port = port) && decide (e.ld = ld) && decide (e.ext = dpa / extBytes)

/-- Two extents are the same place. -/
def Ext.same (a b : Ext) : Bool := decide (a.port = b.port) && decide (a.ld = b.ld) && decide (a.ext = b.ext)

/-- Device address at the same offset in another extent. -/
def Ext.at (e : Ext) (dpa : Nat) : Nat := e.ext * extBytes + dpa % extBytes

/-- Words of an extent key K (Table 12.5). -/
def Ext.words (e : Ext) : List Nat := [e.type * 2 ^ 12 + e.ld * 2 ^ 8 + e.port, e.ext]

/-- An extent key from its two words; a type other than 2 names no logical device. -/
def extOf (a b : Nat) : Ext :=
  { type := bitsOf a 12 2, port := bitsOf a 0 7, ld := if bitsOf a 12 2 = 2 then bitsOf a 8 4 else 0
    ext := bitsOf b 0 31 }

/-- The entry whose source extent holds an access. -/
def Chip.ertFor (s : Chip) (port ld dpa : Nat) : Option Ert := s.ert.find? (fun e => e.key.holds port ld dpa)
def Chip.ertKey (s : Chip) (k : Ext) : Option Ert := s.ert.find? (fun e => e.key.same k)
def Chip.setErt (s : Chip) (e : Ert) : Chip :=
  { s with ert := s.ert.map (fun x => if x.key.same e.key then e else x) }
def Chip.delErt (s : Chip) (k : Ext) : Chip := { s with ert := s.ert.filter (fun x => !x.key.same k) }

/-- Where reads of an entry go (Table 10.3), and where a graft copies from (R194). -/
def Ert.source (e : Ert) : Ext :=
  if e.st = 4 then e.tgt else match e.prev with
    | some (x, _) => x
    | none => e.key

/-- A graft in progress: Armed, Copying or Flipping. -/
def Ert.active (e : Ert) : Bool := decide (e.st ≠ 4)

/-- The GRAFT_STATE event (Table 12.5). -/
def Chip.graftEvent (s : Chip) (key : Ext) (st cause chan epoch : Nat) : Chip :=
  s.event 0x0811 (key.words ++ [st * 2 ^ 29 + cause * 2 ^ 24 + chan, epoch])

/-- Line and chunk of an address in its extent. -/
def lineOf (dpa : Nat) : Nat := dpa % extBytes / 64
def chunkOf (dpa : Nat) : Nat := dpa % extBytes / 4096

/-! ## The chip's own requests -/

def Chip.inner? (s : Chip) (id : Nat) : Option Inner := s.inners.find? (fun i => decide (i.id = id))
def Chip.delInner (s : Chip) (id : Nat) : Chip := { s with inners := s.inners.filter (fun i => decide (i.id ≠ id)) }
def Chip.modInner (s : Chip) (id : Nat) (f : Inner → Inner) : Chip :=
  { s with inners := s.inners.map (fun i => if i.id = id then f i else i) }
def Chip.mirror? (s : Chip) (id : Nat) : Option Mirror := s.mirrors.find? (fun m => decide (m.id = id))
def Chip.modMirror (s : Chip) (id : Nat) (f : Mirror → Mirror) : Chip :=
  { s with mirrors := s.mirrors.map (fun m => if m.id = id then f m else m) }

def isWriteKind : MsgKind → Bool
  | .memWr | .memWrPtl | .ioWr | .uioWr => true
  | _ => false

/-- Accesses that the remap table looks up: memory reads, memory writes and AtomicOps (R197). -/
def isMemAccess : MsgKind → Bool
  | .memRd | .memRdData | .memSpecRd | .memInv | .ioRd | .memWr | .memWrPtl | .ioWr | .uioWr | .ioAtomic _ _ => true
  | _ => false

def isAtomicKind : MsgKind → Bool
  | .ioAtomic _ _ => true
  | _ => false

/-- A response to one of the chip's own requests, going back to the node that awaits it. A response that nothing awaits ends
the request; one copy of a mirrored write is marked acknowledged. -/
def Chip.innerAnswer (s : Chip) (r : Nat) (i : Inner) (k : MsgKind) (data : List Byte) (poison : Bool) (status : Nat) : Chip :=
  let msg : Msg :=
    { id := 0, kind := k, src := i.initiator, iport := none, region := r, tag := i.id, dpa := i.dpa, addr := i.dpa, dest := 0,
      len := data.length, data := data, poison := poison, status := status, sc := 1, inn := i.id, toHome := true,
      loc := .inject r }
  match i.who with
  | .home _ => s.sendHome r i.node msg
  | .move _ _ _ => s.sendHome r hubNode { msg with toHome := true }
  | .felled _ => s.sendHome r i.node msg
  | .none => s.delInner i.id
  | .mirror m tgt =>
    (s.delInner i.id).modMirror m (fun x => if tgt then { x with tgt := false, err := x.err || decide (status ≠ 0) } else
      { x with src := false, data := data, status := status, err := x.err || decide (status ≠ 0) })

/-- The chip's own request meets a port that is down (Table 4.6). -/
def Chip.innerDown (s : Chip) (r : Nat) (i : Inner) : Chip :=
  match i.kind with
  | .memRd | .memRdData => s.innerAnswer r i .memData (zeros 64) true 0
  | .ioRd | .uioWr | .ioAtomic _ _ => s.innerAnswer r i .cpl [] false cplUR
  | _ => s.innerAnswer r i .cmp [] false 0

/-! ## Entering an egress queue -/

/-- The port takes no traffic and no flush is in progress: a message for it is completed at once (R80). So is one for a trunk that
carries no traffic (R32): DESIGN CHOICE (log entry 133). -/
def Chip.isDown (s : Chip) (p : Nat) : Bool := (!(s.port p).up || (s.port p).noTraffic) && !(s.port p).flushing

/-- A message for a port that is down. -/
def Chip.meetsDown (s : Chip) (r : Nat) (m : Msg) : Chip :=
  let s := s.delMsg m.id
  if m.inn ≠ 0 ∧ isRequest m.kind then (match s.inner? m.inn with
    | some i => s.innerDown r i
    | none => s)
  else match s.open? m.opn with
    | none => s
    | some o => if isRequest m.kind then s.complete46 r o else if o.grove.isSome then s else s.delOpen o.id

/-- A message at the region of its egress port enters the queue. -/
def Chip.enter (s : Chip) (r : Nat) (m : Msg) : Chip :=
  if s.isDown m.dest then s.meetsDown r m else s.toEgress m m.dest m.sc

/-- References of a multicast copy to ports that are down are dropped; a copy of a mirrored write there is answered (Table 4.6). -/
def Chip.liveRefs (s : Chip) (r : Nat) (m : Msg) : Chip × Msg :=
  let (dead, live) := m.refs.partition (fun x => s.isDown x.port)
  (foldl' dead (fun x s => match s.inner? x.inn with
    | some i => s.innerDown r i
    | none => s) s, { m with refs := live })

/-- A multicast copy at its egress region is stored, but for the references to ports that are down (R77). -/
def Chip.landCopy (s : Chip) (d : Nat) (m : Msg) : Chip :=
  let (s, m) := s.liveRefs d m
  if m.refs.isEmpty then s.delMsg m.id else s.storeCopy d m

/-- A message that the remap region `r` has looked up goes on to its port: into the queue, or over the mesh. -/
def Chip.place (s : Chip) (r : Nat) (m : Msg) : Chip :=
  let m := { m with looked := true }
  if m.dest / 16 = r then s.enter r m
  else
    let s := s.delMsg m.id
    s.moveMsg { m with loc := .inject r, plane0 := true, fromNode := r, toNode := m.dest / 16, toHome := false, parts := [],
                       lcred := false }

/-- A message sent to an extent. -/
def Msg.toExt (m : Msg) (x : Ext) : Msg := { m with dest := x.port, ld := x.ld, dpa := x.at m.dpa }

/-! ## Mirrored and held writes (R197 to R200) -/

/-- A write or AtomicOp is held: by a chunk lock, by the switch, or by an AtomicOp on its line whose target write has not been
forwarded. Bit 0: held; the second component: held by a chunk lock. -/
def Chip.holds (s : Chip) (e : Ert) (k : MsgKind) (dpa : Nat) : Bool × Bool :=
  let lock := decide (e.st = 2) && e.chunks.any (fun c => decide (c.k = chunkOf dpa) && c.locked)
  let atom := s.mirrors.any (fun m => m.key.same e.key && decide (m.line = lineOf dpa) && m.atom.isSome && !m.dead)
  let flip := decide (e.st = 3) && !isAtomicKind k
  (lock || flip || atom, lock)

/-- Writes of an extent held at the remap region, in their order of arrival. -/
def Chip.heldOf (s : Chip) (k : Ext) : List Msg :=
  s.msgs.filter (fun m => decide (m.loc = .held (k.port / 16)) && k.holds m.dest m.ld m.dpa)

/-- An earlier held write to the same line. -/
def Chip.heldBefore (s : Chip) (e : Ert) (m : Msg) : Bool :=
  (s.msgs.takeWhile (fun x => decide (x.id ≠ m.id))).any (fun x =>
    decide (x.loc = .held (e.key.port / 16)) && e.key.holds x.dest x.ld x.dpa && decide (lineOf x.dpa = lineOf m.dpa) &&
      (isWriteKind x.kind || isAtomicKind x.kind))

/-- Registering one of the chip's own requests. -/
def Chip.newInner (s : Chip) (i : Inner) : Chip :=
  ({ s with inners := s.inners ++ [{ i with id := s.nextId }] }).fresh

/-- One of the chip's own requests that stands for an access of an extent, and the access as it goes out under it. -/
def Chip.copyInner (s : Chip) (r : Nat) (m : Msg) (who : Who) (x : Ext) : Chip :=
  s.newInner { id := 0, who := who, node := r, initiator := m.src, kind := m.kind, dest := x.port, ld := x.ld, dpa := x.at m.dpa
               start := s.time }

/-- A copy of an access, sent to one extent with an acknowledgement of its own. -/
def Chip.sendCopy (s : Chip) (r : Nat) (m : Msg) (who : Who) (x : Ext) (sc : Nat) : Chip :=
  (s.copyInner r m who x).place r { (m.toExt x) with inn := s.nextId, opn := 0, sc := sc }

/-- A multicast copy is stored in its region, or waits to be injected towards it (R77). -/
def Chip.spread (s : Chip) (r d : Nat) (m : Msg) : Chip :=
  if d = r then s.landCopy d m
  else (s.delMsg m.id).moveMsg { m with loc := .inject r, rsv := 0, shared := 0, plane0 := true, fromNode := r, toNode := d
                                        parts := [], lcred := false }

/-- A mirrored write (R77, R78, R197): a multicast to the egress queues of the source, in the write's own class, and of the target,
in the class QOS_HUB.MOVER of the target's region (R87), one copy for each region named. -/
def Chip.mirrorWrite (s : Chip) (r : Nat) (e : Ert) (m : Msg) : Chip :=
  let k := s.nextId
  let s := s.fresh
  let x : Mirror := { id := k, key := e.key, line := lineOf m.dpa, opn := m.opn, inn := m.inn, src := true, tgt := true
                      posted := isPosted m.kind }
  let s := { s with mirrors := s.mirrors ++ [x] }.count (cntRegion r 22)
  let a : McRef := { port := e.source.port, sc := m.sc, waiting := true, inn := s.nextId, ld := e.source.ld, dpa := e.source.at m.dpa }
  let s := s.copyInner r m (.mirror k false) e.source
  let b : McRef := { port := e.tgt.port, sc := s.scMover (e.tgt.port / 16), waiting := true, inn := s.nextId, ld := e.tgt.ld
                     dpa := e.tgt.at m.dpa }
  let s := s.copyInner r m (.mirror k true) e.tgt
  let m := { m with looked := true, opn := 0, inn := 0, toHome := false, dest := a.port }
  let (ra, rb) := (a.port / 16, b.port / 16)
  if ra = rb then s.spread r ra { m with refs := [a, b] }
  else
    let s := s.spread r ra { m with refs := [a] }
    let id := s.nextId
    s.fresh.spread r rb { m with id := id, origin := m.id, dest := b.port, sc := b.sc, refs := [b] }

/-- An AtomicOp performed at the source of a graft (R197). -/
def Chip.atomAtSource (s : Chip) (r : Nat) (e : Ert) (m : Msg) (op : AtomOp) (size : Nat) : Chip :=
  let k := s.nextId
  let s := s.fresh
  let x : Mirror := { id := k, key := e.key, line := lineOf m.dpa, opn := m.opn, inn := m.inn, src := true, tgt := true
                      atom := some (op, size, m.dpa, m.data) }
  let s := { s with mirrors := s.mirrors ++ [x] }
  s.sendCopy r m (.mirror k false) e.source m.sc

/-- Holding a message at the remap region; one that is held already keeps its place. -/
def Chip.hold (s : Chip) (r : Nat) (m : Msg) (e : Ert) (lock : Bool) : Chip :=
  if m.loc = .held r then s
  else
    let s := s.moveMsg { m with loc := .held r, rsv := 0, shared := slotsOf m.len, parts := [], lcred := false }
    if lock then (s.count (cntRegion r 23)).bump F.MOV_CH_HELD.COUNT 1 e.chan else s

/-- The entry that the look-up of R193 finds for a message at the region of its device's port. -/
def Chip.remapped (s : Chip) (m : Msg) : Option Ert :=
  if m.looked || !isRequest m.kind || !isMemAccess m.kind then none else s.ertFor m.dest m.ld m.dpa

/-- An access goes to another device of the graft: its open request, or the chip's own, follows. -/
def Chip.redirect (s : Chip) (m : Msg) (x : Ext) : Chip :=
  (s.modOpen m.opn (fun o => { o with dest := x.port, ld := x.ld, dpa := x.at o.dpa })).modInner m.inn (fun i =>
    { i with dest := x.port, ld := x.ld, dpa := x.at i.dpa })

/-- What the remap region does with an access that has an entry (Table 10.3). -/
inductive Pass where
  /-- It is held, by a chunk lock where true. -/
  | held (lock : Bool)
  /-- It goes to one extent. -/
  | goes (x : Ext)
  | mirrored
  | atomic (op : AtomOp) (size : Nat)
  deriving DecidableEq, Repr

/-- Routing by state (Table 10.3). -/
def Chip.passOf (s : Chip) (e : Ert) (m : Msg) : Pass :=
  if e.st = 4 then .goes e.tgt
  else
    let (h, lock) := s.holds e m.kind m.dpa
    let behind := s.heldBefore e m
    match m.kind with
    | .ioAtomic op size => if h || behind then .held lock else .atomic op size
    | k =>
      if isWriteKind k then (if h || behind then .held lock else .mirrored)
      else if decide (e.st = 2) && behind then .held false else .goes e.source

/-- The look-up of an access at the remap region (R193, Table 10.3). -/
def Chip.deliverAccess (s : Chip) (r : Nat) (m : Msg) (e : Ert) : Chip :=
  match s.passOf e m with
  | .held lock => s.hold r m e lock
  | .goes x =>
    let s := if e.st = 4 then s.count (cntRegion r 21) else s
    (s.redirect m x).place r (m.toExt x)
  | .mirrored => s.mirrorWrite r e m
  | .atomic op size => s.atomAtSource r e m op size

/-- An egress queue takes a message from region `r` (R71, R72, R96): in its own region by its occupancy, with the overshoot for
a landed message, in another as its state is known here. A port that is down takes all, for they are answered at once. -/
def Chip.queueTakes (s : Chip) (r : Nat) (landed : Bool) (m : Msg) (d sc : Nat) : Bool :=
  if s.isDown d then true
  else if (s.port d).flushing then false
  else if d / 16 ≠ r then s.seenOpen d sc && (m.committed || !s.seenPressed d sc)
  else if landed then !s.refWaits d sc && decide (s.egShared d sc < s.egThreshold d sc + s.fld F.BUF_CFG.OVERSHOOT r)
  else s.egTakes d sc (slotsOf m.len) && (m.committed || !s.egPressed d sc)

/-- A message at the region of its port may leave for where the look-up sends it (R71, R72, R77). -/
def Chip.mayDeliver (s : Chip) (r : Nat) (landed : Bool) (m : Msg) : Bool :=
  match if m.chan.isSome then none else s.remapped m with
  | none => s.queueTakes r landed m m.dest m.sc
  | some e => match s.passOf e m with
    | .held _ => true
    | .goes x => s.queueTakes r landed m x.port m.sc
    | .atomic _ _ => s.queueTakes r landed m e.source.port m.sc
    | .mirrored => (decide (e.source.port / 16 ≠ r) && decide (e.tgt.port / 16 ≠ r)) || (s.residueSplit r (slotsOf m.len)).isSome

/-- A held access is looked up again, and goes on if it may. -/
def Chip.releaseOne (s : Chip) (r : Nat) (m : Msg) : Chip :=
  match s.ertFor m.dest m.ld m.dpa with
  | none => if s.mayDeliver r false m then s.place r m else s
  | some e => if s.mayDeliver r false m then s.deliverAccess r m e else s

/-- Held accesses of an extent are looked up again in their order of arrival. -/
def Chip.releaseHeld (s : Chip) (k : Ext) : Chip := foldl' (s.heldOf k) (fun m s => s.releaseOne (k.port / 16) m) s

/-- A channel's request passes the remap region: the lock of a chunk ends with its last target write (R198). -/
def Chip.channelPass (s : Chip) (r : Nat) (m : Msg) : Chip :=
  let s := s.place r m
  match s.inner? m.inn with
  | some i =>
    (match i.who with
    | .move c k _ =>
      if isWriteKind m.kind then
        match s.ert.find? (fun e => decide (e.chan = c) && e.active) with
        | none => s
        | some e =>
          let cs := e.chunks.map (fun x => if x.k = k then { x with fwd := x.fwd + 1, locked := x.locked && decide (x.fwd + 1 < 64) } else x)
          (s.setErt { e with chunks := cs }).releaseHeld e.key
      else s
    | _ => s)
  | none => s

/-- A message arrives at node `r`, the region of its port or its remap region. -/
def Chip.deliver (s : Chip) (r : Nat) (m : Msg) : Chip :=
  if m.chan.isSome && !m.looked then s.channelPass r m
  else match s.remapped m with
    | none => s.enter r m
    | some e => s.deliverAccess r m e

/-- Sending one of the chip's own requests to a device from node `r`, by way of region `via`: on at once where it may go, behind
those that wait there. -/
def Chip.sendInner (s : Chip) (r via : Nat) (i : Inner) (m : Msg) : Chip :=
  let id := s.nextId
  let s := s.newInner i
  let m := { m with id := s.nextId, inn := id, arrived := s.time, fromNode := r, toNode := via }
  let s := s.fresh
  if r = via ∧ s.mayDeliver r false m = true ∧ s.sentWaits r m = false then s.deliver r m
  else s.moveMsg { m with loc := .inject r, rsv := 0, shared := 0 }

/-! ## Aborts (R202) -/

/-- What follows an abort for the channel: halted after cause 4. -/
def abortState (cause : Nat) : Nat := if cause = 4 then 4 else 0

/-- A mirrored write of an aborted graft awaits its source Cmp only; an AtomicOp still takes its original value. -/
def Mirror.abort (k : Ext) (m : Mirror) : Mirror := if m.key.same k then { m with tgt := false, dead := true } else m

/-- The responses to target copies and to channel requests of an aborted graft are discarded. -/
def Chip.abortInner (s : Chip) (e : Ert) (i : Inner) : Inner :=
  match i.who with
  | .mirror k true =>
    if s.mirrors.any (fun m => decide (m.id = k) && m.key.same e.key) then { i with who := .none } else i
  | .move c _ _ => if c = e.chan then { i with who := .none } else i
  | _ => i

/-- The graft of an entry aborts: the entry is freed or returned to Set on its previous target, held writes go to the source
only, target Cmps are discarded, the channel stops. -/
def Chip.graftAbort (s : Chip) (e : Ert) (cause : Nat) : Chip :=
  if !e.active then s
  else
    let s := match e.prev with
      | some (x, ep) => s.setErt { e with st := 4, tgt := x, flip := ep, prev := none, chunks := [], before := [], next := 0 }
      | none => s.delErt e.key
    let s := { s with mirrors := s.mirrors.map (Mirror.abort e.key), inners := s.inners.map (s.abortInner e) }
    let s := s.releaseHeld e.key
    let s := s.set F.MOV_CH_STS.STATE (abortState cause) e.chan
    let s := if cause = 4 then (s.set F.MOV_CH_STS.HALTED 1 e.chan).chipFault 8 clsC else s
    let s := s.set F.MOV_CH_STS.CAUSE cause e.chan
    let s := s.chipFault 9 clsC
    let s := s.count (cntChan e.chan 3)
    match e.prev with
    | some (_, ep) => s.graftEvent e.key 4 cause e.chan ep
    | none => s.graftEvent e.key 0 cause e.chan 0

/-- Every graft that satisfies a test aborts. -/
def Chip.abortWhere (s : Chip) (p : Ert → Bool) (cause : Ert → Nat) : Chip :=
  foldl' (s.ert.filter (fun e => e.active && p e)) (fun e s => s.graftAbort e (cause e)) s

/-- A copy of a mirrored write came back with an error: the graft aborts (R202, cause 5). -/
def Chip.mirrorErr (s : Chip) (k : Nat) : Chip :=
  match s.mirror? k with
  | some m => if m.err && !m.dead then s.abortWhere (fun e => e.key.same m.key) (fun _ => 5) else s
  | none => s

/-- The graft that a channel runs. -/
def Chip.graftOf (s : Chip) (c : Nat) : Option Ert := s.ert.find? (fun e => e.active && decide (e.chan = c))

end Sys2Proof.Machine
end

