-- ==== Sys2Proof/Machine/Groves.lean ====
section
/-! DEFINITION. Home slices: the snoop filter, the home state table, blocking and the home request queue, snoops and their
answers, atomic operations, and felling (spec/08_groves.md, spec/09_grove_conflicts_and_failure.md). -/

namespace Sys2Proof.Machine

/-! ## Groves (R148 to R153) -/

def Chip.gst (s : Chip) (g : Nat) : Nat := s.fld F.GRV_STS.STATE g
def gFree : Nat := 0
def gSeeding : Nat := 1
def gStanding : Nat := 2
def gFelling : Nat := 3
def gFelled : Nat := 4

/-- Felling or Felled. -/
def Chip.gFell (s : Chip) (g : Nat) : Bool := decide (s.gst g = gFelling) || decide (s.gst g = gFelled)

/-- Member vector and joined vector. -/
def Chip.members (s : Chip) (g : Nat) : Nat := (s.rd .GRV_MEMBER_LO g).toNat + (s.rd .GRV_MEMBER_HI g).toNat * 2 ^ 32
def Chip.joined (s : Chip) (g : Nat) : Nat := (s.rd .GRV_JOINED_LO g).toNat + (s.rd .GRV_JOINED_HI g).toNat * 2 ^ 32
def Chip.setMembers (s : Chip) (g v : Nat) : Chip := (s.wr .GRV_MEMBER_LO g 0 (w32 v)).wr .GRV_MEMBER_HI g 0 (w32 (v / 2 ^ 32))
def Chip.setJoined (s : Chip) (g v : Nat) : Chip := (s.wr .GRV_JOINED_LO g 0 (w32 v)).wr .GRV_JOINED_HI g 0 (w32 (v / 2 ^ 32))

/-- Port of a member. -/
def Chip.usp (s : Chip) (n : Nat) : Nat := s.fld F.VCS_INST_CFG.USP n

/-- Defined grove windows of a grove. -/
def Chip.gwins (s : Chip) (g : Nat) : List Nat := (List.range 16).filter (fun w => s.is F.GRV_WIN_CFG.EN (16 * g + w))

/-- The grove window that holds a grove address. -/
def Chip.groveAt (s : Chip) (ga : Nat) : Option (Nat × Nat) :=
  ((List.range 32).flatMap (fun g => (s.gwins g).map (fun w => (g, w)))).find?
    (fun x => decide (s.gaBase x.1 x.2 ≤ ga) && decide (ga < s.gaBase x.1 x.2 + s.gaSize x.1 x.2))

/-- The targets of a grove (R150), each with its grove window. -/
def Chip.groveTgts (s : Chip) (g : Nat) : List (Nat × Nat × Tgt) :=
  (s.gwins g).flatMap (fun w => (List.range 16).filterMap (fun t =>
    let x := tgtOf (s.rd .GRV_WIN_TGT_A (16 * g + w) t).toNat
    if x.type = 0 then none else some (w, t, x)))

/-- A port gives memory to a grove. -/
def Chip.groveUses (s : Chip) (g p : Nat) : Bool := (s.groveTgts g).any (fun x => decide (x.2.2.port = p))

/-- Target and device address of a grove address (R152). -/
def Chip.groveTarget (s : Chip) (g gw ga : Nat) : Tgt × Nat :=
  let c := 16 * g + gw
  let (t, o) := interleave ((waysOf (s.fld F.GRV_WIN_CFG.IW c)).getD 1) ((granOf (s.fld F.GRV_WIN_CFG.IG c)).getD 256)
    (ga - s.gaBase g gw)
  (tgtOf (s.rd .GRV_WIN_TGT_A c t).toNat, s.fld F.GRV_WIN_TGT_B.DPA_BASE c t * winUnit + o)

/-- Bit `i` of the home region: the fold of R153. -/
def homeBit (ga i : Nat) : Bool :=
  (List.range 12).foldl (fun b k => xor b (decide (12 + 3 * k + i ≤ 45) && bitAt ga (12 + 3 * k + i))) false

/-- Home region of a grove line (R153). -/
def homeOf (ga : Nat) : Nat := b2n (homeBit ga 0) + 2 * b2n (homeBit ga 1) + 4 * b2n (homeBit ga 2)

/-- The GROVE_STATE event. -/
def Chip.groveEvent (s : Chip) (g cause : Nat) : Chip := s.event 0x0810 [s.gst g * 2 ^ 29 + cause * 2 ^ 24 + g]

/-! ## The snoop filter (R154 to R156) -/

def snfSet (ga : Nat) : Nat := (ga / 64 % 32768) ^^^ (ga / 2 ^ 21 % 32768)
def snfTag (ga : Nat) : Nat := ga / 2 ^ 21 % 2 ^ 25
def snfKey (h set way : Nat) : Nat := (32768 * h + set) * 16 + way
/-- Grove address of an entry. -/
def snfLine (set : Nat) (e : Snf) : Nat := e.tag * 2 ^ 21 + (set ^^^ (e.tag % 32768)) * 64

def Chip.snfAt (s : Chip) (h set way : Nat) : Snf := s.snf.get {} (snfKey h set way)
def Chip.setSnf (s : Chip) (h set way : Nat) (e : Snf) : Chip := { s with snf := s.snf.set {} (snfKey h set way) e }

/-- The way whose valid entry holds a line. -/
def Chip.snfWay (s : Chip) (h ga : Nat) : Option Nat :=
  (List.range 16).find? (fun w =>
    let e := s.snfAt h (snfSet ga) w
    decide (e.st ≠ 0) && decide (e.tag = snfTag ga))

/-- Home state and presence vector of a line (Table 8.1). -/
def Chip.homeState (s : Chip) (h ga : Nat) : Nat × Nat :=
  match s.snfWay h ga with
  | some w => ((s.snfAt h (snfSet ga) w).st, (s.snfAt h (snfSet ga) w).pv)
  | none => (0, 0)

/-- Pseudo-LRU tree of a set, and the tree after an access to one of its ways (R156). -/
def Chip.tree (s : Chip) (h set : Nat) : Nat := s.plru.get 0 (32768 * h + set)
def Chip.touchWay (s : Chip) (h set way : Nat) : Chip :=
  { s with plru := s.plru.set 0 (32768 * h + set) (Config.plru (s.tree h set) way) }

/-- Writing the home state of a line whose entry exists; state I frees the entry. -/
def Chip.setHome (s : Chip) (h ga st pv : Nat) : Chip :=
  match s.snfWay h ga with
  | some w => s.setSnf h (snfSet ga) w (if st = 0 ∨ pv = 0 then {} else { tag := snfTag ga, st := st, pv := pv })
  | none => s

/-- Valid entries of a region (SNF_STS.VALID). -/
def Chip.snfValid (s : Chip) (h : Nat) : Nat :=
  (s.snf.filter (fun x => decide (x.1 / 16 / 32768 = h) && decide (x.2.st ≠ 0))).length

/-! ## Line locks (R161) -/

def Chip.txn? (s : Chip) (id : Nat) : Option Txn := s.txns.find? (fun t => decide (t.id = id))
def Chip.txnAt (s : Chip) (h ga : Nat) : Option Txn := s.txns.find? (fun t => decide (t.home = h) && decide (t.ga = ga))
def Chip.modTxn (s : Chip) (id : Nat) (f : Txn → Txn) : Chip :=
  { s with txns := s.txns.map (fun t => if t.id = id then f t else t) }
def Chip.delTxn (s : Chip) (id : Nat) : Chip := { s with txns := s.txns.filter (fun t => decide (t.id ≠ id)) }
def Chip.locks (s : Chip) (h : Nat) : Nat := (s.txns.filter (fun t => decide (t.home = h))).length
def maxLocks : Nat := 8192

/-- A new line-lock entry, named freshly, with the highest LOCKS noted. -/
def Chip.newTxn (s : Chip) (t : Txn) : Chip :=
  let s := { s with txns := s.txns ++ [{ t with id := s.nextId }] }
  let s := s.fresh
  if s.locks t.home > s.fld F.GRV_SLICE_PEAK.LOCKS_PEAK t.home then
    s.set F.GRV_SLICE_PEAK.LOCKS_PEAK (s.locks t.home) t.home
  else s

/-- Every snoop of the transaction has its BIRsp. -/
def Txn.answered (t : Txn) : Bool := t.snoops.all (fun x => x.rsp.isSome)

/-- Memory requests of a transaction that are not yet answered. -/
def Chip.txnMem (s : Chip) (id : Nat) : Nat := (s.inners.filter (fun i => decide (i.who = .home id))).length

def isReadKind : MsgKind → Bool
  | .memRd | .memRdData => true
  | _ => false

def Txn.isRead (t : Txn) : Bool :=
  match t.op with
  | .req k _ => isReadKind k
  | _ => false

/-! ## Messages of a home slice -/

/-- A request to the grove's memory (R150, R152), in the service class of R87. -/
def Chip.homeMem (s : Chip) (t : Txn) (k : MsgKind) (data : List Byte) (poison : Bool) : Chip :=
  let (x, dpa) := s.groveTarget t.grove t.gw t.ga
  s.sendInner t.home (x.port / 16)
    { id := 0, who := .home t.id, node := t.home, initiator := 128 + t.home, kind := k, dest := x.port, ld := x.ld, dpa := dpa
      start := s.time }
    { id := 0, kind := k, src := 128 + t.home, iport := none, region := t.home, addr := dpa, dpa := dpa, dest := x.port
      ld := x.ld, len := data.length, data := data, poison := poison, sc := t.sc, txn := t.id, noOp := true, loc := .inject t.home }

/-- A message to a member's upstream port, unless that port is down. -/
def Chip.toMember (s : Chip) (h p : Nat) (k : MsgKind) (tag addr : Nat) (data : List Byte) (poison : Bool) (status : Nat)
    (killed : Bool) (stat : Option (Nat × Nat × Nat × Nat × Nat)) : Chip :=
  if s.isDown p ∨ (s.port p).flushing then s
  else
    s.send h
      { id := 0, kind := k, src := 128 + h, iport := none, region := h, tag := tag, addr := addr, dest := p
        len := data.length, data := data, poison := poison, status := status, sc := 1, killed := killed, stat := stat
        loc := .inject h }

/-- Statistics that the final completion of a request carries (R225). -/
def Chip.statOf (s : Chip) (own : Nat) : Option (Nat × Nat × Nat × Nat × Nat) :=
  (s.open? own).map (fun o => (o.id, o.initiator, o.start, o.rd, o.wr))

/-- Snoops to members (R77): one copy for each region, in SC0. -/
def Chip.sendSnoops (s : Chip) (t : Txn) (k : MsgKind) (mask : Nat) : Chip :=
  let insts := bitsSet mask 64
  let s := s.modTxn t.id (fun x => { x with
    snoops := insts.map (fun n => { inst := n, kind := k, since := s.time }) })
  let s := s.count (cntRegion t.home 17) insts.length
  foldl' (List.range 8) (fun r s =>
    let ps := (insts.map s.usp).filter (fun p => decide (p / 16 = r))
    match ps with
    | [] => s
    | p :: _ =>
      let refs : List McRef := ps.map (fun q => { port := q, sc := 0, waiting := true })
      let m : Msg :=
        { id := s.nextId, kind := k, src := 128 + t.home, iport := none, region := t.home, addr := t.ga, dest := p, sc := 0
          txn := t.id, grove := some (t.grove, t.gw), refs := refs, arrived := s.time, fromNode := t.home, toNode := r
          loc := if r = t.home then .landing r r else .inject t.home }
      { s with msgs := s.msgs ++ [m] }.fresh) s

/-! ## The home state table (Table 8.2) -/

/-- Snoops that a request makes: the kind and the members. -/
def snoopsOf (k : MsgKind) (mv : MetaV) (st pv m : Nat) : Option (MsgKind × Nat) :=
  let own := 2 ^ m
  let others := if bitAt pv m then pv - own else pv
  if others = 0 ∨ st = 0 then none
  else match k, mv with
    | .memRd, .a => some (.biSnpInv, others)
    | .memInv, .i => none
    | .memInv, _ => some (.biSnpInv, others)
    | .memRd, .s => if st = 2 then some (.biSnpData, others) else none
    | .memRd, .i => if st = 2 then some (.biSnpCur, others) else none
    | .memRdData, _ => if st = 2 then some (.biSnpData, others) else none
    | _, _ => none

/-- Completion of a request, `rsp` the owner's answer. -/
def completionOf (k : MsgKind) (mv : MetaV) (st pv m : Nat) (rsp : Option Nat) : MsgKind :=
  match k, mv with
  | .memRd, .s => .cmpS
  | .memRd, .a => .cmpE
  | .memRdData, _ =>
    if st = 1 then .cmpS
    else if st = 2 ∧ bitAt pv m = false then (if rsp = some 1 then .cmpS else .cmpE)
    else .cmpE
  | .memInv, .i => .cmp
  | .memInv, _ => .cmpE
  | _, _ => .cmp

/-- Next home state and presence vector. -/
def nextHome (k : MsgKind) (mv : MetaV) (st pv m : Nat) (rsp : Option Nat) : Nat × Nat :=
  let own := 2 ^ m
  let with' := pv ||| own
  let mine := decide (st = 2) && bitAt pv m
  let other := decide (st = 2) && !bitAt pv m
  match k, mv with
  | .memRd, .s => if st = 1 then (1, with') else if other && decide (rsp = some 1) then (1, with') else (1, own)
  | .memRdData, _ => if st = 1 then (1, with') else if other && decide (rsp = some 1) then (1, with') else (2, own)
  | .memRd, .a => (2, own)
  | .memRd, .i =>
    if other then (match rsp with
      | some 2 => (2, pv)
      | some 1 => (1, pv)
      | _ => (0, 0))
    else (st, pv)
  | .memInv, .i =>
    if mine then (0, 0)
    else if st = 1 then (if bitAt pv m && decide (pv = own) then (0, 0) else (1, if bitAt pv m then pv - own else pv))
    else (st, pv)
  | .memInv, _ => (2, own)
  | .memWr, v | .memWrPtl, v =>
    if mine then (match v with
      | .i => (0, 0)
      | .s => (1, own)
      | .a => (2, own))
    else (st, pv)
  | _, _ => (st, pv)

/-- A request that takes an entry for a line found in I (Table 8.2). -/
def allocates (k : MsgKind) (mv : MetaV) : Bool :=
  match k, mv with
  | .memRd, .i => false
  | .memRd, _ => true
  | .memRdData, _ => true
  | .memInv, .i => false
  | .memInv, _ => true
  | _, _ => false

/-! ## Agent copies (R164) -/

def Chip.copyOf (s : Chip) (h ga : Nat) : Option (List Byte) :=
  (s.copies.find? (fun c => decide (c.home = h) && decide (c.ga = ga))).map (·.data)
def Chip.dropCopy (s : Chip) (h ga : Nat) : Chip :=
  { s with copies := s.copies.filter (fun c => !(decide (c.home = h) && decide (c.ga = ga))) }
/-- Keeping a copy as the latest used; the least recently used one of the region gives way past 32,768. -/
def Chip.keepCopy (s : Chip) (h ga : Nat) (data : List Byte) : Chip :=
  let s := s.dropCopy h ga
  let s := if (s.copies.filter (fun c => decide (c.home = h))).length < 32768 then s
    else match s.copies.find? (fun c => decide (c.home = h)) with
      | some c => s.dropCopy h c.ga
      | none => s
  { s with copies := s.copies ++ [{ home := h, ga := ga, data := data }] }
/-- Using a copy makes it the latest used. -/
def Chip.touchCopy (s : Chip) (h ga : Nat) : Chip :=
  match s.copyOf h ga with
  | some d => s.keepCopy h ga d
  | none => s

/-! ## Progress of a transaction -/

/-- The answer of the owner that the transaction snooped. -/
def Txn.rsp (t : Txn) : Option Nat := (t.snoops.head?).bind (·.rsp)

/-- MemData to the requester. -/
def Chip.sendData (s : Chip) (t : Txn) (data : List Byte) (poison : Bool) : Chip :=
  (s.toMember t.home t.port .memData t.tag t.ga data poison 0 false none).modTxn t.id (fun x => { x with
    owes := false, dataSent := true })

/-- The agent cache has the line: it performs the operation, returns the original value, writes the line and frees the entry
(R163). -/
def Chip.performAtomic (s : Chip) (t : Txn) (op : AtomOp) (size off : Nat) (args : List Byte) (q : Option ReqId)
    (line : List Byte) (poison : Bool) : Chip :=
  let orig := (line.drop off).take size
  let new := line.take off ++ atomResult op size orig args ++ line.drop (off + size)
  let s := match q with
    | some q => s.reply q 0 (wordsOfBytes orig)
    | none => s.toMember t.home t.port .cplD t.tag t.ga orig poison cplSC false (s.statOf t.own)
  let s := s.count (cntRegion t.home 20)
  let s := s.setHome t.home t.ga 0 0
  let s := if poison then s.dropCopy t.home t.ga else s.keepCopy t.home t.ga new
  let s := s.modTxn t.id (fun x => { x with owes := false, fin := true, wb := none, given := none })
  s.homeMem t .memWr new poison

/-- The requester's data, or the line of an atomic operation, is at hand. -/
def Chip.useData (s : Chip) (t : Txn) (data : List Byte) (poison : Bool) : Chip :=
  match t.op with
  | .atomic op size off args q => s.performAtomic t op size off args q data poison
  | _ => s.sendData t data poison

/-- A memory read of the line. -/
def Chip.readLine (s : Chip) (t : Txn) : Chip :=
  (s.modTxn t.id (fun x => { x with reading := true })).homeMem t .memRd [] false

/-- The data path of R160: an owner's full-line write-back at once; held data or an agent copy once no newer one can come; in state
O nothing else before the owner's BIRsp; otherwise memory. -/
def dataStep (id : Nat) (s : Chip) : Chip :=
  match s.txn? id with
  | none => s
  | some t =>
    if !t.owes || t.reading || t.waits then s
    else
      let waitOwner := decide (t.st = 2) && !t.snoops.isEmpty
      let atomicOp := match t.op with
        | .atomic _ _ _ _ _ => true
        | _ => false
      match t.wb, t.given with
      | some (d, p), _ =>
        if waitOwner || atomicOp then (if atomicOp && !t.answered then s else s.useData t d p) else s.readLine t
      | none, some (d, p) => if t.answered then s.useData t d p else s
      | none, none =>
        if waitOwner || atomicOp then
          if t.answered && decide (s.txnMem t.id = 0) then s.readLine t else s
        else s.readLine t

/-- The completion is sent once every BIRsp has arrived and the data has been sent; evictions and walks send none. -/
def finishStep (id : Nat) (s : Chip) : Chip :=
  match s.txn? id with
  | none => s
  | some t =>
    if t.fin || t.owes || t.waits || !t.answered then s
    else match t.op with
      | .req k mv =>
        let c := completionOf k mv t.st t.pv t.inst t.rsp
        let (st, pv) := nextHome k mv t.st t.pv t.inst t.rsp
        let s := s.toMember t.home t.port c t.tag t.ga [] false 0 false (s.statOf t.own)
        let s := if isWriteKind k && decide (st = 0) then s else s.setHome t.home t.ga st pv
        let s := if st = 0 then s else s.dropCopy t.home t.ga
        s.modTxn id (fun x => { x with fin := true })
      | .atomic _ _ _ _ _ => s
      | .evict => s.modTxn id (fun x => { x with fin := true })
      | .walk =>
        let gone := maskOf (t.snoops.map (·.inst))
        let pv := t.pv - (t.pv &&& gone)
        (s.setHome t.home t.ga (if pv = 0 then 0 else t.st) pv).modTxn id (fun x => { x with fin := true })

/-- A transaction whose entry, if it needs one, has been allocated begins its work (Table 8.2). -/
def Chip.startTxn (s : Chip) (id : Nat) (data : List Byte) (poison : Bool) : Chip :=
  match s.txn? id with
  | none => s
  | some t =>
    let s := s.modTxn id (fun x => { x with waits := false, evict := 0 })
    let t := { t with waits := false, evict := 0 }
    match t.op with
    | .req k mv =>
      let s := match snoopsOf k mv t.st t.pv t.inst with
        | some (sk, mask) => s.sendSnoops t sk mask
        | none => s
      if isWriteKind k then
        let s := s.dropCopy t.home t.ga
        let s := if k = .memWr then s.modTxn id (fun x => { x with wb := some (data, poison) }) else s
        finishStep id (s.homeMem t k data poison)
      else
        let s := if isReadKind k then
          (match s.copyOf t.home t.ga, t.given with
          | some d, none => if t.st = 0 then (s.touchCopy t.home t.ga).modTxn id (fun x => { x with given := some (d, false) }) else s
          | _, _ => s).modTxn id (fun x => { x with owes := true })
          else s
        finishStep id (dataStep id s)
    | .atomic _ _ _ _ _ =>
      let s := if t.pv = 0 then s else s.sendSnoops t .biSnpInv t.pv
      let s := match s.copyOf t.home t.ga with
        | some d => if t.st = 0 ∧ t.given.isNone then s.modTxn id (fun x => { x with given := some (d, false) }) else s
        | none => s
      dataStep id (s.modTxn id (fun x => { x with owes := true }))
    | .evict | .walk => finishStep id s

/-! ## Allocation (R156, R176) -/

/-- An eviction of a victim's line: BISnpInv to every member of its presence vector. -/
def Chip.startEvict (s : Chip) (h set way : Nat) (forTxn : Txn) : Chip :=
  let e := s.snfAt h set way
  let ga := snfLine set e
  let (g, gw) := (s.groveAt ga).getD (0, 0)
  let id := s.nextId
  let s := s.newTxn { id := 0, home := h, ga := ga, grove := g, gw := gw, op := .evict, inst := 64, port := 0, tag := 0
                      sc := forTxn.sc, initiator := 128 + h, st := e.st, pv := e.pv }
  let s := (s.bump F.SNF_EVICT.COUNT 1 h).count (cntRegion h 15)
  let s := s.modTxn forTxn.id (fun x => { x with evict := id })
  match s.txn? id with
  | some t => s.sendSnoops t .biSnpInv e.pv
  | none => s

/-- An older allocation waits for a way of the same set, with no eviction of its own under way (R176). -/
def Chip.setBehind (s : Chip) (t : Txn) : Bool :=
  s.txns.any (fun x => decide (x.home = t.home) && x.waits && decide (snfSet x.ga = snfSet t.ga) && decide (x.id < t.id) &&
    !(decide (x.evict ≠ 0) && (s.txn? x.evict).isSome))

/-- An allocation is tried: the lowest invalid way, else an unpinned victim, else it waits. The entry taken holds the requester. -/
def Chip.allocate (s : Chip) (id : Nat) : Chip × Bool :=
  match s.txn? id with
  | none => (s, false)
  | some t =>
    let h := t.home
    let set := snfSet t.ga
    let new : Snf := { tag := snfTag t.ga, st := 1, pv := 2 ^ t.inst }
    let wait (s : Chip) : Chip × Bool :=
      if t.waits then (s, false)
      else ((s.modTxn id (fun x => { x with waits := true })), false)
    if s.setBehind t then wait s
    else match (List.range 16).find? (fun w => decide ((s.snfAt h set w).st = 0) && !(s.snfAt h set w).retired) with
    | some w => ((s.setSnf h set w new).touchWay h set w, true)
    | none =>
      if decide (t.evict ≠ 0) && (s.txn? t.evict).isSome then (s, false)
      else
        let free := (List.range 16).filter (fun w =>
          decide ((s.snfAt h set w).st ≠ 0) && (s.txnAt h (snfLine set (s.snfAt h set w))).isNone)
        match free with
        | [] =>
          let s := if t.waits then s else (s.bump F.GRV_SET_WAIT.COUNT 1 h).count (cntRegion h 16)
          wait s
        | w0 :: _ =>
          let w := free.getD (Config.victim (s.tree h set) (maskOf free) % free.length) w0
          let felled := match s.groveAt (snfLine set (s.snfAt h set w)) with
            | some (g, _) => s.gFell g
            | none => true
          if felled then ((s.setSnf h set w new).touchWay h set w, true)
          else if s.locks h ≥ maxLocks then wait s
          else wait (s.startEvict h set w t)

/-! ## Acceptance and the home request queue (R161, R162) -/

/-- What a message asks of its line. -/
def opOf (m : Msg) : TxnOp :=
  match m.kind with
  | .ioAtomic op size => .atomic op size (m.addr % 64) m.data m.q
  | k => .req k m.mv

/-- A message is accepted: its line is blocked and looked up. -/
def Chip.accept (s : Chip) (h : Nat) (m : Msg) : Chip :=
  let s := s.delMsg m.id
  let ga := m.addr / 64 * 64
  let (g, gw) := m.grove.getD (0, 0)
  let (st, pv) := s.homeState h ga
  let id := s.nextId
  let port := match s.open? m.opn with
    | some o => o.rport
    | none => s.usp m.inst
  let s := s.newTxn { id := 0, home := h, ga := ga, grove := g, gw := gw, op := opOf m, inst := m.inst, port := port
                      tag := m.tag, own := m.opn, opens := if m.opn = 0 then [] else [m.opn], sc := m.sc, initiator := m.src
                      st := st, pv := pv, given := m.given }
  let s := if st = 0 then s else (s.count (cntRegion h 14)).touchWay h (snfSet ga) ((s.snfWay h ga).getD 0)
  if decide (st = 0) && (match m.kind with
      | .ioAtomic _ _ => false
      | k => allocates k m.mv) then
    let (s, ok) := s.allocate id
    if ok then s.startTxn id m.data m.poison else s
  else s.startTxn id m.data m.poison

/-- Messages that wait in the home request queue of a region, in order. -/
def Chip.homeQueue (s : Chip) (h : Nat) : List Msg := s.msgs.filter (fun m => decide (m.loc = .home h) && m.queued)

/-- Line of a home message. -/
def Msg.line (m : Msg) : Nat := m.addr / 64 * 64

/-- Unblocking a line (R161): open requests end, and a read that is next in the home request queue for the line takes the held
full-line write-back with it (R171). -/
def Chip.unblock (s : Chip) (t : Txn) : Chip :=
  let s := match t.op with
    | .evict => s.setHome t.home t.ga 0 0
    | .req k mv =>
      if isWriteKind k then
        if (nextHome k mv t.st t.pv t.inst t.rsp).1 = 0 then s.setHome t.home t.ga 0 0 else s
      else s
    | _ => s
  let s := foldl' t.opens (fun o s => s.delOpen o) (s.delTxn t.id)
  match (s.homeQueue t.home).find? (fun m => decide (m.line = t.ga)) with
  | none => s
  | some m => if isReadKind m.kind then s.modMsg m.id (fun m => { m with given := t.wb }) else s

/-- One move of a home slice that needs nothing from outside: an unblock; the oldest waiting allocation that a way has become free
for (R176); or the oldest waiting request of a free line. -/
def Chip.homeMove (s : Chip) (h : Nat) : Option Chip :=
  match s.txns.find? (fun t => decide (t.home = h) && t.fin && t.answered && decide (s.txnMem t.id = 0)) with
  | some t => some (s.unblock t)
  | none =>
    let ready := (s.txns.filter (fun t => decide (t.home = h) && t.waits)).findSome? (fun t =>
      let (s', ok) := s.allocate t.id
      if ok then some (s'.startTxn t.id [] false)
      else if s'.txns.length > s.txns.length then some s'
      else none)
    match ready with
    | some s => some s
    | none =>
      if s.locks h ≥ maxLocks then none
      else ((s.homeQueue h).find? (fun m => (s.txnAt h m.line).isNone)).map (fun m => s.accept h m)

/-- The moves of a home slice until none is left. -/
def homeSettle (h : Nat) : Nat → Chip → Chip
  | 0, s => s
  | n + 1, s => match s.homeMove h with
    | some s => homeSettle h n s
    | none => s

def Chip.settle (s : Chip) (h : Nat) : Chip :=
  homeSettle h (2 * (s.txns.length + (s.homeQueue h).length) + 8) s

/-! ## Felling (R185 to R189) -/

/-- Completion of a message in a Felling or Felled grove (Table 9.7). -/
def Chip.complete97 (s : Chip) (h : Nat) (m : Msg) : Chip :=
  let s := s.delMsg m.id
  let p := match s.open? m.opn with
    | some o => o.rport
    | none => s.usp m.inst
  let st := s.statOf m.opn
  let s := match m.kind with
    | .memRd | .memRdData =>
      (s.toMember h p .memData m.tag m.addr (zeros 64) true 0 false none).toMember h p .cmp m.tag m.addr [] false 0 false st
    | .memInv | .memWr | .memWrPtl => s.toMember h p .cmp m.tag m.addr [] false 0 false st
    | .biConflict => s.toMember h p .biConflictAck m.tag m.addr [] false 0 false none
    | .ioAtomic _ _ => (match m.q with
      | some q => s.reply q 8 []
      | none => s.toMember h p .cpl m.tag m.addr [] false cplUR false st)
    | _ => s
  s.delOpen m.opn

/-- A line-lock entry of a felled grove is completed (Table 9.7): only what the requester still lacks. -/
def Chip.fellTxn (t : Txn) (s : Chip) : Chip :=
  let st := s.statOf t.own
  let s := if t.fin then s else match t.op with
    | .req k _ =>
      let s := if isReadKind k && !t.dataSent then s.toMember t.home t.port .memData t.tag t.ga (zeros 64) true 0 false none else s
      s.toMember t.home t.port .cmp t.tag t.ga [] false 0 false st
    | .atomic _ _ _ _ q => (match q with
      | some q => s.reply q 8 []
      | none => s.toMember t.home t.port .cpl t.tag t.ga [] false cplUR false st)
    | _ => s
  let s := foldl' t.opens (fun o s => s.delOpen o) (s.delTxn t.id)
  { s with inners := s.inners.map (fun (i : Inner) =>
      if i.who = .home t.id then { i with who := if isWriteKind i.kind then .felled t.grove else .none } else i) }

/-- Writes of R188 not yet acknowledged. -/
def Chip.writesOpen (s : Chip) (g : Nat) : Nat := (s.inners.filter (fun i => decide (i.who = .felled g))).length

/-- The grove's addresses. -/
def Chip.inGrove (s : Chip) (g ga : Nat) : Bool :=
  (s.gwins g).any (fun w => decide (s.gaBase g w ≤ ga) && decide (ga < s.gaBase g w + s.gaSize g w))

def Chip.dropCopies (s : Chip) (g : Nat) : Chip := { s with copies := s.copies.filter (fun c => !s.inGrove g c.ga) }

/-- The upstream port function of a member records an Uncorrectable Internal Error and signals it by its severity, where the host
has enabled the reporting of that severity and has not masked the error (Table 9.6 step 4). -/
def Chip.memberAer (s : Chip) (n : Nat) : Chip :=
  let x := s.vsw n
  let s := s.setVsw n { x with aerUie := true }
  if !x.aerMask && (if x.aerFatal then x.repFatal else x.repNonfatal) then s.out (.errMsg n x.aerFatal) else s

/-- A fell cause of Table 9.5 is detected in region `r` (R185, R186, Table 9.6 steps 1 to 4). Causes 1 to 5 raise source bit 7. -/
def Chip.fell (s : Chip) (g cause r inst port : Nat) : Chip :=
  if s.gst g = gFelling then
    let s := if cause ≤ 5 then s.regionFault r 7 clsG else s
    s.bump F.GRV_FELL.MERGED 1 g
  else if s.gst g ≠ gStanding then s
  else
    let s := if cause ≤ 5 then s.regionFault r 7 clsG else s
    let s := s.set F.GRV_STS.STATE gFelling g
    let s := s.wr .GRV_FELL g 0 (w32 (cause * 2 ^ 28 + r * 2 ^ 24 + inst % 64 * 2 ^ 16 + port))
    let s := s.wr .GRV_FELL_TIME_LO g 0 (w32 s.ns)
    let s := s.wr .GRV_FELL_TIME_HI g 0 (w32 (s.ns / 2 ^ 32))
    let s := (s.set F.GRV_STS.DISSOLVING 0 g).set F.GRV_STS.REMOVING 0 g
    let jobs := s.gjobs.filter (fun j => decide (j.grove = g))
    let s := { s with
      gjobs := s.gjobs.filter (fun j => decide (j.grove ≠ g))
      gholds := s.gholds ++ jobs.map (fun j => { grove := g, req := j.req, writes := false })
      engOwn := s.engOwn.filter (fun o => match o with
        | .groveUnmap x _ => decide (x ≠ g)
        | .groveJoin x => decide (x ≠ g)
        | _ => true) }
    let s := foldl' (s.txns.filter (fun t => decide (t.grove = g))) Chip.fellTxn s
    let s := foldl' (s.msgs.filter (fun m => m.queued && decide ((m.grove.map (·.1)) = some g)))
      (fun m s => s.complete97 (match m.loc with
        | .home h => h
        | _ => 0) m) s
    let s := s.dropCopies g
    let s := foldl' (bitsSet (s.joined g) 64) (fun n s => s.memberAer n) s
    let s := s.groveEvent g cause
    foldl' (List.range 8) (fun h s => s.settle h) s

/-- Every Standing grove is felled (causes 6 and 7); groves in other states are unaffected (R179). -/
def Chip.fellAll (s : Chip) (cause r : Nat) : Chip :=
  foldl' ((List.range 32).filter (fun g => decide (s.gst g = gStanding))) (fun g s => s.fell g cause r 0 0) s

/-- The member of an upstream port is a dead agent (causes 1 and 2) in every grove it is joined to. -/
def Chip.deadMember (s : Chip) (n cause : Nat) : Chip :=
  foldl' ((List.range 32).filter (fun g => bitAt (s.joined g) n))
    (fun g s => s.fell g cause (s.usp n / 16) n (s.usp n)) s

/-- A grove target's port fails (causes 4 and 5). -/
def Chip.deadTarget (s : Chip) (p cause : Nat) : Chip :=
  foldl' ((List.range 32).filter (fun g => s.groveUses g p)) (fun g s => s.fell g cause (p / 16) 0 p) s

/-! ## Errors of the home slice's storage (R179 to R181) -/

/-- An uncorrectable snoop-filter entry, of a way of the line's set, whatever the read was for: counted, class G, written invalid,
and its way retired where the read-back fails. -/
def Chip.snfLost (s : Chip) (h ga w : Nat) (stuck : Bool) : Chip :=
  let s := (s.bump F.SNF_ERR.UNCORR 1 h).eccLost h 1
  let s := if (s.snfAt h (snfSet ga) w).retired then s
    else if !stuck then s.setSnf h (snfSet ga) w {}
    else if s.fld F.SNF_RETIRE.COUNT h < 256 then
      (s.setSnf h (snfSet ga) w { retired := true }).set F.SNF_RETIRE.COUNT (s.fld F.SNF_RETIRE.COUNT h + 1) h
    else (s.setSnf h (snfSet ga) w {}).set F.SNF_RETIRE.FULL 1 h
  (s.regionFault h 3 clsG).fellAll 6 h

/-- A corrected snoop-filter entry (R180). -/
def Chip.snfFixed (s : Chip) (h : Nat) : Chip := ((s.bump F.SNF_ERR.CORR 1 h).eccCorr h 1).regionFault h 4 clsC

/-! ## Arrival at the home slice -/

/-- Node at which a message for a home slice or the hub has arrived: the region itself, or its landing area in turn. -/
def Chip.atHome (s : Chip) (m : Msg) : Option Nat :=
  if !m.toHome then none
  else match m.loc with
    | .home h => some h
    | .landing d _ => if s.landedInTurn m then some d else none
    | _ => none

/-- A write-back fence (R160): an earlier write of the same port and line has not been delivered to the home slice. -/
def Chip.fencedRsp (s : Chip) (m : Msg) : Bool :=
  s.msgs.any (fun x => decide (x.id < m.id) && decide (x.iport = m.iport) && decide (x.line = m.line) && x.toHome &&
    (decide (x.kind = .memWr) || decide (x.kind = .memWrPtl)) && !x.queued)

/-- A write of a member whose snoop for the line is unanswered is that snoop's write-back (R160): Cmp to the member, the data
to memory and, where data is owed, to the requester. An atomic operation takes a full line without writing it. -/
def Chip.writeBack (s : Chip) (h : Nat) (t : Txn) (m : Msg) : Chip :=
  let s := s.delMsg m.id
  let p := match s.open? m.opn with
    | some o => o.rport
    | none => s.usp m.inst
  let s := s.toMember h p .cmp m.tag m.addr [] false 0 false (s.statOf m.opn)
  let s := s.modTxn t.id (fun x => { x with
    opens := if m.opn = 0 then x.opens else x.opens ++ [m.opn]
    given := none
    wb := if m.kind = .memWr then some (m.data, m.poison) else none })
  let toMem : Bool := match t.op with
    | .atomic _ _ _ _ _ => decide (m.kind ≠ .memWr)
    | _ => true
  let s := if toMem then s.homeMem t m.kind m.data m.poison else s
  (finishStep t.id (dataStep t.id s)).settle h

/-- The walk of a removal or dissolution (R167, R168): a transaction for every entry that holds the member, or any member,
and whose line is free. Its write-backs take the class QOS_HUB.MGMT of the home region, for Table 5.2 names only those of an
eviction: DESIGN CHOICE (log entry 123). -/
def Chip.walkStep (s : Chip) (g : Nat) (inst : Option Nat) : Chip :=
  foldl' s.snf (fun x s =>
    let h := x.1 / 16 / 32768
    let set := x.1 / 16 % 32768
    let e := s.snfAt h set (x.1 % 16)
    let ga := snfLine set e
    let mask := match inst with
      | some n => if bitAt e.pv n then 2 ^ n else 0
      | none => e.pv
    if e.st = 0 ∨ mask = 0 ∨ s.inGrove g ga = false ∨ (s.txnAt h ga).isSome ∨ s.locks h ≥ maxLocks then s
    else
      let (_, gw) := (s.groveAt ga).getD (0, 0)
      let id := s.nextId
      let s := s.newTxn { id := 0, home := h, ga := ga, grove := g, gw := gw, op := .walk, inst := 64, port := 0, tag := 0
                          sc := s.scMgmt h, initiator := 128 + h, st := e.st, pv := e.pv }
      match s.txn? id with
      | some t => s.sendSnoops t .biSnpInv mask
      | none => s) s

/-- Nothing is left for the walk. -/
def Chip.walkDone (s : Chip) (g : Nat) (inst : Option Nat) : Bool :=
  !(s.txns.any (fun t => decide (t.grove = g) && (inst.isNone || decide (t.op = .walk)))) &&
    !(s.snf.any (fun x =>
      decide (x.2.st ≠ 0) && s.inGrove g (snfLine (x.1 / 16 % 32768) x.2) && (match inst with
        | some n => bitAt x.2.pv n
        | none => true)))

/-- A message of a member for its line: stopped by a fell (R187), taken as a write-back, queued, or accepted (R161, R162).
`none`: the home request queue is full and the message stays where it is. -/
def Chip.homeTake (s : Chip) (h : Nat) (m : Msg) : Option Chip :=
  match m.grove with
  | none => some (s.delMsg m.id)
  | some (g, _) =>
    if s.gFell g then some (s.complete97 h m)
    else if m.kind = .memSpecRd then some ((s.delMsg m.id).delOpen m.opn)
    else
      let queue : Option Chip :=
        if (s.homeQueue h).length ≥ 4096 then none
        else some (s.moveMsg { m with loc := .home h, queued := true, parts := [], lcred := false })
      match s.txnAt h m.line with
      | some t =>
        if isWriteKind m.kind && t.snoops.any (fun x => decide (x.inst = m.inst) && x.rsp.isNone) then some (s.writeBack h t m)
        else queue
      | none => if s.locks h ≥ maxLocks then queue else some ((s.accept h m).settle h)

/-- A request at a home slice whose storage reports an error on the way (R179 to R181). -/
def Chip.homeArrive (s : Chip) (h : Nat) (m : Msg) (err : HomeErr) : Chip :=
  let s := s.count (cntRegion h 13)
  let take (s : Chip) : Chip := (s.homeTake h m).getD s
  match err with
  | .clean => take s
  | .sfCorrected => take (s.snfFixed h)
  | .copyUncorrectable => take (((s.dropCopy h m.line).eccLost h 2).regionFault h 6 clsC)
  | .sfUncorrectable w => take (s.snfLost h m.line w false)
  | .sfStuck w => take (s.snfLost h m.line w true)
  | .lineUncorrectable => take (((s.eccLost h 2).regionFault h 5 clsG).fellAll 7 h)

/-- HOME_REQUEST (R158): a member's CXL.mem message has arrived at the home slice. -/
def homeRequest (id : Nat) (err : HomeErr) (s : Chip) : Chip :=
  match s.msg? id with
  | none => s
  | some m =>
    match s.atHome m, m.kind with
    | some h, .memRd | some h, .memRdData | some h, .memInv | some h, .memSpecRd | some h, .memWr | some h, .memWrPtl =>
      if m.inn ≠ 0 ∨ m.queued ∨ h ≥ 8 then s else s.homeArrive h m err
    | _, _ => s

/-- AGENT_ATOMIC (R163): a member's AtomicOp has arrived at the agent cache of the home region. -/
def agentAtomic (id : Nat) (err : HomeErr) (s : Chip) : Chip :=
  match s.msg? id with
  | none => s
  | some m =>
    match s.atHome m with
    | some h => if !isAtomicKind m.kind ∨ m.queued ∨ h ≥ 8 then s else s.homeArrive h m err
    | none => s

/-- State that a BIRsp reports: 0 I, 1 S, 2 E; one that Table 8.3 does not allow is taken as BIRspI (R159). -/
def rspCode (snp rsp : MsgKind) : Nat :=
  match snp, rsp with
  | .biSnpCur, .biRspE => 2
  | .biSnpCur, .biRspS => 1
  | .biSnpData, .biRspS => 1
  | _, _ => 0

/-- BIRSP_ARRIVAL (R178): matched to the member's outstanding snoop of the line, or stray. -/
def birspArrival (id : Nat) (s : Chip) : Chip :=
  match s.msg? id with
  | none => s
  | some m =>
    match s.atHome m with
    | none => s
    | some h =>
      if mcOf m.kind ≠ 5 ∨ s.fencedRsp m then s
      else
        let s := s.delMsg m.id
        match m.grove with
        | none => s
        | some (g, _) =>
          if s.gFell g then s
          else
            match s.txns.find? (fun t => decide (t.home = h) && decide (t.ga = m.line) &&
                t.snoops.any (fun x => decide (x.inst = m.inst) && x.rsp.isNone)) with
            | none => (s.bump F.GRV_STRAY.COUNT 1 h).count (cntRegion h 19)
            | some t =>
              let s := s.modTxn t.id (fun t => { t with snoops := t.snoops.map (fun x =>
                if x.inst = m.inst && x.rsp.isNone then { x with rsp := some (rspCode x.kind m.kind) } else x) })
              (finishStep t.id (dataStep t.id s)).settle h

/-- HOME_DEVICE_RESPONSE (R161): MemData or Cmp of a device reaches the home slice. -/
def homeDeviceResponse (id : Nat) (s : Chip) : Chip :=
  match s.msg? id with
  | none => s
  | some m =>
    match s.atHome m, s.inner? m.inn with
    | some h, some i =>
      (match i.who with
      | .home tid =>
        let s := (s.delMsg m.id).delInner i.id
        let s := s.endStat i.id i.initiator i.start (if isWriteKind i.kind then 0 else 64) (if isWriteKind i.kind then 64 else 0)
        (match s.txn? tid with
        | none => s
        | some t =>
          let s := if isWriteKind i.kind then s
            else
              let s := s.modTxn tid (fun x => { x with reading := false })
              s.useData { t with reading := false } m.data m.poison
          (finishStep tid (dataStep tid s)).settle h)
      | .felled _ | .none => (s.delMsg m.id).delInner i.id
      | _ => s)
    | some h, none => if m.inn ≠ 0 ∧ h < 8 then s.delMsg m.id else s
    | _, _ => s

/-- BICONFLICT (R172): BI-ConflictAck to the member, behind any completion already sent to it. -/
def biConflict (id : Nat) (s : Chip) : Chip :=
  match s.msg? id with
  | none => s
  | some m =>
    match s.atHome m with
    | none => s
    | some h =>
      if m.kind ≠ .biConflict ∨ h ≥ 8 then s
      else
        let s := (s.delMsg m.id).delOpen m.opn
        let s := (s.bump F.GRV_CONFLICT.COUNT 1 h).count (cntRegion h 18)
        s.toMember h (s.usp m.inst) .biConflictAck m.tag m.addr [] false 0 false none

/-- BIRSP_TO in the time base. -/
def Chip.birspTo (s : Chip) : Nat := clampTo 1 1000 (s.fld F.GRV_CFG.BIRSP_TO) * 100 * usT

/-- BIRSP_TIMEOUT (R177): a snoop of transaction `t` to member `n` is unanswered past BIRSP_TO. -/
def birspTimeout (t n : Nat) (s : Chip) : Chip :=
  match s.txn? t with
  | none => s
  | some x =>
    if x.snoops.any (fun y => decide (y.inst = n) && y.rsp.isNone && decide (y.since + s.birspTo ≤ s.time)) then
      s.fell x.grove 3 x.home n (s.usp n)
    else s

/-- GROVE_FELLING_COMPLETE (Table 9.6 step 5): Felled, JOINED cleared, and the replies held for it sent with STATE. -/
def grovFellDone (g : Nat) (s : Chip) : Chip :=
  if s.gst g ≠ gFelling then s
  else
    let s := (s.set F.GRV_STS.STATE gFelled g).setJoined g 0
    let s := s.groveEvent g (s.fld F.GRV_FELL.CAUSE g)
    let (mine, rest) := s.gholds.partition (fun x => decide (x.grove = g) && !x.writes)
    foldl' mine (fun x s => s.result (some x.req) 0x0A) { s with gholds := rest }

/-- DEVICE_VIRAL (R182): viral is forwarded to the hosts bound to the device and fells the groves it serves. -/
def deviceViral (p : Nat) (s : Chip) : Chip :=
  let hosts := ((s.bindingsOf p).map (fun x => s.usp x.1)).eraseDups
  (foldl' hosts (fun h s => s.out (.viral h)) s).deadTarget p 5

/-- A port is grove-eligible (R31). -/
def Chip.eligiblePort (s : Chip) (p : Nat) : Bool :=
  decide (s.role p = 1) && (s.port p).up && s.is F.CEL_PORT_STS.CXL_ACTIVE p && s.is F.CEL_PORT_STS.FLIT256 p &&
    s.is F.CEL_PORT_STS.MEM_BI p

/-- Members of a Standing grove that may join: eligible ports, not under removal. -/
def Chip.joinable (s : Chip) (g : Nat) : Nat :=
  maskOf ((bitsSet (s.members g) 64).filter (fun n => s.is F.VCS_INST_CFG.EN n && s.eligiblePort (s.usp n) &&
    !s.gjobs.any (fun j => decide (j.grove = g) && (decide (j.inst = some n) || j.inst.isNone))))

/-- Joining is an access change (R149): at a new epoch, or held for one by R139. -/
def Chip.groveJoin (s : Chip) (g : Nat) : Chip :=
  if s.gst g ≠ gStanding ∨ s.joinable g ||| s.joined g = s.joined g then s
  else if s.epFull then (if s.engOwn.contains (.groveJoin g) then s else { s with engOwn := s.engOwn ++ [.groveJoin g] })
  else (s.newEpoch).setJoined g (s.joinable g ||| s.joined g)

/-- A grove target is up: its port In service with CXL active (Table 8.8). -/
def Chip.targetsUp (s : Chip) (g : Nat) : Bool :=
  (s.groveTgts g).all (fun x =>
    decide (s.fld F.VCS_PORT_ADM.STATE x.2.2.port = 2) && s.is F.CEL_PORT_STS.CXL_ACTIVE x.2.2.port)

/-- GROVE_TARGETS_UP (Table 8.8 steps 3 and 4). -/
def groveTargetsUp (g : Nat) (s : Chip) : Chip :=
  if s.gst g ≠ gSeeding ∨ s.targetsUp g = false then s
  else
    let s := (s.set F.GRV_STS.TARGETS_UP 1 g).set F.GRV_STS.STATE gStanding g
    (s.groveEvent g 0).groveJoin g

/-! ## Removal and dissolution (R167, R168, R191) -/

/-- Grove windows of one member, or of every member, are removed: no longer enabled. -/
def Chip.groveUnmap (s : Chip) (g : Nat) (inst : Option Nat) : Chip :=
  { s with wins := s.wins.map (fun x =>
      if x.2.isGrove && x.2.en && decide (x.2.grove = g) && (match inst with
        | some n => decide (x.1 / 32 = n)
        | none => true)
      then (x.1, { x.2 with cfg := w32 (x.2.cfg.toNat % 2 ^ 31) }) else x) }

/-- A member, or any, maps a window of the grove. -/
def Chip.groveMapped (s : Chip) (g : Nat) (inst : Option Nat) : Bool :=
  s.wins.any (fun x => x.2.isGrove && x.2.en && decide (x.2.grove = g) && (match inst with
    | some n => decide (x.1 / 32 = n)
    | none => true))

/-- Targets released, tables cleared, the grove Free. -/
def Chip.groveFree (s : Chip) (g : Nat) : Chip :=
  let s := s.dropCopies g
  let s := { s with snf := s.snf.filter (fun x =>
    decide (x.2.st = 0) || !s.inGrove g (snfLine (x.1 / 16 % 32768) x.2)) }
  let s := foldl' (List.range 16) (fun w s =>
    let c := 16 * g + w
    let s := ((s.wr .GRV_WIN_CFG c 0 0).wr .GRV_WIN_GA c 0 0).wr .GRV_WIN_SIZE c 0 0
    foldl' (List.range 16) (fun t s => (s.wr .GRV_WIN_TGT_A c t 0).wr .GRV_WIN_TGT_B c t 0) s) s
  let s := ((s.wr .GRV_STS g 0 0).setMembers g 0).setJoined g 0
  s.groveEvent g 0

/-- The last step of a removal or dissolution, at a new epoch: windows removed, the member or the grove gone, the reply sent. -/
def Chip.groveUnmapNow (s : Chip) (g : Nat) (inst : Option Nat) : Chip :=
  let reqs := (s.gjobs.filter (fun j => decide (j.grove = g) && decide (j.inst = inst))).map (·.req)
  let s := { s with gjobs := s.gjobs.filter (fun j => !(decide (j.grove = g) && decide (j.inst = inst))) }
  let s := s.newEpoch.groveUnmap g inst
  let s := match inst with
    | some n =>
      let s := s.setMembers g (clrBit (s.members g) n)
      s.set F.GRV_STS.REMOVING 0 g
    | none => s.groveFree g
  foldl' reqs (fun q s => s.result (some q) 0 (some s.epCur)) s

/-- REMOVAL_WALK_DONE (R167, R168): nothing is left to walk, and the windows are removed; otherwise the walk goes on. -/
def removalWalkDone (g : Nat) (s : Chip) : Chip :=
  match s.gjobs.find? (fun j => decide (j.grove = g) && j.walking) with
  | none => s
  | some j =>
    if !s.walkDone g j.inst then s.walkStep g j.inst
    else if s.engOwn.contains (.groveUnmap g j.inst) then s
    else if s.epFull then { s with engOwn := s.engOwn ++ [.groveUnmap g j.inst] }
    else s.groveUnmapNow g j.inst

/-- The hold of R191 ends when no write is open: the Felled grove is freed and the reply carries SUCCESS. -/
def Chip.releaseFelled (s : Chip) (g : Nat) : Chip :=
  match s.gholds.find? (fun x => decide (x.grove = g) && x.writes) with
  | none => s
  | some x =>
    if s.writesOpen g ≠ 0 then s
    else
      let s := { s with gholds := s.gholds.filter (fun y => decide (y.grove ≠ g) || !y.writes) }
      let s := (s.groveUnmap g none).groveFree g
      s.result (some x.req) 0

/-! ## Probes (R169) -/

/-- SNF_PROBE_START in region `r`: `v` is the word written to SNF_PROBE_ADDR_HI. -/
def snfProbe (r : Nat) (v : W) (err : HomeErr) (s : Chip) : Chip :=
  let s := s.wr .SNF_PROBE_ADDR_HI r 0 (w32 (v.toNat % 2 ^ 14))
  let ga := (s.rd .SNF_PROBE_ADDR_LO r).toNat / 64 * 64 + v.toNat % 2 ^ 14 * 2 ^ 32
  let clear (s : Chip) : Chip := ((s.wr .SNF_PROBE_RES r 0 0).wr .SNF_PROBE_PV_LO r 0 0).wr .SNF_PROBE_PV_HI r 0 0
  if !bitAt v.toNat 31 then s
  else if homeOf ga ≠ r then (clear s).wr .SNF_PROBE_RES r 0 (w32 (2 ^ 31 + 2 ^ 25 + snfSet ga * 16))
  else
    let s := match err with
      | .sfCorrected => s.snfFixed r
      | .sfUncorrectable w => s.snfLost r ga w false
      | .sfStuck w => s.snfLost r ga w true
      | _ => s
    let s := clear s
    let pin := b2n (s.txnAt r ga).isSome
    let ag := b2n (s.copyOf r ga).isSome
    let base := 2 ^ 31 + pin * 2 ^ 27 + ag * 2 ^ 26 + snfSet ga * 16
    match s.snfWay r ga with
    | none => s.wr .SNF_PROBE_RES r 0 (w32 base)
    | some w =>
      let e := s.snfAt r (snfSet ga) w
      let s := s.wr .SNF_PROBE_RES r 0 (w32 (base + 2 ^ 30 + e.st * 2 ^ 28 + w))
      (s.wr .SNF_PROBE_PV_LO r 0 (w32 e.pv)).wr .SNF_PROBE_PV_HI r 0 (w32 (e.pv / 2 ^ 32))

end Sys2Proof.Machine
end

