-- ==== Sys2Proof/Machine/Grafts.lean ====
section
/-! DEFINITION. Grafts (spec/10_grafts.md): creation, the copy by a page-mover channel, the switch, timeouts, releases and the
probe of the extent remap table. -/

namespace Sys2Proof.Machine

/-! ## Results (Table 10.1) -/

/-- An extent's port may serve a graft: Downstream, In service, a type 1 or 2 target with its LD-ID in range. -/
def Chip.extOk (s : Chip) (x : Ext) : Bool :=
  decide (s.role x.port = 2) && decide (s.fld F.VCS_PORT_ADM.STATE x.port = 2) &&
    (decide (x.type = 1) || (decide (x.type = 2) && s.ldOk x.port x.ld))

/-- Two target words name the same device, or one the whole of the other. -/
def sameDevice (t : Tgt) (x : Ext) : Bool :=
  (decide (t.type = 1) || decide (t.type = 2)) && decide (t.port = x.port) &&
    (decide (t.type = 1) || decide (x.type = 1) || decide (t.ld = x.ld))

/-- The virtual switches that an extent's device, whole or a logical device of it, is bound to. -/
def Chip.boundInsts (s : Chip) (x : Ext) : List Nat :=
  ((s.bindingsOf x.port).filter (fun b => sameDevice (s.bound b.1 b.2) x)).map (·.1)

/-- The device of an extent gives memory to a grove. -/
def Chip.groveHeld (s : Chip) (x : Ext) : Bool :=
  (List.range 32).any (fun g => decide (s.gst g ≠ gFree) && (s.groveTgts g).any (fun t => sameDevice t.2.2 x))

/-- Two address ranges meet. -/
def meets (a n b m : Nat) : Bool := decide (a < b + m) && decide (b < a + n)

/-- Devices of an extent's port are bound, of this one to a virtual switch that does not hold the source: TARGET_HELD; bound at all
where a grove holds the source. -/
def Chip.targetHeld (s : Chip) (src tgt : Ext) : Bool :=
  s.groveHeld tgt || (if s.groveHeld src then !(s.boundInsts tgt).isEmpty
    else (s.boundInsts tgt).any (fun n => !(s.boundInsts src).contains n))

/-- A committed private window reaches a range of a device: windows other than `except`. -/
def Chip.winReaches (s : Chip) (x : Ext) (base len : Nat) (except : Option (Nat × Nat)) : Bool :=
  s.wins.any (fun y =>
    let w := y.2
    w.en && !w.isGrove && decide (except ≠ some (y.1 / 32, y.1 % 32)) &&
      (List.range ((waysOf w.iw).getD 1)).any (fun t =>
        sameDevice (w.tgt t) x && meets (w.dpaBase t) ((w.hi - w.lo) / (waysOf w.iw).getD 1) base len))

/-- A target of a grove window reaches a range of a device. -/
def Chip.gtgtReaches (s : Chip) (g : Nat) (t : Nat × Nat × Tgt) (x : Ext) (base len : Nat) : Bool :=
  let c := 16 * g + t.1
  sameDevice t.2.2 x && meets (s.fld F.GRV_WIN_TGT_B.DPA_BASE c t.2.1 * winUnit)
    (s.gaSize g t.1 / (waysOf (s.fld F.GRV_WIN_CFG.IW c)).getD 1) base len

/-- A grove window reaches a range of a device. -/
def Chip.groveReaches (s : Chip) (x : Ext) (base len : Nat) : Bool :=
  (List.range 32).any (fun g => decide (s.gst g ≠ gFree) && (s.groveTgts g).any (fun t => s.gtgtReaches g t x base len))

/-- A committed window other than window `w` of instance `n`, private or of kind grove, reaches a range of a device (R206). -/
def Chip.otherReaches (s : Chip) (x : Ext) (base len n w : Nat) : Bool :=
  s.winReaches x base len (some (n, w)) || s.wins.any (fun y => y.2.en && y.2.isGrove &&
    (s.groveTgts y.2.grove).any (fun t => decide (t.1 = y.2.gwin) && s.gtgtReaches y.2.grove t x base len))

/-- A channel that accepts a graft. -/
def Chip.chanFree (s : Chip) (c : Nat) : Bool := decide (c < 16) && decide (s.fld F.MOV_CH_STS.STATE c = 0) &&
  !s.is F.MOV_CH_STS.HALTED c

/-- The channel that GRAFT_CREATE names: itself, or the lowest idle one for 31. -/
def Chip.chanOf (s : Chip) (c : Nat) : Option Nat :=
  if c = 31 then (List.range 16).find? s.chanFree else if s.chanFree c then some c else none

/-- The first result of Table 10.1 that applies to GRAFT_CREATE. -/
def Chip.graftCheck (s : Chip) (chan : Nat) (src tgt : Ext) : Nat :=
  if (s.chanOf chan).isNone then 0x01
  else if !s.extOk src then 0x02
  else if !s.extOk tgt || tgt.same src then 0x03
  else if (match s.ertKey src with
    | some e => e.active
    | none => false) then 0x04
  else if s.targetHeld src tgt then 0x05
  else if s.ert.any (fun e => e.key.same tgt || (!e.key.same src && (e.tgt.same tgt || (match e.prev with
    | some (x, _) => x.same tgt
    | none => false)))) then 0x06
  else if (s.ertKey src).isNone && decide ((s.ert.filter (fun e => decide (e.key.port / 16 = src.port / 16))).length ≥ 65536) then
    0x07
  else 0

/-- Writes forwarded to a source port and not yet acknowledged (Table 10.2, Armed). -/
def Chip.writesTo (s : Chip) (p : Nat) : List Nat :=
  (s.opens.filter (fun o => (isWriteKind o.kind || isAtomicKind o.kind) && decide (o.dest = p) &&
      !s.msgs.any (fun m => decide (m.opn = o.id) && isRequest m.kind && !m.looked))).map (·.id) ++
    (s.inners.filter (fun i => (isWriteKind i.kind || isAtomicKind i.kind) && decide (i.dest = p) &&
      !s.msgs.any (fun m => decide (m.inn = i.id) && isRequest m.kind && !m.looked))).map (·.id)

/-- GRAFT_CREATE at the binding engine (R195). -/
def graftCreateNow (ws : List W) (q : ReqId) (s : Chip) : Chip :=
  let chan := wordAt ws 0 % 32
  let src := extOf (wordAt ws 1) (wordAt ws 2)
  let tgt := extOf (wordAt ws 3) (wordAt ws 4)
  let code := s.graftCheck chan src tgt
  if code ≠ 0 then s.result (some q) code
  else
    let c := (s.chanOf chan).getD 0
    let old := s.ertKey src
    let from' := match old with
      | some e => e.tgt
      | none => src
    let e : Ert := { key := src, tgt := tgt, st := 1, chan := c, prev := old.map (fun e => (e.tgt, e.flip)), since := s.time
                     before := s.writesTo from'.port }
    let s := match old with
      | some _ => s.setErt e
      | none => { s with ert := s.ert ++ [e] }
    let s := (s.set F.MOV_CH_STS.STATE 1 c).set F.MOV_CH_STS.CHUNKS 0 c
    let s := s.wr .MOV_CH_SRC c 0 (w32 (src.type * 2 ^ 12 + src.ld * 2 ^ 8 + src.port))
    let s := s.wr .MOV_CH_SRC_DPA c 0 (w32 src.ext)
    let s := s.wr .MOV_CH_TGT c 0 (w32 (tgt.type * 2 ^ 12 + tgt.ld * 2 ^ 8 + tgt.port))
    let s := s.wr .MOV_CH_TGT_DPA c 0 (w32 tgt.ext)
    let s := s.wr .MOV_CH_HELD c 0 0
    let s := s.graftEvent src 1 0 c 0
    s.result (some q) 0 none c

/-- GRAFT_ABORT at the binding engine (R202, cause 1). -/
def graftAbortNow (ws : List W) (q : ReqId) (s : Chip) : Chip :=
  match s.ertKey (extOf (wordAt ws 0) (wordAt ws 1)) with
  | some e => if e.active then (s.graftAbort e 1).result (some q) 0 else s.result (some q) 0x08
  | none => s.result (some q) 0x08

/-- GRAFT_RELEASE at the binding engine (R201). -/
def graftReleaseNow (ws : List W) (q : ReqId) (s : Chip) : Chip :=
  let x := extOf (wordAt ws 1) (wordAt ws 2)
  match s.ertKey x with
  | none => s.result (some q) 0x08
  | some e =>
    if e.active then s.result (some q) 0x08
    else if wordAt ws 0 % 2 = 0 ∧ (s.winReaches x (x.ext * extBytes) extBytes none || s.groveReaches x (x.ext * extBytes) extBytes) then
      s.result (some q) 0x09
    else
      let s := (s.newEpoch).delErt x
      let s := s.set F.MOV_CH_EPOCH.EPOCH s.epCur e.chan
      (s.graftEvent x 0 0 e.chan s.epCur).result (some q) 0 (some s.epCur)

/-! ## Copying (R198) -/

/-- Chunks that a channel keeps in flight. -/
def Chip.chanDepth (s : Chip) (c : Nat) : Nat := clampTo 1 16 (s.fld F.MOV_CH_CFG.DEPTH c)

/-- Locks on the next chunks, up to the channel's depth. -/
def Chip.lockChunks (s : Chip) (e : Ert) : Chip :=
  let n := min (s.chanDepth e.chan - e.chunks.length) (512 - e.next)
  let new : List ChunkX := (rangeFrom e.next n).map (fun k => { k := k })
  s.setErt { e with chunks := e.chunks ++ new, next := e.next + n }

/-- A write forwarded before arming has no Cmp yet: neither its open request nor the chip's own has its response. -/
def Chip.unacked (s : Chip) (b : Nat) : Bool :=
  s.opens.any (fun o => decide (o.id = b) && !o.acked) || s.inners.any (fun i => decide (i.id = b))

/-- GRAFT_ARMED_DRAINED (Table 10.2): every write forwarded to the source port before arming has its Cmp. -/
def graftArmedDrained (c : Nat) (s : Chip) : Chip :=
  match s.graftOf c with
  | none => s
  | some e =>
    if e.st ≠ 1 ∨ e.before.any s.unacked then s
    else
      let s := s.set F.MOV_CH_STS.STATE 2 c
      let s := s.lockChunks { e with st := 2, before := [] }
      s.graftEvent e.key 2 0 c 0

/-- The access check of a channel's request at the hub, under the rules in force (R136, R203). The spec gives no rule table for it:
DEDUCED (log entry 126) that what GRAFT_CREATE requires of the extent must hold still: a Downstream port In service with its LD-ID in
range, and a target not held for another. -/
def Chip.moverMay (s : Chip) (e : Ert) (x : Ext) : Bool := s.extOk x && !(x.same e.tgt && s.targetHeld e.key e.tgt)

/-- A request of channel `c` for line `l` of chunk `k`, checked at the hub and sent through the remap region. A denied one halts
the channel (R146) and aborts the graft (Table 10.4, cause 8). -/
def Chip.channelSend (s : Chip) (e : Ert) (c k l : Nat) (kind : MsgKind) (x : Ext) (data : List Byte) : Chip :=
  let dpa := x.ext * extBytes + k * 4096 + l * 64
  if !s.moverMay e x then s.graftAbort e 8
  else s.sendInner hubNode (e.key.port / 16)
    { id := 0, who := .move c k l, node := hubNode, initiator := 136 + c, epoch := some s.epCur, kind := kind, dest := x.port
      ld := x.ld, dpa := dpa, start := s.time }
    { id := 0, kind := kind, src := 136 + c, iport := none, region := hubNode, addr := dpa, dpa := dpa, dest := x.port
      ld := x.ld, len := data.length, data := data, sc := s.scMover (x.port / 16), chan := some c, loc := .inject hubNode }

/-- The chunk that a graft's channel reads next, in ascending address order (R198): locked, not issued, every earlier write to it
with its source Cmp. -/
def Chip.nextChunk (s : Chip) (e : Ert) : Option Nat :=
  match e.chunks.find? (fun x => x.locked && !x.issued) with
  | some x => if s.mirrors.any (fun m => m.key.same e.key && decide (m.line / 64 = x.k) && m.src) then none else some x.k
  | none => none

/-- Rate of a channel in GB/s (MOV_CH_CFG.RATE). -/
def Chip.chanRate (s : Chip) (c : Nat) : Nat := clampTo 1 32 (s.fld F.MOV_CH_CFG.RATE c)

/-- Time that a chunk of 4 KiB takes at a rate in GB/s, rounded up. -/
def chunkTime (gbs : Nat) : Nat := (4096 * nsT + gbs - 1) / gbs

/-- A channel has a chunk to read, and its rate lets it begin (R205). -/
def Chip.chanReady (s : Chip) (c : Nat) : Bool :=
  match s.graftOf c with
  | some e => decide (e.st = 2) && (s.nextChunk e).isSome && decide (s.movAt.get 0 c ≤ s.time)
  | none => false

/-- The channel that the hub serves next: the first that is ready after the one served last (R205). -/
def Chip.nextChan (s : Chip) : Option Nat :=
  ((rangeFrom 1 16).map (fun i => (s.movLast + i) % 16)).find? s.chanReady

/-- The channels' chunks are paced: the next of this channel at its rate, the next of any at 256 GB/s in all (R205). -/
def Chip.pace (s : Chip) (c : Nat) : Chip :=
  { s with movAt := (s.movAt.set 0 c (s.time + chunkTime (s.chanRate c))).set 0 16 (s.time + chunkTime 256), movLast := c }

/-- CHUNK_READ_ISSUE (R198 step 2, R205): the line reads of the next chunk of the channel whose turn it is. -/
def chunkReadIssue (c k : Nat) (s : Chip) : Chip :=
  match s.graftOf c with
  | none => s
  | some e =>
    if s.nextChan ≠ some c ∨ s.nextChunk e ≠ some k ∨ s.time < s.movAt.get 0 16 then s
    else
      let s := (s.setErt { e with chunks := e.chunks.map (fun x => if x.k = k then { x with issued := true } else x) }).pace c
      foldl' (List.range 64) (fun l s => match s.graftOf c with
        | some e => s.channelSend e c k l .memRd e.source []
        | none => s) s

/-- CHUNK_LINE_RETURN (R198 steps 3 and 4): a response to a channel's request reaches the hub. A line read is written to the
target; the 64th target Cmp ends the chunk. -/
def chunkLineReturn (x : LineBack) (s : Chip) : Chip :=
  match s.msg? x.id with
  | none => s
  | some m =>
    match s.atHome m, s.inner? m.inn with
    | some 8, some i =>
      let s := (s.delMsg m.id).delInner i.id
      (match i.who with
      | .move c k l =>
        let s := s.endStat i.id i.initiator i.start (if isWriteKind i.kind then 0 else 64) (if isWriteKind i.kind then 64 else 0)
        (match s.graftOf c with
        | none => s
        | some e =>
          if isWriteKind i.kind then
            if m.status ≠ 0 then s.graftAbort e 5
            else
              let s := s.count (cntChan c 1)
              let cs := e.chunks.map (fun x => if x.k = k then { x with acked := x.acked + 1 } else x)
              if cs.any (fun x => decide (x.k = k) && decide (x.acked ≥ 64)) then
                let s := (s.bump F.MOV_CH_STS.CHUNKS 1 c).count (cntChan c 0)
                s.lockChunks { e with chunks := cs.filter (fun x => decide (x.k ≠ k)) }
              else s.setErt { e with chunks := cs }
          else if m.status ≠ 0 then s.graftAbort e 5
          else if m.poison || x.bad then s.graftAbort e 4
          else s.channelSend e c k l .memWr e.tgt m.data)
      | _ => s)
    | some 8, none => if m.inn ≠ 0 then s.delMsg m.id else s
    | _, _ => s

/-- The egress queue of the target takes the write of an AtomicOp (Table 10.3), behind what the stream of R199 holds for it. -/
def Chip.atomMay (s : Chip) (m : Mirror) : Bool :=
  match s.ertKey m.key with
  | some e =>
    let r := m.key.port / 16
    let d := e.tgt.port
    if s.isDown d then true
    else if d / 16 = r then s.egTakes d (s.scMover r) 1 else s.seenOpen d (s.scMover (d / 16))
  | none => true

/-- MIRRORED_WRITE_COMPLETE (R197): an AtomicOp's original value is back and its result goes to the target; or both Cmps have
arrived and the requester gets its completion. -/
def mirroredWriteComplete (k : Nat) (s : Chip) : Chip :=
  match s.mirror? k with
  | none => s
  | some m =>
    let r := m.key.port / 16
    if m.src then s
    else match m.atom, m.tgt with
    | some (op, size, dpa, args), true =>
      if !m.dead && decide (m.status = 0) && !s.atomMay m then s else
      let s := s.modMirror k (fun x => { x with atom := none, tgt := !m.dead && decide (m.status = 0) })
      let s := match s.ertKey m.key with
        | some e =>
          if m.dead || decide (m.status ≠ 0) || !e.active then s.modMirror k (fun x => { x with tgt := false })
          else
            let new := atomResult op size m.data args
            let msg : Msg := { id := 0, kind := .memWrPtl, src := 128 + r, iport := none, region := r, addr := dpa, dpa := dpa
                               dest := e.tgt.port, ld := e.tgt.ld, len := new.length, data := new, loc := .inject r }
            s.sendCopy r msg (.mirror k true) e.tgt (s.scMover (e.tgt.port / 16))
        | none => s.modMirror k (fun x => { x with tgt := false })
      let s := if m.status ≠ 0 then (match s.ertKey m.key with
        | some e => s.graftAbort e 5
        | none => s) else s
      s.releaseHeld m.key
    | _, true => s
    | at', false =>
      let s := { s with mirrors := s.mirrors.filter (fun x => decide (x.id ≠ k)) }
      let s := match s.open? m.opn with
        | some o =>
          if m.posted then s.delOpen o.id
          else (match o.kind with
            | .ioAtomic _ _ => if m.status = 0 then s.respond r o .cplD m.data false cplSC false
                               else s.respond r o .cpl [] false m.status false
            | .uioWr => s.respond r o .cpl [] false m.status false
            | _ => s.respond r o .cmp [] false 0 false)
        | none => match s.inner? m.inn with
          | some i => s.innerAnswer r i .cmp [] false 0
          | none => s
      if at'.isSome then s.releaseHeld m.key else s

/-- GRAFT_COPY_DONE (Table 10.2): the target Cmp of every line of all 512 chunks has arrived. -/
def graftCopyDone (c : Nat) (s : Chip) : Chip :=
  match s.graftOf c with
  | none => s
  | some e =>
    if e.st ≠ 2 ∨ s.fld F.MOV_CH_STS.CHUNKS c < 512 then s
    else
      let s := s.setErt { e with st := 3, since := s.time }
      (s.set F.MOV_CH_STS.STATE 3 c).graftEvent e.key 3 0 c 0

/-- The switch takes effect, at a new epoch (R200, R201). -/
def Chip.graftSwitchNow (s : Chip) (e : Ert) : Chip :=
  let s := s.newEpoch
  let s := s.setErt { e with st := 4, flip := s.epCur, prev := none, chunks := [], before := [] }
  let s := s.releaseHeld e.key
  let s := s.set F.MOV_CH_STS.STATE 0 e.chan
  let s := s.set F.MOV_CH_EPOCH.EPOCH s.epCur e.chan
  (s.count (cntChan e.chan 2)).graftEvent e.key 4 0 e.chan s.epCur

/-- GRAFT_SWITCH (R200): every mirrored write of the extent has both Cmps. -/
def graftSwitch (c : Nat) (s : Chip) : Chip :=
  match s.graftOf c with
  | none => s
  | some e =>
    if e.st ≠ 3 ∨ s.mirrors.any (fun m => m.key.same e.key) then s
    else if s.epFull then
      if s.engOwn.contains (.graftSwitch c) then s else { s with engOwn := s.engOwn ++ [.graftSwitch c] }
    else s.graftSwitchNow e

/-- XFER_TO and FLIP_TO in the time base. -/
def Chip.xferTo (s : Chip) : Nat := clampTo 10 60000 (s.fld F.MOV_CFG.XFER_TO) * usT
def Chip.flipTo (s : Chip) : Nat := clampTo 10 60000 (s.fld F.MOV_CFG.FLIP_TO) * usT

/-- GRAFT_XFER_TIMEOUT (R202, cause 6). -/
def graftXferTimeout (c : Nat) (s : Chip) : Chip :=
  match s.graftOf c with
  | none => s
  | some e =>
    let armed := decide (e.st = 1) && decide (e.since + s.xferTo ≤ s.time)
    let line := s.inners.any (fun i => (match i.who with
      | .move d _ _ => decide (d = c)
      | _ => false) && decide (i.start + s.xferTo ≤ s.time))
    if armed || line then s.graftAbort e 6 else s

/-- GRAFT_FLIP_TIMEOUT (R200, cause 7). -/
def graftFlipTimeout (c : Nat) (s : Chip) : Chip :=
  match s.graftOf c with
  | none => s
  | some e => if e.st = 3 ∧ e.since + s.flipTo ≤ s.time then s.graftAbort e 7 else s

/-- CHANNEL_HALT_CLEAR (R203): 1 written to HALTED returns the channel to idle. -/
def channelHaltClear (c : Nat) (s : Chip) : Chip :=
  if s.is F.MOV_CH_STS.HALTED c then (s.set F.MOV_CH_STS.HALTED 0 c).set F.MOV_CH_STS.STATE 0 c else s

/-- ERT_PROBE_START in region `r` (R208): `v` is the word written to ERT_PROBE_SRC. -/
def ertProbe (r : Nat) (v : W) (s : Chip) : Chip :=
  let s := s.wr .ERT_PROBE_SRC r 0 (w32 (v.toNat &&& readMask .ERT_PROBE_SRC))
  if !bitAt v.toNat 31 then s
  else
    let x := extOf v.toNat (s.rd .ERT_PROBE_DPA r).toNat
    let s := (s.wr .ERT_PROBE_RES r 0 0).wr .ERT_PROBE_TDPA r 0 0
    if x.port / 16 ≠ r then s.wr .ERT_PROBE_RES r 0 (w32 (2 ^ 31 + 2 ^ 26))
    else match s.ertKey x with
      | none => s.wr .ERT_PROBE_RES r 0 (w32 (2 ^ 31))
      | some e =>
        let chan := if e.active then e.chan else 0
        let s := s.wr .ERT_PROBE_RES r 0 (w32 (2 ^ 31 + 2 ^ 30 + e.st * 2 ^ 27 + chan * 2 ^ 16 + e.tgt.type * 2 ^ 14 +
          e.tgt.ld * 2 ^ 8 + e.tgt.port))
        s.wr .ERT_PROBE_TDPA r 0 (w32 e.tgt.ext)

end Sys2Proof.Machine
end

