-- ==== Sys2Proof/Machine/Mesh.lean ====
section
/-! DEFINITION. Moves between queues (R71, R72, R77, R78) and the interior network (spec/11_interior_network.md): injection,
hops, landing, route tables and the route epoch. -/

namespace Sys2Proof.Machine

/-! ## Virtual channels, planes and landing credits (R213, R214, R216) -/

/-- DAT plane (R213); 0 on the other networks. -/
def Msg.plane (m : Msg) (net : Nat) : Nat := if net = 3 ∧ m.plane0 = false then m.src % 2 else 0

/-- Networks that a message needs: header, and data where it has a payload. -/
def Msg.nets (m : Msg) : List Nat :=
  if headerNet m.kind = 3 ∨ m.len = 0 then [headerNet m.kind] else [headerNet m.kind, 3]

/-- Landing slots of a message on a network: two for a DAT packet of two flits. -/
def Msg.landSlots (m : Msg) (net : Nat) : Nat := if net = 3 ∧ m.len > 256 then 2 else 1

/-- Slots in use in the landing area of node `d` for source `src`, network and virtual channel. -/
def Chip.landUsed (s : Chip) (d src net vc : Nat) : Nat :=
  ((s.msgs.filter (fun m => m.lcred && decide (m.toNode = d) && decide (m.fromNode = src) && m.nets.contains net &&
    decide (vcOf m.kind = vc))).map (fun m => m.landSlots net)).sum

/-- A landing credit is free: 2 slots reserved to each virtual channel and 2 shared (R216). -/
def Chip.landFits (s : Chip) (d src net vc n : Nat) : Bool :=
  let used (v : Nat) : Nat := s.landUsed d src net v + (if v = vc then n else 0)
  decide ((used 0 - 2) + (used 1 - 2) + (used 2 - 2) ≤ 2)

/-- Current route epoch (R222). -/
def Chip.routeEpoch (s : Chip) : Nat := s.fld F.NOC_ROUTE_CTRL.EPOCH

/-- A node injects a message under landing credits (R216), stamping the route epoch; otherwise it waits. Its packets stand in the
local input of the node's router with AGE 0 (R211). -/
def Chip.inject (s : Chip) (r : Nat) (m : Msg) : Chip :=
  let vc := vcOf m.kind
  let older := (s.msgs.takeWhile (fun x => decide (x.id ≠ m.id))).any (fun x =>
    decide (x.loc = .inject r) && decide (x.toNode = m.toNode) && decide (headerNet x.kind = headerNet m.kind) &&
      decide (vcOf x.kind = vc))
  if (older && decide (m.loc = .inject r)) || !(m.nets.all (fun n => s.landFits m.toNode r n vc (m.landSlots n))) then s
  else
    let s := s.leaveIngress m
    (s.moveMsg { m with loc := .mesh, fromNode := r, rEpoch := s.routeEpoch, lcred := true, shared := 0, rsv := 0
                        parts := m.nets.map (fun n => { net := n, node := r, since := s.time, ord := s.nextId }) }).fresh

/-! ## Ingress to egress (R71, R96) -/

/-- A message in its ingress queue may go to the mesh: to a home slice, to the remap region of an extent that has an entry (R20), or
as its region knows the egress queue. -/
def Chip.mayCross (s : Chip) (m : Msg) : Bool :=
  m.released && !m.spent && !s.olderWaits m && (m.toHome || (s.remapped m).isSome ||
    (s.seenOpen m.dest m.sc && (m.committed || !s.seenPressed m.dest m.sc)))

/-- A message leaves the ingress queue of port `p` by way of the node it goes to (R71). -/
def Chip.leaveFor (s : Chip) (p : Nat) (m : Msg) : Chip :=
  let r := p / 16
  if m.toHome then
    if m.toNode = r then (s.leaveIngress m).moveMsg { m with loc := .home r, shared := 0, rsv := 0 } else s.inject r m
  else if s.isDown m.dest && (s.remapped m).isNone then (s.leaveIngress m).meetsDown r m
  else if m.dest / 16 = r then
    if s.mayDeliver r false m && !s.outranked p m then (s.leaveIngress m).deliver r m else s
  else if s.mayCross m && !((s.port m.dest).flushing && (s.remapped m).isNone) then s.inject r { m with toNode := m.dest / 16 }
  else s

/-- INGRESS_TO_EGRESS_MOVE (R71); also of a write held at its remap region that may go on. -/
def ingressMove (id : Nat) (s : Chip) : Chip :=
  match s.msg? id with
  | none => s
  | some m =>
    match m.loc with
    | .ingress p => if !m.released || m.spent || s.olderWaits m then s else s.leaveFor p m
    | .held r => s.releaseOne r m
    | _ => s

/-- A message that waits at the node it goes to enters its egress queue, or the residue queue, if that takes it. -/
def Chip.enterHere (s : Chip) (r : Nat) (m : Msg) : Chip :=
  if !m.refs.isEmpty then s.landCopy r m
  else if s.mayDeliver r false m && !s.sentWaits r m then s.deliver r m
  else s

/-- MESH_INJECT (R216): a message waiting at a node, or in an ingress queue for another region. -/
def meshInject (id : Nat) (s : Chip) : Chip :=
  match s.msg? id with
  | none => s
  | some m =>
    match m.loc with
    | .inject r => if m.toNode = r then s.enterHere r m else s.inject r m
    | .ingress p =>
      if s.mayCross m && !(s.isDown m.dest && !m.toHome && (s.remapped m).isNone) then
        let d := if m.toHome then m.toNode else m.dest / 16
        if d = p / 16 then s else s.inject (p / 16) { m with toNode := d }
      else s
    | _ => s

/-! ## Packets and routers (R209 to R217, R222) -/

/-- Core clock in MHz at the operating point in force (Table 16.7), on which hub and mesh run (R210). -/
def Chip.coreMhz (s : Chip) : Nat := [2250, 1800, 1200, 600].getD (s.fld F.PWR_OP_STS.CUR) 2250

/-- A time in units of 8 hub core cycles, rounded down: DESIGN CHOICE (log entry 125). -/
def Chip.ageOf (s : Chip) (t : Nat) : Nat := t * s.coreMhz / 128000

/-- LEN of Table 11.1: flits on REQ, RSP and SNP, quarters of 64 bytes on DAT. -/
def Msg.lenField (m : Msg) (net : Nat) : Nat := if net = 3 then max 1 ((m.len + 63) / 64) else 1

/-- First quarter of a DAT packet in its flit (R211). The model puts no two packets into one flit: DESIGN CHOICE (log entry 125). -/
def firstQuarter : Nat := 0

/-- LOCAL of Table 11.1: the unit within the destination node. -/
def Chip.localUnit (s : Chip) (m : Msg) : Nat :=
  if m.toNode = hubNode then 1
  else if m.toHome then (if isAtomicKind m.kind then 17 else 16)
  else if (s.remapped m).isSome then 18
  else m.dest % 16

/-- The 64 bits of Table 11.1 that a packet carries. -/
def Chip.header (s : Chip) (m : Msg) (p : Part) : Nat :=
  m.toNode * 2 ^ 60 + m.fromNode * 2 ^ 56 + vcOf m.kind * 2 ^ 54 + m.rEpoch % 2 * 2 ^ 53 + min p.age 255 * 2 ^ 45 +
    m.src % 256 * 2 ^ 37 + s.localUnit m * 2 ^ 32 + m.lenField p.net * 2 ^ 28 + mcOf m.kind * 2 ^ 24 + m.sc % 16 * 2 ^ 20 +
    m.id % 65536

/-- Output of a router for a destination (Table 11.5, R222). -/
def Chip.route (s : Chip) (node tbl net dest : Nat) : Nat :=
  bitsOf (s.rd .NOC_ROUTE node (4 * tbl + net)).toNat (3 * dest) 3

/-- Mesh positions (Table 1.1) and the node at a position. -/
def nodeAt (x y : Nat) : Option Nat := (List.range 9).find? (fun n => decide (meshPos n = (x, y)))

/-- The neighbour that an output leads to. -/
def neighbour (node out : Nat) : Option Nat :=
  let (x, y) := meshPos node
  match out with
  | 1 => if x = 0 then none else nodeAt (x - 1) y
  | 2 => nodeAt (x + 1) y
  | 3 => if y = 0 then none else nodeAt x (y - 1)
  | 4 => nodeAt x (y + 1)
  | _ => none

/-- The router input that faces an output of the neighbour (R209): west and east, south and north. -/
def facing (out : Nat) : Nat :=
  match out with
  | 1 => 2
  | 2 => 1
  | 3 => 4
  | 4 => 3
  | _ => 0

/-- Packets in the input buffers of a router, on one network and plane. -/
def Chip.packetsAt (s : Chip) (node net plane : Nat) : List (Msg × Part) :=
  s.msgs.flatMap (fun m => (m.parts.filter (fun p => decide (p.net = net) && decide (p.node = node) && !p.landed && !p.atB &&
    decide (m.plane net = plane))).map (fun p => (m, p)))

/-- A packet is at the head of its input's buffer for its virtual channel: buffers are first in, first out (R217). -/
def isHead (l : List (Msg × Part)) (x : Msg × Part) : Bool :=
  !l.any (fun y => decide (y.2.inp = x.2.inp) && decide (vcOf y.1.kind = vcOf x.1.kind) && decide (y.2.ord < x.2.ord))

/-- The output that a packet leaves by: local at its destination, else by the table of its epoch (R222). -/
def Chip.outOf (s : Chip) (m : Msg) (p : Part) : Nat := if p.node = m.toNode then 0 else s.route p.node m.rEpoch p.net m.toNode

/-- The buffer of a router input has room for `n` flits of a virtual channel: it holds 4 (R210). -/
def Chip.roomAt (s : Chip) (node inp net plane vc n : Nat) : Bool :=
  decide ((((s.packetsAt node net plane).filter (fun x => decide (x.2.inp = inp) && decide (vcOf x.1.kind = vc))).map
    (fun x => x.1.landSlots net)).sum + n ≤ 4)

/-- A packet can advance: it leaves the mesh, or the next router has room for all of it (R210). -/
def Chip.advances (s : Chip) (m : Msg) (p : Part) : Bool :=
  if p.node = m.toNode then true
  else match neighbour p.node (s.outOf m p) with
    | some n => s.roomAt n (facing (s.outOf m p)) p.net (m.plane p.net) (vcOf m.kind) (m.landSlots p.net)
    | none => false

/-- Head packets of a router that can advance by one output. -/
def Chip.rivals (s : Chip) (node net plane out : Nat) : List (Msg × Part) :=
  let l := s.packetsAt node net plane
  l.filter (fun x => isHead l x && decide (s.outOf x.1 x.2 = out) && s.advances x.1 x.2)

/-- The oldest of some head packets: by the AGE of the header, equal ages by the lower router input (R13, Table 1.3). -/
def oldest : List (Msg × Part) → Option (Msg × Part)
  | [] => none
  | x :: xs => match oldest xs with
    | none => some x
    | some y => if y.2.age > x.2.age ∨ (y.2.age = x.2.age ∧ y.2.inp < x.2.inp) then some y else some x

/-- Key of a router output in the record of its flit cycles. -/
def outKey (node net plane out : Nat) : Nat := ((node * 5 + out) * 4 + net) * 2 + plane

/-- NOC_VC_CFG.BULK_SHARE, 0 to 8. -/
def Chip.bulkShare (s : Chip) : Nat := min 8 (s.fld F.NOC_VC_CFG.BULK_SHARE)

/-- Bulk is due at an output: the flit cycles left of 16, after a priority packet of `n` flits, would not hold what bulk has still to
receive (R215). Which of the 16 cycles bulk receives is DESIGN CHOICE (log entry 125): the last. -/
def Chip.bulkDue (s : Chip) (key n : Nat) : Bool :=
  let (c, b) := s.noc.get (0, 0) key
  decide (b < s.bulkShare) && decide (16 < c + n + (s.bulkShare - b))

/-- The packet that a router output chooses (R215): priority before bulk but for bulk's share, the oldest of a virtual channel. -/
def Chip.chosen (s : Chip) (node net plane out : Nat) : Option (Msg × Part) :=
  let l := s.rivals node net plane out
  let bulk := oldest (l.filter (fun x => decide (vcOf x.1.kind = 0)))
  match oldest (l.filter (fun x => decide (vcOf x.1.kind = 1))) with
  | none => bulk
  | some x => if bulk.isSome && s.bulkDue (outKey node net plane out) (x.1.landSlots net) then bulk else some x

/-- The flit cycles of a packet are noted at its output while both channels hold a packet that can advance. -/
def Chip.noteOut (s : Chip) (m : Msg) (p : Part) : Chip :=
  let out := s.outOf m p
  let l := s.rivals p.node p.net (m.plane p.net) out
  if l.any (fun x => decide (vcOf x.1.kind = 0)) && l.any (fun x => decide (vcOf x.1.kind = 1)) then
    let k := outKey p.node p.net (m.plane p.net) out
    let (c, b) := s.noc.get (0, 0) k
    let n := m.landSlots p.net
    let new : Nat × Nat := if c + n ≥ 16 then (c + n - 16, 0) else (c + n, if vcOf m.kind = 0 then b + n else b)
    { s with noc := s.noc.set (0, 0) k new }
  else s

/-- Changing the packet of a message on one network. -/
def Chip.modPart (s : Chip) (m : Msg) (net : Nat) (f : Part → Part) : Chip :=
  s.modMsg m.id (fun m => { m with parts := m.parts.map (fun (q : Part) => if q.net = net then f q else q) })

/-- A packet lands in its landing area, where it takes its place in the order of landing. A packet of the new epoch is held until the
marker of its source has arrived (Table 11.6 step 4). -/
def Chip.landPart (s : Chip) (m : Msg) (net : Nat) : Chip :=
  let wait := s.markers.contains (m.fromNode, m.toNode, net, vcOf m.kind, m.plane net) && decide (m.rEpoch = s.routeEpoch)
  let s := if wait then s.count (cntNode m.toNode 5) else s
  let ord := s.nextId
  let s := s.fresh.modPart m net (fun p => { p with node := m.toNode, landed := true, held := wait, atB := false, ord := ord })
  if net = headerNet m.kind then s.modMsg m.id (fun m => { m with loc := .landing m.toNode m.fromNode }) else s

/-- Boundary in front of a message's destination: 0 at a region, the movers' at the hub (R218). -/
def Msg.boundary (m : Msg) : Nat := if m.toNode = hubNode then 1 else 0

/-- A packet goes on by its output: to its landing area, to the boundary in front of it, or to the next router, which finds it older
by the time it has spent in this one (R211). -/
def Chip.hop (s : Chip) (m : Msg) (p : Part) : Chip :=
  let s := (s.noteOut m p).count (cntNode p.node p.net) (if p.net = 3 then m.landSlots 3 else 1)
  let ord := s.nextId
  if p.node = m.toNode then
    if s.fld F.NOC_BND_STS.STATE m.toNode m.boundary = 0 then s.landPart m p.net
    else s.fresh.modPart m p.net (fun q => { q with atB := true, ord := ord })
  else match neighbour p.node (s.outOf m p) with
    | some n => s.fresh.modPart m p.net (fun q => { q with
        node := n, inp := facing (s.outOf m p), age := min 255 (p.age + s.ageOf (s.time - p.since)), since := s.time, ord := ord })
    | none => s

/-- A header that its code cannot correct (R212): counted, class F; the packet is lost. -/
def Chip.headerLost (s : Chip) (m : Msg) (node : Nat) : Chip :=
  ((s.bump F.NOC_ERR.UNCORR 1 node).delMsg m.id).chipFault 0 clsF

/-- The packet that MESH_PACKET_ARRIVE names is at a router whose output chooses it (R215). -/
def Chip.meshPart (s : Chip) (id net : Nat) : Option (Msg × Part) :=
  match s.msg? id with
  | none => none
  | some m => match m.parts.find? (fun p => decide (p.net = net) && !p.landed && !p.atB) with
    | some p =>
      (match s.chosen p.node net (m.plane net) (s.outOf m p) with
      | some x => if x.1.id = id then some (m, p) else none
      | none => none)
    | none => none

/-- A packet whose header is good or corrected goes on (R212); `err` is 1 where the header was corrected, 3 where the payload is
uncorrectable, which is delivered poisoned. -/
def Chip.meshHop (s : Chip) (m : Msg) (p : Part) (err : Nat) : Chip :=
  let s := if err = 1 then ((s.bump F.NOC_ERR.CORR 1 p.node).count (cntNode p.node 4)).chipFault 1 clsC else s
  (if err = 3 ∧ p.net = 3 then s.modMsg m.id (fun m => { m with poison := true }) else s).hop m p

/-- MESH_PACKET_ARRIVE (R212): `err` is 0 for a clean packet, 1 for a corrected header, 2 for one that cannot be corrected, 3 for
an uncorrectable payload. -/
def meshArrive (id net err : Nat) (s : Chip) : Chip :=
  match s.meshPart id net with
  | some (m, p) => if err = 2 then s.headerLost m p.node else s.meshHop m p err
  | none => s

/-! ## Leaving the landing area (R72, R213) -/

/-- A message that landed earlier, in any landing area of the region, goes to the same egress queue first (R98). -/
def Chip.landBehind (s : Chip) (d : Nat) (m : Msg) : Bool :=
  s.msgs.any (fun y => decide (y.dest = m.dest) && decide (y.sc = m.sc) && decide (y.ord < m.ord) && s.landReady d y)

/-- LANDING_MOVE (R72). -/
def landingMove (id : Nat) (s : Chip) : Chip :=
  match s.msg? id with
  | none => s
  | some m =>
    match m.loc with
    | .landing d _ =>
      if m.toHome || !m.refs.isEmpty || d ≥ 8 || !s.landedInTurn m || s.landBehind d m then s
      else if (s.port m.dest).flushing && (s.remapped m).isNone then s
      else if s.mayDeliver d true m then s.deliver d { m with lcred := false, parts := [] }
      else s.count (cntRegion d 2)
    | _ => s

/-- MULTICAST_COPY_LAND (R77): a landed copy is stored once; it stays in the landing area while the residue queue refuses it. -/
def multicastLand (id : Nat) (s : Chip) : Chip :=
  match s.msg? id with
  | none => s
  | some m =>
    match m.loc with
    | .landing d _ =>
      if m.refs.isEmpty || d ≥ 8 || !s.landedInTurn m || (s.residueSplit d (slotsOf m.len)).isNone then s else s.landCopy d m
    | _ => s

/-- EGRESS_QUEUE_REOPEN (R78): an open queue takes the references that wait for it. -/
def egressReopen (p sc : Nat) (s : Chip) : Chip :=
  if s.egOpen p sc then
    { s with msgs := s.msgs.map (fun (m : Msg) => { m with refs := m.refs.map (fun (x : McRef) =>
        if x.port = p ∧ x.sc = sc then { x with waiting := false } else x) }) }
  else s

/-- QUEUE_STATE_BROADCAST (R72, R96): the open and pressed states of a region's egress queues reach the other regions. -/
def queueBroadcast (r : Nat) (s : Chip) : Chip :=
  let mask (f : Nat → Bool) : Nat := maskOf ((List.range 12).filter f)
  let ps := rangeFrom (16 * r) 16
  let s' := foldl' ps (fun p s => { s with
    qOpen := s.qOpen.set 0 p (mask (s.egOpen p))
    qPressed := s.qPressed.set 0 p (mask (s.egPressed p)) }) s
  s'.out (.queues r (ps.map (fun p => s'.qOpen.get 0 p)) (ps.map (fun p => s'.qPressed.get 0 p)))

/-! ## Route tables and the route epoch (R222 to R224) -/

/-- A route of the inactive set passes (R223): it reaches its destination within the shortest distance and makes no west hop
after a north or south hop. -/
def Chip.routeOk (s : Chip) (tbl net dest : Nat) : Nat → Nat → Bool → Bool
  | 0, node, _ => decide (node = dest) && decide (s.route node tbl net dest = 0)
  | fuel + 1, node, turned =>
    if node = dest then decide (s.route node tbl net dest = 0)
    else
      let out := s.route node tbl net dest
      if out = 1 ∧ turned = true then false
      else match neighbour node out with
        | some n => s.routeOk tbl net dest fuel n (turned || decide (out = 3) || decide (out = 4))
        | none => false

/-- Hops between two nodes. -/
def hops (a b : Nat) : Nat :=
  let (x, y) := meshPos a
  let (u, v) := meshPos b
  (max x u - min x u) + (max y v - min y v)

/-- First failing route of a table set: network, source, destination ascending. -/
def Chip.badRoute (s : Chip) (tbl : Nat) : Option (Nat × Nat × Nat) :=
  ((List.range 4).flatMap (fun n => (List.range 9).flatMap (fun a => (List.range 9).map (fun b => (n, a, b))))).find?
    (fun x => !s.routeOk tbl x.1 x.2.2 (hops x.2.1 x.2.2) x.2.1 false)

/-- Every marker of a flip (Table 11.6 step 3). -/
def allMarkers : List (Nat × Nat × Nat × Nat × Nat) :=
  (List.range 9).flatMap (fun a => ((List.range 9).filter (fun b => decide (b ≠ a))).flatMap (fun b =>
    (List.range 4).flatMap (fun n => (List.range 3).flatMap (fun v =>
      (if n = 3 then [0, 1] else [0]).map (fun p => (a, b, n, v, p))))))

/-- NOC_ROUTE_FLIP (R223, R224). -/
def routeFlip (s : Chip) : Chip :=
  let e := s.routeEpoch
  if !s.is F.NOC_ROUTE_CTRL.DRAINED then (s.set F.NOC_ROUTE_CTRL.REFUSED 1).set F.NOC_ROUTE_CTRL.RESULT 3
  else match s.badRoute (1 - e) with
    | some (n, a, b) =>
      let s := (s.set F.NOC_ROUTE_CTRL.REFUSED 1).set F.NOC_ROUTE_CTRL.RESULT 2
      ((s.set F.NOC_ROUTE_CTRL.NET n).set F.NOC_ROUTE_CTRL.SRC_NODE a).set F.NOC_ROUTE_CTRL.DEST_NODE b
    | none =>
      let s := ((s.set F.NOC_ROUTE_CTRL.EPOCH (1 - e)).set F.NOC_ROUTE_CTRL.DRAINED 0).set F.NOC_ROUTE_CTRL.RESULT 1
      { s with markers := allMarkers }.count (cntChip 8)

/-- A write of NOC_ROUTE_CTRL: FLIP asks for a flip, REFUSED and ACTIVE_WRITE clear by 1. -/
def routeCtrlWrite (v : W) (s : Chip) : Chip :=
  let s := s.wr .NOC_ROUTE_CTRL 0 0 (w32 (accessWrite .NOC_ROUTE_CTRL false (s.rd .NOC_ROUTE_CTRL).toNat v.toNat))
  if bitAt v.toNat 31 then routeFlip s else s

/-- EPOCH_MARKER_ARRIVE (Table 11.6): behind the old-epoch packets of its source, network, virtual channel and plane. -/
def markerArrive (src dst net vc plane : Nat) (s : Chip) : Chip :=
  let k := (src, dst, net, vc, plane)
  if !s.markers.contains k then s
  else if s.msgs.any (fun m => decide (m.fromNode = src) && decide (m.toNode = dst) && decide (vcOf m.kind = vc) &&
      decide (m.plane net = plane) && decide (m.rEpoch ≠ s.routeEpoch) &&
      m.parts.any (fun p => decide (p.net = net) && !p.landed && !p.atB)) then s
  else
    let s := { s with
      markers := s.markers.filter (fun x => decide (x ≠ k))
      msgs := s.msgs.map (fun (m : Msg) =>
        if m.fromNode = src ∧ m.toNode = dst ∧ vcOf m.kind = vc ∧ m.plane net = plane then
          { m with parts := m.parts.map (fun (p : Part) => if p.net = net then { p with held := false } else p) }
        else m) }
    if s.markers.isEmpty then s.set F.NOC_ROUTE_CTRL.DRAINED 1 else s

/-- ROUTE_TABLE_WRITE (R223): table `t` = 4 × set + network of a node. -/
def routeTableWrite (node t : Nat) (v : W) (s : Chip) : Chip :=
  if t / 4 = s.routeEpoch then s.set F.NOC_ROUTE_CTRL.ACTIVE_WRITE 1
  else s.wr .NOC_ROUTE node t (w32 (v.toNat % 2 ^ 27))

/-! ## Statistics (R225, R226) -/

/-- STAT_SNAPSHOT: the live figures are copied at one edge; each register saturates. -/
def statSnapshot (s : Chip) : Chip :=
  let sat (v : Nat) : W := w32 (min v 0xFFFFFFFF)
  let s := foldl' (List.range 156) (fun i s =>
    let x := s.stats.get {} i
    ((((s.wr .NOC_STAT_TXN i 0 (sat x.txn)).wr .NOC_STAT_RD i 0 (sat x.rd)).wr .NOC_STAT_WR i 0 (sat x.wr)).wr
      .NOC_STAT_LAT_SUM i 0 (sat x.latSum)).wr .NOC_STAT_LAT_MAX i 0 (sat x.latMax)) s
  s.set F.NOC_STAT_CTRL.SNAP_VALID 1

/-- STAT_CLEAR: the live figures are zeroed. -/
def statClear (s : Chip) : Chip := { s with stats := [] }

end Sys2Proof.Machine
end

