-- ==== Sys2Proof/Machine/Domains.lean ====
section
/-! DEFINITION. Boundaries that open and domains that come on (R219, R221, Table 11.3). -/

namespace Sys2Proof.Machine

/-- Placing a packet before those that came later. -/
def placeByOrd (x : Msg × Part) : List (Msg × Part) → List (Msg × Part)
  | [] => [x]
  | y :: ys => if x.2.ord < y.2.ord then x :: y :: ys else y :: placeByOrd x ys

/-- Packets held at a boundary, in the order of their arrival. -/
def Chip.heldAt (s : Chip) (node h : Nat) : List (Msg × Part) :=
  ((s.msgs.filter (fun m => decide (m.toNode = node) && decide (m.boundary = h))).flatMap (fun m =>
    (m.parts.filter (fun p => p.atB && !p.landed)).map (fun p => (m, p)))).foldl (fun l x => placeByOrd x l) []

/-- Packets held at a boundary move to their landing areas in the order of their arrival. -/
def Chip.landHeld (s : Chip) (node h : Nat) : Chip :=
  foldl' (s.heldAt node h) (fun x s => s.landPart x.1 x.2.net) s

/-- A boundary is Open. -/
def Chip.openBnd (s : Chip) (node h : Nat) : Chip :=
  ((s.set F.NOC_BND_STS.STATE 0 node h).set F.NOC_BND_STS.WAKE_PENDING 0 node h).landHeld node h

/-- Domains of the main die that come on. -/
def Chip.domsOn (s : Chip) (l : List Nat) : Chip :=
  let x := s.pw
  { s with pw := { x with off := x.off.filter (fun d => !l.contains d) } }

/-- GROVE_CREATE wakes every sleeping region's switching and home-slice domains (R221). -/
def Chip.wakeRegions (s : Chip) : Chip :=
  foldl' (List.range 8) (fun r s =>
    if s.domOn (regionDom r) && s.domOn (homeDom r) then s
    else
      let s := s.domsOn [regionDom r, homeDom r]
      if s.fld F.NOC_BND_STS.STATE r 0 < 3 then s else s.openBnd r 0) s

end Sys2Proof.Machine
end

