-- ==== Sys2Proof/Machine/Ports.lean ====
section
/-! DEFINITION. Ports that go down and are flushed (R79 to R82), go out of service (R118) and change their admission state (R119,
Table 6.8), and what their bridges report (R117). -/

namespace Sys2Proof.Machine

/-! ## Admission states (Table 6.8) -/

def admNA : Nat := 0
def admDown : Nat := 1
def admIn : Nat := 2
def admOos : Nat := 3
def admTraining : Nat := 4
def admLoop : Nat := 5
def admRetrain : Nat := 6
def admReady : Nat := 7
def admFailed : Nat := 8

def Chip.adm (s : Chip) (p : Nat) : Nat := s.fld F.VCS_PORT_ADM.STATE p

/-- In quarantine: Training, Loop check, Retrain or Ready. -/
def Chip.inQuarantine (s : Chip) (p : Nat) : Bool := decide (4 ≤ s.adm p) && decide (s.adm p ≤ 7)

/-- The PORT_STATE event (Table 12.5). -/
def Chip.portEvent (s : Chip) (p : Nat) : Chip :=
  s.event 0x0831 [s.adm p * 2 ^ 28 + s.fld F.VCS_PORT_ADM.OOS_CAUSE p * 2 ^ 24 + b2n (s.port p).up * 2 ^ 23 + p]

/-- A change of admission state, with its event; entering quarantine clears the discards (VCS_PORT_ADM.QUAR_DISCARDS). -/
def Chip.setAdm (s : Chip) (p st cause : Nat) : Chip :=
  if s.adm p = st ∧ s.fld F.VCS_PORT_ADM.OOS_CAUSE p = cause then s
  else
    let was := s.inQuarantine p
    let s := (s.set F.VCS_PORT_ADM.STATE st p).set F.VCS_PORT_ADM.OOS_CAUSE cause p
    let s := if s.inQuarantine p && !was then s.set F.VCS_PORT_ADM.QUAR_DISCARDS 0 p else s
    s.portEvent p

/-! ## What bridges report (R117) -/

/-- The bridges whose target is reached through port `p`. -/
def Chip.bridgesVia (s : Chip) (p : Nat) : List (Nat × Nat) :=
  ((List.range 64).flatMap (fun n => (List.range (s.vppbCount n)).map (fun v => (n, v)))).filter
    (fun x => decide (s.tgtPort (s.bound x.1 x.2) = some p))

/-- The target of a bridge is present. -/
def Chip.presentOf (s : Chip) (t : Tgt) : Bool :=
  if t.type = 3 then decide (s.pbr.get 0 t.pbr ≠ 0)
  else if t.type = 0 then false
  else if s.is F.CEL_PORT_CFG.SLOT_GATED t.port then s.is F.SLT_STS.PRESENT (blockOf t.port)
  else (s.port t.port).present

/-- The target's link is up. -/
def Chip.activeOf (s : Chip) (t : Tgt) : Bool :=
  match s.tgtPort t with
  | some p => (s.port p).up
  | none => false

/-- The hot-plug interrupt of a bridge: the management complex sends an MSI write from the hub to the host's port, in the class
QOS_HUB.MGMT of its region (R87, log entry 139). -/
def Chip.hotPlug (s : Chip) (n v : Nat) : Chip :=
  let p := s.usp n
  let x := Config.msi s.freeCtr
  s.useFree.send hubNode
    { id := 0, kind := .ioMsi, src := 154, iport := none, region := p / 16, inst := n, vb := v, addr := x.1, dpa := x.1, dest := p
      len := 4, data := bytesOfNat 4 x.2, sc := s.scMgmt (p / 16), loc := .inject hubNode }

/-- A bridge's Slot Status and link state as its host sees them, with the change bits and the hot-plug interrupt. -/
def Chip.report (s : Chip) (n v : Nat) (present active : Bool) : Chip :=
  let pd := decide (s.is F.VCS_VPPB_STS.PRESENT n v ≠ present)
  let dl := decide (s.is F.VCS_VPPB_STS.LINK_ACTIVE n v ≠ active)
  if !pd && !dl then s
  else
    let s := (s.set F.VCS_VPPB_STS.PRESENT (b2n present) n v).set F.VCS_VPPB_STS.LINK_ACTIVE (b2n active) n v
    let s := s.modVppb n v (fun x => { x with pdc := x.pdc || pd, dllsc := x.dllsc || dl })
    if (s.vppb n v).hpie then s.hotPlug n v else s

/-- The bridges of a port report again. -/
def Chip.refreshBridges (s : Chip) (p : Nat) : Chip :=
  foldl' (s.bridgesVia p) (fun x s =>
    if s.fld F.VCS_VPPB_STS.STATE x.1 x.2 = 0 then s
    else s.report x.1 x.2 (s.presentOf (s.bound x.1 x.2)) (s.activeOf (s.bound x.1 x.2))) s

/-! ## Flush (R80 to R82) -/

/-- A message of the chip that a flush takes, from the point of view of port `p`: one bound for it, or one that came from it. -/
def flushMsg (p : Nat) (m : Msg) (s : Chip) : Chip :=
  let r := p / 16
  match m.loc with
  | .egress q _ =>
    if q = p then (s.meetsDown r m).modPort p (fun x => { x with flushCount := x.flushCount + 1 }) else s
  | .ingress q =>
    if q = p then
      if m.spent then s.delMsg m.id
      else if m.tail && forwardedFromDown m.kind then s
      else ((s.delMsg m.id).delOpen (if isRequest m.kind then m.opn else 0)).modPort p
        (fun x => { x with flushCount := x.flushCount + 1 })
    else s
  | _ => s

/-- A message cut through whose tail had not arrived is completed as a full-length message with poison (R81). -/
def poisonTail (p : Nat) (m : Msg) : Msg :=
  if m.iport = some p ∧ m.tail = false then { m with tail := true, poison := true } else m

/-- An outstanding request that was forwarded to the port and is not answered. -/
def flushOpen (p : Nat) (o : OpenReq) (s : Chip) : Chip :=
  if o.dest = p ∧ o.sent = true ∧ !s.msgs.any (fun m => decide (m.opn = o.id)) then
    (s.complete46 (p / 16) o).modPort p (fun x => { x with flushCount := x.flushCount + 1 })
  else s

/-- A message of the chip carries one of its own requests, or the answer to one: as itself, or by a reference. -/
def Msg.carries (m : Msg) (id : Nat) : Bool := decide (m.inn = id) || m.refs.any (fun x => decide (x.inn = id))

/-- One of the chip's own requests that was forwarded to the port and is not answered. -/
def flushInner (p : Nat) (i : Inner) (s : Chip) : Chip :=
  if i.dest = p ∧ !s.msgs.any (fun m => m.carries i.id) then
    (s.innerDown (p / 16) i).modPort p (fun x => { x with flushCount := x.flushCount + 1 })
  else s

/-- References to the port in the residue queues are removed, and a copy with none left is freed (Table 4.5 step 4); the copies of
mirrored writes among them are answered as Table 4.6 gives. Each counts as a message flushed: DESIGN CHOICE (log entry 119). -/
def Chip.dropRefs (s : Chip) (p : Nat) : Chip :=
  let mine := s.msgs.flatMap (fun m => m.refs.filter (fun x => decide (x.port = p)))
  let s : Chip := { s with msgs := (s.msgs.map (fun (m : Msg) =>
      (m, { m with refs := m.refs.filter (fun (x : McRef) => decide (x.port ≠ p)) }))).filterMap (fun x =>
        if !x.1.refs.isEmpty && x.2.refs.isEmpty then none else some x.2) }
  (foldl' mine (fun x s => match s.inner? x.inn with
    | some i => s.innerDown (p / 16) i
    | none => s) s).modPort p (fun x => { x with flushCount := x.flushCount + mine.length })

/-- Steps 1 to 4 of the flush of Table 4.5. BUF_FLUSH.COUNT reads 0 until step 5, and PORT names the port whose flush began last:
DESIGN CHOICE (log entry 119). -/
def Chip.flush (s : Chip) (p : Nat) : Chip :=
  let r := p / 16
  let s := s.modPort p (fun x => { x with up := false, upHeld := false, flushing := true, flushCount := 0 })
  let s := ((s.set F.BUF_FLUSH.BUSY 1 r).set F.BUF_FLUSH.PORT (p % 16) r).set F.BUF_FLUSH.COUNT 0 r
  let s := { s with opens := s.opens.map (fun (o : OpenReq) => if o.rport = p then { o with mute := true } else o) }
  let s := foldl' s.msgs (flushMsg p) s
  let s := { s with msgs := s.msgs.map (poisonTail p) }
  let s := foldl' s.opens (flushOpen p) s
  let s := foldl' s.inners (flushInner p) s
  let cut := s.cuts.filter (fun c => decide (c.iport = p) && decide (c.port ≠ p))
  let s : Chip := { s with cuts := s.cuts.filter (fun c => decide (c.iport ≠ p) && decide (c.port ≠ p)) }
  (foldl' cut (fun c s => s.out (.ended c.port c.tag false)) s).dropRefs p

/-! ## Going down (R79) -/

/-- Table 3.8 codes. -/
def ltInactive : Nat := 0x00
def ltDetect : Nat := 0x01
def ltPolling : Nat := 0x02
def ltConfig : Nat := 0x03
def ltL0 : Nat := 0x04
def ltRecovery : Nat := 0x05
def ltRecEq : Nat := 0x06
def ltL0p : Nat := 0x07
def ltL1 : Nat := 0x08
def ltLoopLead : Nat := 0x09
def ltLoopFollow : Nat := 0x0A
def ltHotReset : Nat := 0x0B
def ltDisabled : Nat := 0x0C
def ltTest : Nat := 0x0D

def Chip.ltssm (s : Chip) (p : Nat) : Nat := s.fld F.CEL_LINK_STS.LTSSM p

/-- A state from which entry to Detect, Disabled or Hot Reset does not make the port down again. -/
def isIdle (l : Nat) : Bool := decide (l = 0) || decide (l = 1) || decide (l = 0x0B) || decide (l = 0x0C)

/-- Lanes of a port: cells and lanes in them. -/
def Chip.portLanes (s : Chip) (p : Nat) : List (Nat × Nat) :=
  (List.range (4 * s.cells p)).map (fun l => (p + l / 4, l % 4))

/-- What a link that is down no longer reports; a pass through Detect also clears RATE_DOWN and EQ_DONE (R45). -/
def Chip.clearLink (s : Chip) (p : Nat) (detect : Bool) : Chip :=
  let s := foldl' [F.CEL_PORT_STS.NEG_WIDTH, F.CEL_PORT_STS.NEG_RATE, F.CEL_PORT_STS.CXL_ACTIVE, F.CEL_PORT_STS.CACHE_ACTIVE,
    F.CEL_PORT_STS.MEM_BI, F.CEL_PORT_STS.FLIT256, F.CEL_PORT_STS.LOPT, F.CEL_PORT_STS.GROVE_ELIGIBLE]
    (fun f s => s.set f 0 p) s
  let s := foldl' [F.CEL_LINK_STS.EQ_PHASE, F.CEL_LINK_STS.REVERSED] (fun f s => s.set f 0 p) s
  let s := if detect then (s.set F.CEL_LINK_STS.RATE_DOWN 0 p).set F.CEL_LINK_STS.EQ_DONE 0 p else s
  let s := foldl' (s.portLanes p) (fun l s =>
    foldl' [F.LNK_LANE_STS.ACTIVE, F.LNK_LANE_STS.ALIGNED, F.LNK_LANE_STS.CDR_LOCK, F.LNK_LANE_STS.SIG_DET]
      (fun f s => s.set f 0 l.1 l.2) s) s
  s.modPort p (fun x => { x with
    crHdr := [], crData := [], noTraffic := false, loopLead := false, detected := x.detected || detect })

/-- A port's going down aborts the grafts of its devices (Table 10.4): cause 2 for the source, 3 for the target, or `removal`. -/
def Chip.abortPort (s : Chip) (p : Nat) (removal : Bool) : Chip :=
  s.abortWhere (fun e => decide (e.source.port = p) || decide (e.tgt.port = p))
    (fun e => if removal then 8 else if e.source.port = p then 2 else 3)

/-- The admission state that a port that goes down takes (Table 6.8). -/
def admAfterDown (a : Nat) : Nat := if a = admIn then admDown else if a = admLoop ∨ a = admReady then admTraining else a

/-- The groves and grafts that a port which goes down serves (R114, R182). -/
def Chip.deadPort (s : Chip) (p : Nat) : Chip :=
  match s.role p with
  | 1 => (match s.instOf p with
    | some n => s.deadMember n 1
    | none => s)
  | 2 => (s.abortPort p false).deadTarget p 4
  | _ => s

/-- The LTSSM of a port enters `l`: from a state that is not already Detect, Disabled or Hot Reset, the port goes down and is
flushed (R79). -/
def Chip.takeDown (s : Chip) (p l : Nat) : Chip :=
  if isIdle (s.ltssm p) then
    let s := s.set F.CEL_LINK_STS.LTSSM l p
    if l = ltDetect then s.clearLink p true else s
  else
    let s := s.count (cntCell p 10)
    let s := (s.set F.CEL_LINK_STS.LTSSM l p).flush p
    let s := s.clearLink p (decide (l = ltDetect))
    let s := s.modPort p (fun x => { x with downSince := some s.time, step := if l = ltDetect then 2 else 0 })
    let s := s.setAdm p (admAfterDown (s.adm p)) (s.fld F.VCS_PORT_ADM.OOS_CAUSE p)
    s.refreshBridges p

/-- A port goes down (R79). Groves and grafts come first (R114, R182), then the flush. -/
def Chip.goDown (s : Chip) (p l : Nat) : Chip := (if isIdle (s.ltssm p) then s else s.deadPort p).takeDown p l

/-- FLUSH_DONE (Table 4.5 step 5). A link-up that the flush withheld is reported by `portUp`, the next chapter's. PORT and COUNT
describe the flush that ended last, where two ports of a region are flushed at once: DESIGN CHOICE (log entry 119). -/
def Chip.flushEnd (s : Chip) (p : Nat) : Chip :=
  if !(s.port p).flushing then s
  else
    let r := p / 16
    let n := (s.port p).flushCount
    let s := s.modPort p (fun x => { x with flushing := false })
    let s := (s.set F.BUF_FLUSH.COUNT (min n 65535) r).set F.BUF_FLUSH.PORT (p % 16) r
    let busy := (rangeFrom (16 * r) 16).any (fun q => (s.port q).flushing)
    let s := s.set F.BUF_FLUSH.BUSY (b2n busy) r
    ((s.count (cntRegion r 5)).count (cntRegion r 6) n).cellFault p 5 clsP

/-! ## Out of service (R118) -/

/-- Queueing an access change of the chip's own (R106). -/
def Chip.own (s : Chip) (o : EngOp) : Chip := { s with engOwn := s.engOwn ++ [o] }

/-- A link leaves the Hot Reset that the chip holds (R107). -/
def Chip.endHotReset (s : Chip) (p : Nat) : Chip :=
  if (s.port p).hotReset then
    let s := s.modPort p (fun x => { x with hotReset := false, step := if s.ltssm p = ltHotReset then 2 else x.step })
    if s.ltssm p = ltHotReset then (s.set F.CEL_LINK_STS.LTSSM ltDetect p).clearLink p true else s
  else s

/-- A bridge becomes Unbound: a surprise removal for its host. -/
def Chip.unbindNow (s : Chip) (n v : Nat) : Chip :=
  let s := s.report n v false false
  let s := (s.wr .VCS_VPPB_BIND n v 0).set F.VCS_VPPB_STS.STATE 0 n v
  s.modVppb n v (fun x => { x with reach := false, crs := false, drain := none, squash := none, binding := none })

/-- The bind of a bridge completes (Table 6.4 steps 3 and 4): the target is reached, its presence reported, the reply sent. -/
def Chip.finishBind (s : Chip) (n v : Nat) : Chip :=
  match (s.vppb n v).binding with
  | none => s
  | some (e, q) =>
    let s := s.modVppb n v (fun x => { x with binding := none, reach := true })
    let s := s.set F.VCS_VPPB_STS.STATE 2 n v
    let t := s.bound n v
    let s := s.modVppb n v (fun x => { x with pdc := true, dllsc := true })
    let s := (s.set F.VCS_VPPB_STS.PRESENT (b2n (s.presentOf t)) n v).set F.VCS_VPPB_STS.LINK_ACTIVE (b2n (s.activeOf t)) n v
    let s := if (s.vppb n v).hpie then s.hotPlug n v else s
    let s := s.result q 0 (some e)
    if (t.type = 1 ∨ t.type = 2) ∧ s.adm t.port = admReady then s.setAdm t.port admIn 0 else s

/-- A message between a bridge and its target that belongs to no request: BIConflict and its acknowledgement. -/
def Msg.between (m : Msg) (n v : Nat) : Bool :=
  (decide (m.kind = .biConflict) || decide (m.kind = .biConflictAck)) && m.grove.isNone && !m.toHome && decide (m.inst = n) &&
    decide (m.vb = v)

/-- The requests and messages of a bridge's scope (R110) are completed as Table 4.6 gives and counted in SQUASHED (R112): a
BIConflict is discarded, as is a request's own message, whose credits go back to its sender (R70); an acknowledgement, which comes
from the target, goes on. -/
def Chip.squashScope (s : Chip) (n v : Nat) : Chip :=
  let mine := s.opens.filter (fun o => decide (o.inst = n) && decide (o.vb = v) && o.grove.isNone)
  let loose := s.msgs.filter (fun m => m.between n v)
  let s := s.set F.VCS_VPPB_STS.SQUASHED (min (s.fld F.VCS_VPPB_STS.SQUASHED n v + mine.length + loose.length) 65535) n v
  let s := foldl' (loose.filter (fun m => decide (m.kind = .biConflict))) (fun m s => s.freeIngress m) s
  foldl' mine (fun o s => (foldl' (s.msgs.filter (fun m => decide (m.opn = o.id))) (fun m s => s.freeIngress m) s).complete46
    (o.dest / 16) o) s

/-- A removal squashes what a bridge has outstanding before its target's link goes down, so that SQUASHED counts it (R112,
R118, Table 6.5). -/
def Chip.squashAhead (s : Chip) (n v : Nat) : Chip :=
  match s.fld F.VCS_VPPB_STS.STATE n v with
  | 2 | 3 => (s.set F.VCS_VPPB_STS.SQUASHED 0 n v).squashScope n v
  | 4 => s.squashScope n v
  | _ => s

/-- The bindings of a port are squashed and removed (R118, Table 6.2, Table 6.6). -/
def Chip.squashBridge (s : Chip) (n v : Nat) (reqs : List ReqId) : Chip :=
  let s := s.finishBind n v
  match s.fld F.VCS_VPPB_STS.STATE n v with
  | 2 => s.own (.squash n v reqs)
  | 3 => match (s.vppb n v).drain with
    | some d => (s.set F.VCS_VPPB_STS.STATE 4 n v).modVppb n v (fun x => { x with
        drain := none, squash := some { d with next := 0, reqs := d.reqs ++ reqs } })
    | none => s
  | 4 => s.modVppb n v (fun x => { x with squash := x.squash.map (fun d => { d with next := 0, reqs := d.reqs ++ reqs }) })
  | 5 =>
    let s := s.unbindNow n v
    foldl' reqs (fun q s => s.result (some q) 0) s
  | _ => s

/-- What a removal from service does beside the admission state (R26, R118): groves and grafts first (R114), where `removed` names
a removal, not a failure (Table 10.4); the link, the bindings of a downstream port, the attachment of an upstream one. -/
def Chip.removal (s : Chip) (p l : Nat) (removed : Bool) : Chip :=
  let role := s.role p
  let s := match role with
    | 1 => (match s.instOf p with
      | some n => s.deadMember n (if removed then 1 else 2)
      | none => s)
    | 2 =>
      let hit := s.ert.any (fun e => e.active && (decide (e.source.port = p) || decide (e.tgt.port = p)))
      let s := if hit then
          foldl' (s.bindingsOf p) (fun x (s : Chip) => s.set F.VCS_VPPB_STS.GRAFT_ABORTED 1 x.1 x.2) s
        else s
      (s.abortPort p removed).deadTarget p 4
    | _ => s
  let s := s.modPort p (fun x => { x with hotReset := false })
  let s := if role = 2 then foldl' (s.bindingsOf p) (fun x s => s.squashAhead x.1 x.2) s else s
  let s := s.takeDown p l
  match role with
  | 1 => (match s.instOf p with
    | some n => s.set F.VCS_INST_STS.ATTACHED 0 n
    | none => s)
  | 2 => foldl' (s.bindingsOf p) (fun x s => s.squashBridge x.1 x.2 []) s
  | _ => s

/-- The level of the CSB pin that a downstream port drives (R38). -/
def Chip.driveCsb (s : Chip) (p : Nat) : Chip :=
  let x := s.port p
  let gated := s.is F.CEL_PORT_CFG.SLOT_GATED p
  let hi := x.waved && !x.csbOos && !s.is F.FLT_SAFE_STS.SAFE &&
    (!gated || (match x.pgSince with
      | some t => decide (t + 100 * msT ≤ s.time)
      | none => false))
  if s.role p = 2 then s.modPort p (fun x => { x with csbOut := hi }) else s.modPort p (fun x => { x with csbOut := false })

/-- A port goes out of service (R118): causes 1 PORT_REMOVE, 2 isolation, 3 presence lost, 4 slot trip, 5 down limit. -/
def Chip.outOfService (s : Chip) (p cause : Nat) : Chip :=
  let a := s.adm p
  if a = admNA ∨ a = admOos ∨ a = admFailed then s
  else if s.inQuarantine p && (decide (cause = 2) || decide (cause = 5)) then s
  else
    let l := if cause = 5 then ltDetect else ltDisabled
    let s := s.removal p l (decide (cause = 1))
    let s := s.set F.CEL_LINK_STS.LTSSM l p
    let s := s.modPort p (fun x => { x with
      everOos := true, downSince := none, step := if cause = 5 then 2 else 0, csbOos := decide (cause ≠ 5), upHeld := false })
    ((s.setAdm p admOos cause).refreshBridges p).driveCsb p

end Sys2Proof.Machine
end

