-- ==== Sys2Proof/Machine/Engine.lean ====
section
/-! DEFINITION. The binding engine (R106): bindings, drains, squashes and resets (spec/06_virtual_switches_and_binding.md), window
commits (Table 7.4), grove commands (Table 8.7) and settle (R206); the commit of epochs and what follows it. -/

namespace Sys2Proof.Machine

/-! ## Ports that come up (Table 6.8, R122) -/

/-- Entry to Ready from the loop check or Retrain: the image's bindings or attachment are asked for again (R122). -/
def Chip.quarantineReady (s : Chip) (p : Nat) : Chip :=
  if !s.is F.VCS_QUAR_CFG.IMG_REBIND then s
  else
    let binds := (s.imgBinds.filter (fun b => let t := tgtOf b.2.2.toNat; (t.type = 1 ∨ t.type = 2) ∧ t.port = p)).map
      (fun b => EngOp.bind b.1 b.2.1 b.2.2 true none)
    let atts := (s.imgInsts.filter (fun b => decide (b.2 = p))).map (fun b => EngOp.attach b.1 (some p) none)
    { s with engCmd := s.engCmd ++ (if s.role p = 1 then atts else binds) }

/-- The instance of an upstream port is in a reset whose drains are not done (Table 6.5). -/
def Chip.resetBusy (s : Chip) (p : Nat) : Bool :=
  match s.instOf p with
  | some n => decide (s.role p = 1) && s.is F.VCS_INST_STS.RESET_BUSY n
  | none => false

/-- The link of a port is reported up, unless a flush or a reset withholds it (R79, Table 6.5). -/
def Chip.portUp (s : Chip) (p : Nat) : Chip :=
  if (s.port p).flushing || s.resetBusy p then s.modPort p (fun x => { x with upHeld := true })
  else
    let s := s.modPort p (fun x => { x with up := true, upHeld := false, downSince := none })
    let s := foldl' (s.bridgesVia p) (fun b s => s.modVppb b.1 b.2 (fun x => { x with crs := false })) s
    let s := s.refreshBridges p
    let a := s.adm p
    if s.role p = 3 then s
    else if a = admDown then
      let s := match s.instOf p with
        | some n => if s.role p = 1 then s.set F.VCS_INST_STS.ATTACHED 1 n else s
        | none => s
      s.setAdm p admIn (s.fld F.VCS_PORT_ADM.OOS_CAUSE p)
    else if a = admTraining then
      let s := s.modPort p (fun x => { x with loopLead := true, loopStart := s.time })
      (s.set F.CEL_LINK_STS.LTSSM ltLoopLead p).setAdm p admLoop (s.fld F.VCS_PORT_ADM.OOS_CAUSE p)
    else if a = admRetrain then
      (s.setAdm p admReady (s.fld F.VCS_PORT_ADM.OOS_CAUSE p)).quarantineReady p
    else s

/-- FLUSH_DONE (R80): the flush ends and a link-up that it withheld is reported. -/
def flushDone (p : Nat) (s : Chip) : Chip :=
  if !(s.port p).flushing then s
  else
    let s := s.flushEnd p
    if (s.port p).upHeld then s.portUp p else s

/-! ## Bindings (R103, R104, R108) -/

/-- Every bridge of every virtual switch. -/
def Chip.allBridges (s : Chip) : List (Nat × Nat) :=
  (List.range 64).flatMap (fun n => (List.range (s.vppbCount n)).map (fun v => (n, v)))

/-- A target is bound somewhere, or a binding of its port excludes it (R103). -/
def Chip.targetBound (s : Chip) (t : Tgt) : Bool :=
  s.allBridges.any (fun x =>
    let b := s.bound x.1 x.2
    decide (b = t) ||
      (((decide (t.type = 1) && decide (b.type = 2)) || (decide (t.type = 2) && decide (b.type = 1))) && decide (b.port = t.port)))

/-- A bridge that is not Unbound, or whose bind has not completed. -/
def Chip.bridgeBusy (s : Chip) (n v : Nat) : Bool :=
  decide (s.fld F.VCS_VPPB_STS.STATE n v ≠ 0) || (s.vppb n v).binding.isSome

/-- The status of a bind, first in table order (Table 6.3). -/
def Chip.bindStatus (s : Chip) (n v : Nat) (w : W) : Nat :=
  let t := tgtOf w.toNat
  let dev := decide (t.type = 1) || decide (t.type = 2)
  let a := s.adm t.port
  if !s.is F.VCS_INST_CFG.EN n then 0x01
  else if v ≥ s.vppbCount n then 0x02
  else if s.bridgeBusy n v then 0x03
  else if t.type = 0 then 0x0C
  else if dev && decide (s.role t.port ≠ 2) then 0x04
  else if dev && !(decide (a = admReady) || decide (a = admIn) || decide (a = admDown)) then 0x05
  else if s.targetBound t then 0x06
  else if decide (t.type = 2) && !s.ldOk t.port t.ld then 0x07
  else if dev && s.groveHeld { type := t.type, port := t.port, ld := t.ld, ext := 0 } then 0x08
  else if decide (t.type = 3) && decide (s.pbr.get 0 t.pbr = 0) then 0x09
  else if (s.allBridges.filter (fun x => decide ((s.bound x.1 x.2).type ≠ 0))).length ≥ 2048 then 0x0A
  else 0

/-- A bind at the engine (Table 6.4 steps 1 and 2), none where R139 holds it. -/
def Chip.opBind (s : Chip) (n v : Nat) (w : W) (img : Bool) (q : Option ReqId) : Option Chip :=
  let code := s.bindStatus n v w
  if code ≠ 0 then some (s.result q code)
  else if s.epFull then none
  else
    let t := tgtOf w.toNat
    let s := (s.wr .VCS_VPPB_BIND n v (w32 (t.word + b2n img * 2 ^ 29))).newEpoch
    let s := s.modVppb n v (fun x => { x with binding := some (s.epCur, q), reach := false })
    some (if (t.type = 1 ∨ t.type = 2) ∧ s.adm t.port = admReady then
      s.setAdm t.port admIn (s.fld F.VCS_PORT_ADM.OOS_CAUSE t.port) else s)

/-- INST_ATTACH at the engine (R119), or the image's attachment of port `at'`, which an instance that has taken another port since
does not follow (R122). -/
def Chip.opAttach (s : Chip) (n : Nat) (at' : Option Nat) (q : Option ReqId) : Option Chip :=
  let p := s.usp n
  if at' ≠ none ∧ at' ≠ some p then some s
  else if !s.is F.VCS_INST_CFG.EN n then some (s.result q 0x01)
  else if s.adm p ≠ admReady then some (s.result q 0x05)
  else if s.epFull then none
  else
    let s := s.newEpoch
    let s := s.setVsw n { s.vsw n with attaching := some (s.epCur, q) }
    some (s.setAdm p admIn (s.fld F.VCS_PORT_ADM.OOS_CAUSE p))

/-- A Set entry whose source is target `t` and whose extent a window of `n` reaches (R114). -/
def Chip.setReached (s : Chip) (n : Nat) (t : Tgt) : Bool :=
  s.ert.any (fun e => decide (e.st = 4) && sameDevice t e.key &&
    s.wins.any (fun y =>
      let w := y.2
      decide (y.1 / 32 = n) && w.en && !w.isGrove &&
        (List.range ((waysOf w.iw).getD 1)).any (fun i =>
          sameDevice (w.tgt i) e.key &&
            meets (w.dpaBase i) ((w.hi - w.lo) / (waysOf w.iw).getD 1) (e.key.ext * extBytes) extBytes)))

/-- Grafts whose source or target is target `t` abort at the start of a drain or squash (R114, cause 8). -/
def Chip.abortTarget (s : Chip) (n v : Nat) (t : Tgt) : Chip :=
  let hit (e : Ert) : Bool := sameDevice t e.source || sameDevice t e.tgt
  let s := if s.ert.any (fun e => e.active && hit e) then s.set F.VCS_VPPB_STS.GRAFT_ABORTED 1 n v else s
  s.abortWhere hit (fun _ => 8)

/-- The access change that begins a drain (R111); a bridge that was in Reset held releases a type 1 target (R107). -/
def Chip.startDrain (s : Chip) (n v next : Nat) (reqs : List ReqId) : Chip :=
  let t := s.bound n v
  let s := if s.fld F.VCS_VPPB_STS.STATE n v = 5 ∧ t.type = 1 then s.endHotReset t.port else s
  let s := s.newEpoch.set F.VCS_VPPB_STS.STATE 3 n v
  s.modVppb n v (fun x => { x with reach := false, drain := some { next := next, epoch := s.epCur, began := s.time, reqs := reqs } })

/-- The access change that begins a squash (R112). -/
def Chip.startSquash (s : Chip) (n v : Nat) (reqs : List ReqId) : Chip :=
  let s := s.newEpoch.set F.VCS_VPPB_STS.STATE 4 n v
  s.modVppb n v (fun x => { x with reach := false, squash := some { next := 0, epoch := s.epCur, began := s.time, reqs := reqs } })

/-- A port unbound by UNBIND_VPPB with no other binding goes to Ready (Table 6.8), applying no image binding. -/
def Chip.freePort (s : Chip) (t : Tgt) : Chip :=
  if (t.type = 1 ∨ t.type = 2) ∧ (s.adm t.port = admIn ∨ s.adm t.port = admDown) ∧ (s.bindingsOf t.port).isEmpty then
    s.setAdm t.port admReady (s.fld F.VCS_PORT_ADM.OOS_CAUSE t.port)
  else s

/-- UNBIND_VPPB at the engine (Tables 6.2 and 6.6). -/
def Chip.opUnbind (s : Chip) (n v : Nat) (squash : Bool) (q : Option ReqId) : Option Chip :=
  let reqs := q.toList
  if !s.is F.VCS_INST_CFG.EN n then some (s.result q 0x01)
  else if v ≥ s.vppbCount n then some (s.result q 0x02)
  else
    let s := s.finishBind n v
    let t := s.bound n v
    let st := s.fld F.VCS_VPPB_STS.STATE n v
    if st = 0 then some (s.result q 0)
    else if s.setReached n t then some (s.result q 0x0B)
    else if st = 2 ∧ s.epFull = true then none
    else
      let s := s.abortTarget n v t
      match st with
      | 2 => some (if squash then (s.set F.VCS_VPPB_STS.SQUASHED 0 n v).startSquash n v reqs else s.startDrain n v 0 reqs)
      | 3 =>
        if squash then some ((s.set F.VCS_VPPB_STS.SQUASHED 0 n v).squashBridge n v reqs)
        else some (s.modVppb n v (fun x => { x with drain := x.drain.map (fun d => { d with next := 0, reqs := d.reqs ++ reqs }) }))
      | 4 => some (s.modVppb n v (fun x => { x with squash := x.squash.map (fun d => { d with next := 0, reqs := d.reqs ++ reqs }) }))
      | _ =>
        let s := s.unbindNow n v
        let s := if t.type = 1 then s.endHotReset t.port else s
        some ((s.freePort t).result q 0)

/-- The removal of a port whose bindings are all gone is answered (Table 6.5). -/
def Chip.answerRemovals (s : Chip) (p : Nat) (epoch : Option Nat) : Chip :=
  if (s.bindingsOf p).isEmpty then
    let (mine, rest) := s.removals.partition (fun x => decide (x.1 = p))
    foldl' mine (fun x s => s.result (some x.2) 0 epoch) { s with removals := rest }
  else s

/-- PORT_REMOVE at the engine (R118). -/
def Chip.opRemove (s : Chip) (p : Nat) (q : ReqId) : Chip :=
  if s.role p ≠ 1 ∧ s.role p ≠ 2 then s.result (some q) 0x04
  else if s.role p = 2 ∧ (s.bindingsOf p).any (fun x => s.setReached x.1 (s.bound x.1 x.2)) then s.result (some q) 0x0B
  else
    let s := s.outOfService p 1
    if s.role p = 2 then
      let s : Chip := { s with removals := s.removals ++ [(p, q)] }
      s.answerRemovals p none
    else s.result (some q) 0

/-- PORT_ADMIT at the engine (Table 6.8): training begins, the CSB pin is released. -/
def Chip.startTraining (s : Chip) (p : Nat) : Chip :=
  let s := s.modPort p (fun x => { x with csbOos := false })
  let s := if (s.port p).waved then
      ((s.modPort p (fun x => { x with step := 2 })).set F.CEL_LINK_STS.LTSSM ltDetect p).clearLink p true
    else s
  (s.setAdm p admTraining (s.fld F.VCS_PORT_ADM.OOS_CAUSE p)).driveCsb p

def Chip.opAdmit (s : Chip) (p : Nat) (q : ReqId) : Chip :=
  if s.role p ≠ 1 ∧ s.role p ≠ 2 then s.result (some q) 0x04
  else if s.adm p ≠ admOos ∧ s.adm p ≠ admFailed then s.result (some q) 0x05
  else (s.startTraining p).result (some q) 0

/-! ## Windows (Table 7.4) -/

/-- A window as the staging words give it. -/
def winOf (base size cfg : W) (ta tb : List W) : Win :=
  { base := w32 (base.toNat % 2 ^ 24), size := w32 (size.toNat % 2 ^ 25), cfg := w32 (cfg.toNat &&& readMask .DEC_STG_CFG)
    ta := ta.map (fun x => w32 (x.toNat &&& readMask .DEC_STG_TGT_A)), tb := tb.map (fun x => w32 (x.toNat % 2 ^ 24)) }

/-- A Set entry's source extent that a window reaches through one of its targets: the target. -/
def Win.reaches (w : Win) (e : Ert) : Option Tgt :=
  let k := (waysOf w.iw).getD 1
  if !w.en || w.isGrove then none
  else ((List.range k).find? (fun i => sameDevice (w.tgt i) e.key && decide (w.dpaBase i ≤ e.key.ext * extBytes) &&
    decide (e.key.ext * extBytes + extBytes ≤ w.dpaBase i + (w.hi - w.lo) / k))).map w.tgt

/-- A commit, with the size of a grove window taken from the grove (R151). -/
def Chip.sized (s : Chip) (c : Win) : Win :=
  if c.isGrove then { c with size := w32 (s.gaSize c.grove c.gwin / winUnit) } else c

/-- Result of a window commit, first in table order (Table 7.4); `settle` where settle makes it. -/
def Chip.windowCode (s : Chip) (n w : Nat) (c : Win) (settle : Bool) : Nat :=
  let k := (waysOf c.iw).getD 1
  let units := c.size.toNat
  let old := s.win n w
  let lost := !settle && s.ert.any (fun e => decide (e.st = 4) && (match old.reaches e with
    | some t => decide (c.reaches e ≠ some t)
    | none => false))
  let c := s.sized c
  let known := s.is F.GRV_WIN_CFG.EN (16 * c.grove + c.gwin) && decide (s.gst c.grove ≠ gFree)
  if !s.is F.VCS_INST_CFG.EN n then 0x01
  else if !c.en then (if lost then 0x0A else 0)
  else if c.isGrove then
    if known && decide (c.hi > 2 ^ 52) then 0x02
    else if (List.range 16).any (fun i => decide ((c.tgt i).type ≠ 0)) then 0x06
    else if !known || !bitAt (s.members c.grove) n then 0x07
    else if c.dr || c.dw then 0x08
    else if s.overlaps n w c then 0x09
    else if lost then 0x0A else 0
  else if units = 0 ∨ units % k ≠ 0 ∨ c.hi > 2 ^ 52 then 0x02
  else if (waysOf c.iw).isNone then 0x03
  else if (granOf c.ig).isNone then 0x04
  else if (List.range k).any (fun i => (s.boundBy n (c.tgt i)).isNone) then 0x05
  else if (List.range 16).any (fun i => decide (k ≤ i) && decide ((c.tgt i).type ≠ 0)) then 0x06
  else if s.overlaps n w c then 0x09
  else if lost then 0x0A else 0

/-- A result of Table 7.4 other than SUCCESS is a class P fault (R135). -/
def Chip.windowFault (s : Chip) (code : Nat) : Chip := if 0x01 ≤ code ∧ code ≤ 0x0A then s.chipFault 4 clsP else s

/-- A window written at a new epoch. -/
def Chip.putWindow (s : Chip) (n w : Nat) (c : Win) : Chip :=
  let s := s.newEpoch
  s.setWin n w { s.sized c with epoch := s.epCur }

/-- A window commit at the engine (R135). -/
def Chip.opWindow (s : Chip) (n w : Nat) (c : Win) (src : CommitSrc) : Option Chip :=
  let code := s.windowCode n w c false
  if code = 0 ∧ s.epFull = true then none
  else
    let s := if code = 0 then s.putWindow n w c else s.windowFault code
    let ep := if code = 0 then some s.epCur else none
    some (match src with
      | .staging r => s.wr .DEC_STG_STS r 0 (w32 (2 ^ 30 + code))
      | .kmp q => s.result (some q) code ep
      | .image => s)

/-! ## Groves (Table 8.7) -/

/-- A grove window as GROVE_CREATE and the image carry it. -/
structure GwinDef where
  cfg : Nat
  ga : Nat
  size : Nat
  tgts : List (Nat × Nat)
  deriving DecidableEq, Repr

/-- Ways of a definition, a refused IW code counting as one (R165). -/
def gwinWays (cfg : Nat) : Nat := (waysOf (bitsOf cfg 24 4)).getD 1

/-- The windows of a GROVE_CREATE payload, and the words left. -/
def gwinDefs : Nat → List Nat → List GwinDef × List Nat
  | 0, ws => ([], ws)
  | n + 1, ws =>
    let k := gwinWays (ws.getD 0 0)
    let d : GwinDef :=
      { cfg := ws.getD 0 0, ga := ws.getD 1 0 % 2 ^ 18, size := ws.getD 2 0 % 2 ^ 19
        tgts := (List.range k).map (fun i => (ws.getD (3 + 2 * i) 0, ws.getD (4 + 2 * i) 0 % 2 ^ 24)) }
    let (l, rest) := gwinDefs n (ws.drop (3 + 2 * k))
    (d :: l, rest)

/-- Words that the layout of GROVE_CREATE takes (R165). -/
def groveWords (ws : List W) : Nat :=
  let l := ws.map (·.toNat)
  let n := bitsOf (l.getD 0 0) 16 4 + 1
  3 + ((gwinDefs n (l.drop 3)).1.map (fun d => 3 + 2 * d.tgts.length)).sum

def GwinDef.units (d : GwinDef) : Nat := d.size
def GwinDef.lo (d : GwinDef) : Nat := d.ga * winUnit
def GwinDef.hi (d : GwinDef) : Nat := d.lo + d.size * winUnit
/-- Device range of each target position: target, base, length. -/
def GwinDef.ranges (d : GwinDef) : List (Tgt × Nat × Nat) :=
  d.tgts.map (fun t => (tgtOf t.1, t.2 * winUnit, d.size * winUnit / gwinWays d.cfg))

/-- Two device ranges of one target, or of a whole port and one of its logical devices, overlap. -/
def rangesMeet (a b : Tgt × Nat × Nat) : Bool :=
  sameDevice a.1 { type := b.1.type, port := b.1.port, ld := b.1.ld, ext := 0 } && meets a.2.1 a.2.2 b.2.1 b.2.2

/-- Some two members of a list satisfy a test. -/
def anyPair {α : Type} (p : α → α → Bool) : List α → Bool
  | [] => false
  | a :: l => l.any (p a) || anyPair p l

/-- Result of GROVE_CREATE, first in table order (Table 8.7). -/
def Chip.createCode (s : Chip) (g vec : Nat) (ds : List GwinDef) : Nat :=
  let ms := bitsSet vec 64
  let rs := ds.flatMap GwinDef.ranges
  if s.gst g ≠ gFree then 0x01
  else if ms.length < 2 ∨ ms.any (fun n => !s.is F.VCS_INST_CFG.EN n) then 0x02
  else if ds.length = 0 ∨ ds.length > 16 then 0x03
  else if ds.any (fun d => decide (d.size = 0) || decide (d.size % gwinWays d.cfg ≠ 0) || decide (d.hi > 2 ^ 46)) ||
      anyPair (fun a b => meets a.lo (a.hi - a.lo) b.lo (b.hi - b.lo)) ds ||
      ds.any (fun d => (List.range 32).any (fun x => decide (s.gst x ≠ gFree) && (s.gwins x).any (fun w =>
        meets d.lo (d.hi - d.lo) (s.gaBase x w) (s.gaSize x w)))) then 0x04
  else if ds.any (fun d => (waysOf (bitsOf d.cfg 24 4)).isNone) then 0x05
  else if ds.any (fun d => (granOf (bitsOf d.cfg 20 4)).isNone) then 0x06
  else if rs.any (fun r => !((decide (r.1.type = 1) || (decide (r.1.type = 2) && s.ldOk r.1.port r.1.ld)) &&
      decide (s.role r.1.port = 2))) then 0x07
  else if rs.any (fun r =>
      let x : Ext := { type := r.1.type, port := r.1.port, ld := r.1.ld, ext := 0 }
      !(s.boundInsts x).isEmpty || s.groveHeld x) then 0x08
  else if anyPair rangesMeet rs then 0x09
  else 0

/-- Writing a grove's tables (Table 8.8 step 2). -/
def Chip.writeGrove (s : Chip) (g vec : Nat) (ds : List GwinDef) : Chip :=
  let s := (((s.wr .GRV_FELL g 0 0).wr .GRV_FELL_TIME_LO g 0 0).wr .GRV_FELL_TIME_HI g 0 0).wr .GRV_STS g 0 0
  let s := ((s.setMembers g vec).setJoined g 0).set F.GRV_STS.STATE gSeeding g
  let s := foldl' (ds.zip (List.range 16)) (fun x s =>
    let c := 16 * g + x.2
    let s := s.wr .GRV_WIN_CFG c 0 (w32 (2 ^ 31 + bitsOf x.1.cfg 24 4 * 2 ^ 24 + bitsOf x.1.cfg 20 4 * 2 ^ 20))
    let s := (s.wr .GRV_WIN_GA c 0 (w32 x.1.ga)).wr .GRV_WIN_SIZE c 0 (w32 x.1.size)
    foldl' (x.1.tgts.zip (List.range 16)) (fun t s =>
      (s.wr .GRV_WIN_TGT_A c t.2 (w32 (tgtOf t.1.1).word)).wr .GRV_WIN_TGT_B c t.2 (w32 t.1.2)) s) s
  s.groveEvent g 0

/-- GROVE_CREATE at the engine (R165), of a KMP request or of the image. -/
def Chip.groveCreate (s : Chip) (ws : List Nat) (q : Option ReqId) : Chip :=
  let g := ws.getD 0 0 % 32
  let vec := ws.getD 1 0 + ws.getD 2 0 * 2 ^ 32
  let (ds, _) := gwinDefs (bitsOf (ws.getD 0 0) 16 4 + 1) (ws.drop 3)
  let code := s.createCode g vec ds
  if code ≠ 0 then s.result q code else (s.wakeRegions.writeGrove g vec ds).result q 0

/-- Members a vector names. -/
def popCount (v : Nat) : Nat := (bitsSet v 64).length

/-- The grove takes a member command (R167): Seeding or Standing, with no removal or dissolution running. -/
def Chip.groveTakes (s : Chip) (g : Nat) : Bool :=
  (decide (s.gst g = gSeeding) || decide (s.gst g = gStanding)) && !s.is F.GRV_STS.REMOVING g && !s.is F.GRV_STS.DISSOLVING g

/-- GROVE_MEMBER_ADD at the engine. A member whose port is eligible joins a Standing grove at once (R149). -/
def Chip.opGroveAdd (s : Chip) (g n : Nat) (q : ReqId) : Chip :=
  let m := s.members g
  if popCount m + 1 < 2 ∨ !s.is F.VCS_INST_CFG.EN n ∨ bitAt m n then s.result (some q) 0x02
  else if !s.groveTakes g then s.result (some q) 0x0A
  else ((s.setMembers g (setBit m n)).result (some q) 0).groveJoin g

/-- GROVE_MEMBER_REMOVE at the engine (R167). -/
def Chip.opGroveRemove (s : Chip) (g n : Nat) (q : ReqId) : Option Chip :=
  let m := s.members g
  if popCount m - 1 < 2 ∨ !bitAt m n then some (s.result (some q) 0x02)
  else if !s.groveTakes g then some (s.result (some q) 0x0A)
  else if bitAt (s.joined g) n then
    if s.epFull then none
    else
      let s := s.newEpoch.setJoined g (clrBit (s.joined g) n)
      let s := s.set F.GRV_STS.REMOVING 1 g
      some { s with gjobs := s.gjobs ++ [{ grove := g, inst := some n, epoch := s.epCur, walking := false, req := q }] }
  else if s.groveMapped g (some n) then
    if s.epFull then none
    else
      let s := (s.newEpoch.groveUnmap g (some n)).setMembers g (clrBit m n)
      some (s.result (some q) 0 (some s.epCur))
  else some ((s.setMembers g (clrBit m n)).result (some q) 0)

/-- GROVE_DISSOLVE at the engine (R168, R191). -/
def Chip.opGroveDissolve (s : Chip) (g : Nat) (q : ReqId) : Option Chip :=
  if s.is F.GRV_STS.REMOVING g || s.is F.GRV_STS.DISSOLVING g then some (s.result (some q) 0x0A)
  else match s.gst g with
  | 1 =>
    if s.groveMapped g none then
      if s.epFull then none
      else
        let s := (s.newEpoch.groveUnmap g none).groveFree g
        some (s.result (some q) 0 (some s.epCur))
    else some ((s.groveFree g).result (some q) 0)
  | 2 =>
    if s.epFull then none
    else
      let s := s.newEpoch.set F.GRV_STS.DISSOLVING 1 g
      some { s with gjobs := s.gjobs ++ [{ grove := g, inst := none, epoch := s.epCur, walking := false, req := q }] }
  | 4 =>
    let s := s.set F.GRV_STS.DISSOLVING 1 g
    let s : Chip := { s with gholds := s.gholds ++ [{ grove := g, req := q, writes := true }] }
    some (s.releaseFelled g)
  | _ => some (s.result (some q) 0x0A)

/-! ## Settle (R206) -/

/-- The extents of a range of a target. -/
def Chip.settleSet (s : Chip) (x : Tgt) (base len : Nat) : List Ert :=
  s.ert.filter (fun e => decide (e.st = 4) && decide (e.key.port = x.port) && decide (e.key.ld = x.ld) &&
    decide (base ≤ e.key.ext * extBytes) && decide (e.key.ext * extBytes < base + len))

/-- GRAFT_SETTLE at the engine. -/
def Chip.opSettle (s : Chip) (ws : List W) (q : ReqId) : Option Chip :=
  let w0 := wordAt ws 0
  let n := bitsOf w0 16 6
  let w := bitsOf w0 0 5
  let i := bitsOf w0 8 4
  let c := s.win n w
  let k := (waysOf c.iw).getD 1
  let old := c.tgt i
  let new := tgtOf (wordAt ws 1)
  let base := c.dpaBase i
  let len := (c.hi - c.lo) / k
  let nb := wordAt ws 2 % 2 ^ 24 * winUnit
  let hits := s.settleSet old base len
  let fits (e : Ert) : Bool := decide (e.tgt.port = new.port) && decide (e.tgt.ld = new.ld) && decide (e.tgt.type = new.type) &&
    decide (e.tgt.ext * extBytes = nb + (e.key.ext * extBytes - base))
  if !s.is F.VCS_INST_CFG.EN n then some ((s.windowFault 0x01).result (some q) 0x01)
  else if !c.en || (!c.isGrove && decide (i ≥ k)) then some (s.result (some q) 0x23)
  else if c.isGrove then some (s.result (some q) 0x22)
  else if hits.length * extBytes ≠ len ∨ !hits.all fits then some (s.result (some q) 0x20)
  else if s.otherReaches { type := old.type, port := old.port, ld := old.ld, ext := 0 } base len n w then
    some (s.result (some q) 0x21)
  else
    let put (l : List W) (v : Nat) : List W := (List.range 16).map (fun j => if j = i then w32 v else l.getD j 0)
    let c' := { c with ta := put c.ta new.word, tb := put c.tb (wordAt ws 2 % 2 ^ 24) }
    let code := s.windowCode n w c' true
    if code ≠ 0 then some ((s.windowFault code).result (some q) code)
    else if s.epFull then none
    else
      let s := s.putWindow n w c'
      let s : Chip := { s with settles := s.settles ++ [(s.epCur, hits.map (·.key))] }
      some (s.result (some q) 0 (some s.epCur))

/-- Entries of a settled range are freed once its epoch commits (Table 10.2). -/
def Chip.freeSettled (s : Chip) : Chip :=
  let (done, rest) := s.settles.partition (fun x => s.isCommitted x.1)
  foldl' (done.flatMap (·.2)) (fun k s =>
    match s.ertKey k with
    | some e => if e.st = 4 then (s.delErt k).graftEvent k 0 0 e.chan 0 else s
    | none => s) { s with settles := rest }

/-! ## The engine -/

/-- An access change of the chip's own, none where R139 holds it. -/
def Chip.runOwn (s : Chip) : EngOp → Option Chip
  | .drain n v next reqs =>
    if s.fld F.VCS_VPPB_STS.STATE n v = 2 ∨ s.fld F.VCS_VPPB_STS.STATE n v = 5 then
      if s.epFull then none
      else some (s.startDrain n v (if next = 5 ∧ (s.vppb n v).sbr = false then 2 else next) reqs)
    else some s
  | .squash n v reqs =>
    if s.fld F.VCS_VPPB_STS.STATE n v = 2 then (if s.epFull then none else some (s.startSquash n v reqs))
    else some (foldl' reqs (fun q s => s.result (some q) 0) s)
  | .restore n v =>
    if s.fld F.VCS_VPPB_STS.STATE n v = 2 ∧ (s.vppb n v).reach = false then
      if s.epFull then none else some (s.newEpoch.modVppb n v (fun x => { x with reach := true }))
    else some s
  | .groveUnmap g inst => if s.epFull then none else some (s.groveUnmapNow g inst)
  | .groveJoin g => if s.epFull then none else some (s.groveJoin g)
  | .graftSwitch c =>
    match s.graftOf c with
    | some e =>
      if e.st = 3 ∧ !s.mirrors.any (fun m => m.key.same e.key) then (if s.epFull then none else some (s.graftSwitchNow e)) else some s
    | none => some s
  | _ => some s

/-- A command of the engine, none where R139 holds its access change. -/
def Chip.runCmd (s : Chip) : EngOp → Option Chip
  | .bind n v t img q => s.opBind n v t img q
  | .unbind n v sq q => s.opUnbind n v sq q
  | .window n w c src => s.opWindow n w c src
  | .portRemove p q => some (s.opRemove p q)
  | .portAdmit p q => some (s.opAdmit p q)
  | .attach n p q => s.opAttach n p q
  | .groveCreate ws q => some (s.groveCreate (ws.map (·.toNat)) (some q))
  | .groveAdd g n q => some (s.opGroveAdd g n q)
  | .groveRemove g n q => s.opGroveRemove g n q
  | .groveDissolve g q => s.opGroveDissolve g q
  | .graftCreate ws q => some (graftCreateNow ws q s)
  | .graftAbort ws q => some (graftAbortNow ws q s)
  | .graftRelease ws q => if s.epFull then none else some (graftReleaseNow ws q s)
  | .graftSettle ws q => s.opSettle ws q
  | o => s.runOwn o

/-- The engine takes its own changes, then commands in their order of arrival (R106), until one is held (R139) or none is left. -/
def engineRun : Nat → Chip → Chip
  | 0, s => s
  | k + 1, s =>
    match s.engOwn, s.engCmd with
    | o :: os, _ => (match Chip.runOwn { s with engOwn := os } o with
      | some s' => engineRun k s'
      | none => s)
    | [], c :: cs => (match Chip.runCmd { s with engCmd := cs } c with
      | some s' => engineRun k (s'.count (cntChip 6))
      | none => s)
    | [], [] => s

/-- The engine at the end of a command of the chip. -/
def Chip.engine (s : Chip) : Chip := engineRun (2 * (s.engOwn.length + s.engCmd.length) + 64 * 64) s

/-- A change waits under R139 (ACC_STS.EPOCH_WAIT). -/
def Chip.epochWait (s : Chip) : Bool := !s.engOwn.isEmpty || !s.engCmd.isEmpty

/-! ## What follows a commit (R138) -/

/-- A removal's walk begins once its epoch has committed (R167, R168). -/
def Chip.startWalks (s : Chip) : Chip :=
  let ready := s.gjobs.filter (fun j => !j.walking && s.isCommitted j.epoch)
  let s := { s with gjobs := s.gjobs.map (fun j => if s.isCommitted j.epoch then { j with walking := true } else j) }
  foldl' ready (fun j s => s.walkStep j.grove j.inst) s

/-- An attachment completes (Table 6.4 step 4). -/
def Chip.finishAttach (s : Chip) (n : Nat) : Chip :=
  match (s.vsw n).attaching with
  | none => s
  | some (e, q) =>
    if !s.isCommitted e then s
    else
      let s := s.setVsw n { s.vsw n with attaching := none }
      if s.adm (s.usp n) = admIn ∨ s.adm (s.usp n) = admDown then (s.set F.VCS_INST_STS.ATTACHED 1 n).result q 0 (some e)
      else s.result q 0x05

/-- EPOCH_COMMIT (R138): the epochs that may commit do, and what waits for them goes on. -/
def epochCommit (s : Chip) : Chip :=
  let s := s.commitEpochs
  let s := foldl' s.allBridges (fun x s => match (s.vppb x.1 x.2).binding with
    | some (e, _) => if s.isCommitted e then s.finishBind x.1 x.2 else s
    | none => s) s
  let s := foldl' (List.range 64) (fun n s => s.finishAttach n) s
  s.startWalks.freeSettled

/-! ## Drains and squashes end (R111, R112) -/

/-- An instance's reset is complete when no bridge of it drains (Tables 6.5 and 6.6). -/
def Chip.resetDone (s : Chip) (n : Nat) : Chip :=
  if (s.vsw n).reset = 0 ∨ (List.range (s.vppbCount n)).any (fun v => decide (s.fld F.VCS_VPPB_STS.STATE n v = 3)) ∨
      s.engOwn.any (fun o => match o with
        | .drain m _ _ _ => decide (m = n)
        | _ => false) then s
  else
    let s := (s.setVsw n { s.vsw n with reset := 0 }).set F.VCS_INST_STS.RESET_BUSY 0 n
    if (s.port (s.usp n)).upHeld then s.portUp (s.usp n) else s

/-- The link of a type 1 target goes through Hot Reset: down, flushed, and held or trained again from step 2 (R107). -/
def Chip.hotResetTarget (s : Chip) (p : Nat) (hold : Bool) : Chip :=
  let s := s.goDown p ltHotReset
  let s := s.modPort p (fun x => { x with hotReset := true })
  if hold then s else s.endHotReset p

/-- A bridge whose drain or squash has ended takes its next state (Table 6.2). -/
def Chip.bridgeNext (s : Chip) (n v : Nat) (d : Drain) : Chip :=
  let s := s.modVppb n v (fun x => { x with drain := none, squash := none })
  let t := s.bound n v
  let s := match d.next with
    | 0 =>
      let s := s.unbindNow n v
      let s := if t.type = 1 then s.endHotReset t.port else s
      let s := s.freePort t
      let s := foldl' d.reqs (fun q (s : Chip) => s.result (some q) 0 (some d.epoch)) s
      s.answerRemovals t.port (some d.epoch)
    | 5 =>
      let s := s.set F.VCS_VPPB_STS.STATE 5 n v
      if t.type = 1 then s.hotResetTarget t.port true else s
    | _ =>
      let s := (s.set F.VCS_VPPB_STS.STATE 2 n v).own (.restore n v)
      if t.type = 1 then s.hotResetTarget t.port false else s
  s.resetDone n

/-- The target of a bridge is a port of the chip that is down. -/
def Chip.targetDown (s : Chip) (n v : Nat) : Bool :=
  let t := s.bound n v
  (decide (t.type = 1) || decide (t.type = 2)) && !(s.port t.port).up

/-- DRAIN_DONE (R111): the access change has committed, or the target's port has gone down (Table 6.6). -/
def drainDone (n v : Nat) (s : Chip) : Chip :=
  match (s.vppb n v).drain with
  | none => s
  | some d => if s.isCommitted d.epoch || s.targetDown n v then s.bridgeNext n v d else s

/-- DRAIN_TO in the time base. -/
def Chip.drainTo (s : Chip) : Nat := clampTo 1 10000 (s.fld F.VCS_RST_CFG.DRAIN_TO) * 100 * usT

/-- DRAIN_TIMEOUT (R111): the remainder is squashed, DRAIN_TIMEOUT set, a class C notice logged. -/
def drainTimeout (n v : Nat) (s : Chip) : Chip :=
  match (s.vppb n v).drain with
  | none => s
  | some d =>
    if s.isCommitted d.epoch || decide (s.time < d.began + s.drainTo) then s
    else
      let s := ((s.set F.VCS_VPPB_STS.SQUASHED 0 n v).squashScope n v).set F.VCS_VPPB_STS.DRAIN_TIMEOUT 1 n v
      (s.chipFault 5 clsC).bridgeNext n v d

/-- SQUASH_DONE (R112). -/
def squashDone (n v : Nat) (s : Chip) : Chip :=
  match (s.vppb n v).squash with
  | none => s
  | some d => (s.squashScope n v).bridgeNext n v d

/-! ## Resets that a host starts (Table 6.5) -/

/-- The VPPB_RESET event (Table 12.5): 1 Secondary Bus Reset set, 2 cleared, 3 instance hot reset, 4 PERST_N. -/
def Chip.resetEvent (s : Chip) (n v code : Nat) : Chip := s.event 0x0832 [code * 2 ^ 28 + n * 2 ^ 16 + v]

/-- SECONDARY_BUS_RESET_SET (R113). A host that is not attached reaches no bridge (R415). -/
def sbrSet (n v : Nat) (s : Chip) : Chip :=
  if v ≥ s.vppbCount n ∨ (s.vppb n v).sbr ∨ s.is F.VCS_INST_STS.ATTACHED n = false then s
  else
    let s := s.modVppb n v (fun x => { x with sbr := true })
    if s.fld F.VCS_VPPB_STS.STATE n v ≠ 2 then s
    else
      let t := s.bound n v
      let s := if t.type = 1 then s else s.resetEvent n v 1
      s.own (.drain n v 5 [])

/-- SECONDARY_BUS_RESET_CLEAR (R107): Bound again, access restored at a new epoch, a type 1 target out of reset. -/
def sbrClear (n v : Nat) (s : Chip) : Chip :=
  if v ≥ s.vppbCount n ∨ (s.vppb n v).sbr = false ∨ s.is F.VCS_INST_STS.ATTACHED n = false then s
  else
    let s := s.modVppb n v (fun x => { x with sbr := false })
    let t := s.bound n v
    let st := s.fld F.VCS_VPPB_STS.STATE n v
    let note (s : Chip) : Chip :=
      (if t.type = 1 then s else s.resetEvent n v 2).modVppb n v (fun x => { x with crs := decide (t.type = 1) })
    if st = 5 then
      let s := (note s).set F.VCS_VPPB_STS.STATE 2 n v
      let s := if t.type = 1 then s.endHotReset t.port else s
      s.own (.restore n v)
    else if st = 3 ∧ ((s.vppb n v).drain.map (·.next)) = some 5 then
      (note s).modVppb n v (fun x => { x with drain := x.drain.map (fun d => { d with next := 2 }) })
    else if s.engOwn.contains (.drain n v 5 []) then note s
    else s

/-- An instance hot reset (1) or PERST_N (2) of instance `n` (R113, R126): the upstream port is flushed, and its groves are felled
(R114), by its own going down; every bound bridge drains, the mailbox command in progress is aborted. It clears Secondary Bus
Reset, so that a drain begun for it ends Bound (Table 6.2). -/
def Chip.instanceReset (s : Chip) (n kind : Nat) : Chip :=
  let s := s.setVsw n { s.vsw n with reset := kind, mbx := none, repFatal := false, repNonfatal := false }
  let s := (s.set F.VCS_INST_STS.RESET_BUSY 1 n).set F.VCS_MBX_STS.RELAY_PENDING 0 n
  let s := foldl' (List.range (s.vppbCount n)) (fun v (s : Chip) =>
    let s := s.finishBind n v
    let s := s.modVppb n v (fun x => { x with
      sbr := false, hpie := false, dpcCa := false, pdc := false, dllsc := false, pfd := false, crs := false
      acs := 0, egressVec := 0, secBus := 0, subBus := 0
      drain := x.drain.map (fun (d : Drain) => if d.next = 5 then { d with next := 2 } else d) })
    let st := s.fld F.VCS_VPPB_STS.STATE n v
    let t := s.bound n v
    if st = 2 ∨ st = 5 then
      let s := if t.type = 1 then s else s.resetEvent n v (if kind = 1 then 3 else 4)
      s.own (.drain n v 2 [])
    else s) s
  s.resetDone n

/-! ## Instances (R102) -/

/-- Sum of the bridges of the enabled virtual switches (VCS_POOL.ALLOC). -/
def Chip.vppbAlloc (s : Chip) : Nat :=
  (((List.range 64).filter (fun n => s.is F.VCS_INST_CFG.EN n)).map (fun n => s.fld F.VCS_INST_CFG.VPPB_COUNT n)).sum

/-- INST_CFG_WRITE (R102). -/
def instCfgWrite (n : Nat) (v : W) (s : Chip) : Chip :=
  let new := v.toNat &&& readMask .VCS_INST_CFG
  let en := bitAt new 31
  let usp := bitsOf new 0 7
  let cnt := bitsOf new 16 7
  if s.is F.VCS_INST_CFG.EN n then
    if en ∨ (List.range 64).any (fun b => s.bridgeBusy n b) then s.set F.VCS_INST_STS.CFG_REFUSED 1 n
    else (s.wr .VCS_INST_CFG n 0 (w32 new)).set F.VCS_INST_STS.ATTACHED 0 n
  else if !en then s.wr .VCS_INST_CFG n 0 (w32 new)
  else if s.role usp ≠ 1 ∨ (s.instOf usp).isSome ∨ cnt > 64 ∨ s.vppbAlloc + cnt > 2048 then
    (s.set F.VCS_INST_STS.CFG_ERROR 1 n).chipFault 4 clsP
  else
    let s := (s.wr .VCS_INST_CFG n 0 (w32 new)).set F.VCS_INST_STS.CFG_ERROR 0 n
    if s.adm usp = admDown ∨ s.adm usp = admIn then s.set F.VCS_INST_STS.ATTACHED 1 n else s

/-- WINDOW_COMMIT: a write of DEC_STG_CTRL in region `r` (R135). -/
def windowCommit (r : Nat) (v : W) (s : Chip) : Chip :=
  let busy := s.is F.DEC_STG_STS.BUSY r
  let s := s.wr .DEC_STG_CTRL r 0 (w32 (accessWrite .DEC_STG_CTRL false (s.rd .DEC_STG_CTRL r).toNat v.toNat))
  if !bitAt v.toNat 31 || busy then s
  else
    let c := winOf (s.rd .DEC_STG_BASE r) (s.rd .DEC_STG_SIZE r) (s.rd .DEC_STG_CFG r)
      ((List.range 16).map (fun t => s.rd .DEC_STG_TGT_A r t)) ((List.range 16).map (fun t => s.rd .DEC_STG_TGT_B r t))
    let s := (s.set F.DEC_STG_STS.BUSY 1 r).set F.DEC_STG_STS.DONE 0 r
    { s with engCmd := s.engCmd ++
      [.window (s.fld F.DEC_STG_CTRL.INST r) (s.fld F.DEC_STG_CTRL.WIN r) c (.staging r)] }

/-! ## Down limit and loop check (R118, R121) -/

/-- DOWN_LIMIT in the time base. -/
def Chip.downLimit (s : Chip) : Nat := clampTo 10 60000 (s.fld F.VCS_QUAR_CFG.DOWN_LIMIT) * msT

/-- DOWN_LIMIT_EXPIRE (R118, cause 5): it runs only in Down. -/
def downLimitExpire (p : Nat) (s : Chip) : Chip :=
  match (s.port p).downSince with
  | some t => if s.adm p = admDown ∧ t + s.downLimit ≤ s.time ∧ (s.role p = 1 ∨ s.role p = 2) then s.outOfService p 5 else s
  | none => s

/-- Bits that a lane carries in a time at a rate code, in 1/10 of a bit. -/
def laneBits (rate t : Nat) : Nat := t * ([25, 50, 80, 160, 320, 640, 1280].getD rate 25) / 16

/-- A lane passes the loop check (R121): its PRBS31 checker holds lock, and its errors among the bits of LOOP_MS are within the error
ratio of Table 3.1 for the rate, 10^-12 below 64 GT/s and 10^-6 from it. -/
def lanePasses (l : LoopLane) (rate len : Nat) : Bool :=
  l.locked && decide (l.errors * 10 * (if rate < 5 then 10 ^ 12 else 10 ^ 6) ≤ laneBits rate len)

/-- LOOP_MS in the time base. -/
def Chip.loopLen (s : Chip) : Nat := max 1 (s.fld F.VCS_QUAR_CFG.LOOP_MS) * msT

/-- LOOP_CHECK_DONE (R121): PRBS31 has been sent on every lane for LOOP_MS; every lane passes, or one has failed. -/
def loopCheckDone (p : Nat) (lanes : List LoopLane) (s : Chip) : Chip :=
  if s.adm p ≠ admLoop ∨ s.time < (s.port p).loopStart + s.loopLen then s
  else if !lanes.all (fun l => lanePasses l (s.fld F.CEL_PORT_STS.NEG_RATE p) s.loopLen) then
    let s := s.set F.VCS_PORT_ADM.LOOP_RESULT 2 p
    let s := s.setAdm p admFailed (s.fld F.VCS_PORT_ADM.OOS_CAUSE p)
    (s.goDown p ltDisabled).cellFault p 10 clsP
  else
    let s := s.set F.VCS_PORT_ADM.LOOP_RESULT 1 p
    (s.setAdm p admRetrain (s.fld F.VCS_PORT_ADM.OOS_CAUSE p)).goDown p ltDetect

/-- LOOP_CHECK_TIMEOUT (R119): the partner does not follow Loopback within 24 ms. -/
def loopCheckTimeout (p : Nat) (s : Chip) : Chip :=
  if s.adm p ≠ admLoop ∨ s.time < (s.port p).loopStart + 24 * msT then s
  else
    let s := s.set F.VCS_PORT_ADM.LOOP_RESULT 3 p
    if s.is F.VCS_QUAR_CFG.REQUIRE_LOOP then
      let s := s.setAdm p admFailed (s.fld F.VCS_PORT_ADM.OOS_CAUSE p)
      (s.goDown p ltDisabled).cellFault p 10 clsP
    else
      let s := s.modPort p (fun x => { x with loopLead := false })
      let s := s.set F.CEL_LINK_STS.LTSSM ltL0 p
      (s.setAdm p admReady (s.fld F.VCS_PORT_ADM.OOS_CAUSE p)).quarantineReady p

end Sys2Proof.Machine
end

