-- ==== Sys2Proof/Machine/Links.lean ====
section
/-! DEFINITION. Port configuration (R24 to R26), link bring-up and link quality (spec/03_lanes.md), the CSB pins (R38), test loops,
PRBS and margin scans. -/

namespace Sys2Proof.Machine

/-! ## Port configuration (R24, R26) -/

/-- Cells that a configuration word covers from cell `c`. -/
def covered (c width : Nat) : List Nat := rangeFrom c (cellsOf width)

/-- The port that is not Disabled and covers a cell. -/
def Chip.coverOf (s : Chip) (c : Nat) : Option Nat :=
  (rangeFrom (4 * (c / 4)) 4).find? (fun q => decide (s.role q ≠ 0) && decide (q ≤ c) && decide (c < q + s.cells q))

/-- Upstream ports that have passed the check, other than `p`. -/
def Chip.upstreams (s : Chip) (p : Nat) : Nat :=
  ((List.range numCells).filter (fun q => decide (q ≠ p) && decide (s.role q = 1))).length

/-- The conditions of R24 that do not depend on the order of checks, on the configuration that cell `p` holds. -/
def Chip.cfgBad (s : Chip) (p : Nat) : Bool :=
  let role := s.fld F.CEL_PORT_CFG.ROLE p
  let width := s.fld F.CEL_PORT_CFG.WIDTH p
  let rate := s.fld F.CEL_PORT_CFG.MAX_RATE p
  let cells := covered p width
  decide (width = 3) || decide (width = 1 ∧ p % 2 ≠ 0) || decide (width = 2 ∧ p % 4 ≠ 0) ||
    (decide (role = 3) && (decide (width = 2) || cells.any (fun c => !trunkCapable c))) ||
    (decide (rate = 6) && cells.any (fun c => !trunkCapable c)) ||
    (cells.drop 1).any (fun c => decide (s.fld F.CEL_PORT_CFG.ROLE c ≠ 0)) ||
    decide (role ≥ 4) || decide (rate = 7)

/-- The region's pool would be below 4,096 slots with port `p` configured and its INIT fields in force (R67). -/
def Chip.poolBad (s : Chip) (p : Nat) : Bool :=
  let r := p / 16
  let others := ((s.portsOf r).filter (fun q => decide (q ≠ p))).map s.portRsv
  let mine := ((List.range 12).map (fun m => s.initCfg p m * kOf m)).sum + 96
  decide (others.sum + mine + 256 + s.resRsv r + 4096 > 16384)

/-- The check of R24: a failing port stays Disabled with CFG_ERROR and a class P fault. -/
def Chip.cfgCheck (s : Chip) (p : Nat) : Chip :=
  let s := s.set F.CEL_PORT_STS.CFG_ERROR 0 p
  let surplus := decide (s.fld F.CEL_PORT_CFG.ROLE p = 1) && decide (s.upstreams p ≥ 64)
  let s := s.modPort p (fun x => { x with surplus := surplus })
  if s.cfgBad p || s.poolBad p || surplus then (s.set F.CEL_PORT_STS.CFG_ERROR 1 p).cellFault p 4 clsP else s

/-- A training takes CEL_LINK_CFG as it stands: a later write, but for TEST_EN and LOOP_MODE, acts in the next one. -/
def Chip.takeCfg (s : Chip) (p : Nat) : Chip := s.modPort p (fun x => { x with linkCfg := (s.rd .CEL_LINK_CFG p).toNat })

/-- A field of CEL_LINK_CFG as the port's training took it. -/
def Chip.trainCfg (s : Chip) (p : Nat) (f : Fld) : Nat := bitsOf (s.port p).linkCfg f.lo f.width

/-- A port's configuration, and each of its trainings, takes the INIT credits of BUF_ICRED (R67). -/
def Chip.takeInit (s : Chip) (p : Nat) : Chip :=
  let cr : Tab Nat := foldl' (List.range 12) (fun m (t : Tab Nat) => t.set 0 m (s.initCfg p m)) []
  s.modPort p (fun x => { x with initCr := cr })

/-- A port begins training from step 1 (R48); its DOWN_LIMIT runs from here. -/
def Chip.startPort (s : Chip) (p : Nat) : Chip :=
  let s := (s.takeInit p).takeCfg p
  let s := s.modPort p (fun x => { x with step := 1, downSince := some s.time })
  (s.set F.CEL_LINK_STS.LTSSM ltDetect p).driveCsb p

/-- A port configured and not Disabled: its admission state, its pin and, after its wave, its training. A flush that its being
Disabled began goes on (R80), and a host's PERST_N concerns an upstream port only. -/
def Chip.newPort (s : Chip) (p : Nat) : Chip :=
  let s := s.modPort p (fun x => { waved := x.waved, pgSince := x.pgSince, csbLow := x.csbLow, perst := x.perst && decide (s.role p = 1)
                                   flushing := x.flushing, flushCount := x.flushCount })
  let s := s.takeInit p
  let s := s.setAdm p (if s.role p = 3 then admNA else admDown) 0
  if (s.port p).waved then s.startPort p else s.driveCsb p

/-- Setting a live port Disabled (R26): down and flushed, treated as a removal from service. -/
def Chip.disablePort (s : Chip) (p : Nat) : Chip :=
  let s := s.removal p ltInactive true
  let s := s.modPort p (fun x => { x with step := 0, downSince := none, upHeld := false, hotReset := false, everOos := false })
  (s.set F.CEL_LINK_STS.LTSSM ltInactive p).setAdm p admNA 0

/-- A cell runs its test operation: TEST_EN is 1, its port is Disabled and it can run the rate (R58). -/
def Chip.inTest (s : Chip) (c : Nat) : Bool := s.is F.CEL_LINK_CFG.TEST_EN c && decide (s.ltssm c = ltTest)

/-- A rate that the cell cannot run under R40. -/
def rateBad (c rate : Nat) : Bool := decide (rate = 7) || (decide (rate = 6) && !trunkCapable c)

/-- Tenths of a GT/s of a rate code. -/
def rateTenths (rate : Nat) : Nat := [25, 50, 80, 160, 320, 640, 1280].getD rate 25

/-- 1/160 bits of one unit of LNK_PRBS_BITS. -/
def prbsUnit : Nat := 65536 * 160

/-- Bits that the checker of a lane has compared and LNK_PRBS_BITS does not hold yet, in 1/160 bit (R61). -/
def Chip.prbsSpan (s : Chip) (c lane : Nat) : Nat :=
  let x := s.lane (4 * c + lane)
  x.prbsRest + (if s.is F.LNK_PRBS.LOCK c lane then (s.time - x.prbsAt) * rateTenths (s.fld F.CEL_PORT_CFG.MAX_RATE c) else 0)

/-- The bits compared up to now enter LNK_PRBS_BITS. -/
def Chip.prbsCount (s : Chip) (c lane : Nat) : Chip :=
  let n := s.prbsSpan c lane
  (s.bump F.LNK_PRBS_BITS.BITS (n / prbsUnit) c lane).setLane (4 * c + lane)
    { s.lane (4 * c + lane) with prbsAt := s.time, prbsRest := n % prbsUnit }

/-- The checkers of a cell lose lock, what they have counted stays. -/
def Chip.prbsStop (s : Chip) (c : Nat) : Chip :=
  foldl' (List.range 4) (fun l s => (s.prbsCount c l).set F.LNK_PRBS.LOCK 0 c l) s

/-- Every loop, generator and checker of a cell ends (R59). -/
def Chip.endTest (s : Chip) (c : Nat) : Chip :=
  let s := s.prbsStop c
  if s.ltssm c = ltTest then s.set F.CEL_LINK_STS.LTSSM ltInactive c else s

/-- A value of LNK_EQ.PRESET: 11 to 15 stand for 4 (R56). -/
def presetOf (v : Nat) : Nat := if v > 10 then 4 else v

/-- Transmitter coefficients of a lane at a rate, within the ranges of Table 3.5. -/
def Chip.setTx (s : Chip) (c lane rate post pre pre2 : Nat) : Chip :=
  let pam4 := decide (rate ≥ 5)
  ((s.set F.LNK_EQ.TX_POST (min post (if pam4 then 16 else 20)) c lane).set F.LNK_EQ.TX_PRE (min pre (if pam4 then 14 else 16)) c lane).set
    F.LNK_EQ.TX_PRE2 (if pam4 then min pre2 6 else 0) c lane

/-- Each lane's transmitter is set to the preset that LNK_EQ names for it. -/
def Chip.testPresets (s : Chip) (c : Nat) : Chip :=
  let rate := s.fld F.CEL_PORT_CFG.MAX_RATE c
  foldl' (List.range 4) (fun l s =>
    let (a, b, d) := Config.presetCoef rate (presetOf (s.fld F.LNK_EQ.PRESET c l))
    s.setTx c l rate a b d) s

/-- Test operation as CEL_PORT_CFG stands (R58): at its rate, with the presets of LNK_EQ; a rate that the cell cannot run leaves it
idle. -/
def Chip.applyTest (s : Chip) (c : Nat) : Chip :=
  if rateBad c (s.fld F.CEL_PORT_CFG.MAX_RATE c) then (s.set F.CEL_LINK_STS.TEST_REFUSED 1 c).endTest c
  else (s.set F.CEL_LINK_STS.LTSSM ltTest c).testPresets c

/-- LNK_EQ has been written: a lane in test takes its preset (R58). -/
def Chip.eqWritten (s : Chip) (c : Nat) : Chip := if s.inTest c then s.testPresets c else s

/-- CEL_PORT_CFG_WRITE (R26). A role set while TEST_EN is 1 trains the port at once and leaves TEST_EN at 1: DESIGN CHOICE (log
entry 118). -/
def portCfgWrite (c : Nat) (v : W) (s : Chip) : Chip :=
  let new := v.toNat &&& readMask .CEL_PORT_CFG
  let role := bitsOf new 0 3
  if s.laneTested c then s.set F.CEL_PORT_STS.CFG_REFUSED 1 c
  else if s.role c ≠ 0 then
    if role ≠ 0 then s.set F.CEL_PORT_STS.CFG_REFUSED 1 c
    else
      let s := s.disablePort c
      (s.wr .CEL_PORT_CFG c 0 (w32 new)).driveCsb c
  else if role ≠ 0 ∧ (s.coverOf c).isSome then s.set F.CEL_PORT_STS.CFG_REFUSED 1 c
  else
    let s := foldl' (List.range 4) (fun l s => s.prbsCount c l) s
    let s := (s.wr .CEL_PORT_CFG c 0 (w32 new)).set F.CEL_PORT_STS.CFG_ERROR 0 c
    if role = 0 then (if s.is F.CEL_LINK_CFG.TEST_EN c then s.applyTest c else s)
    else
      let s := s.cfgCheck c
      if s.role c = 0 then s else s.newPort c

/-! ## Waves (R48, R269) -/

/-- Wave of a block. -/
def Chip.waveOf (s : Chip) (b : Nat) : Nat :=
  let n := s.start.map.getD b 15
  if n < 8 then n else b % 8

def Chip.waveGap (s : Chip) : Nat := clampTo 5 100 s.start.gapMs * msT

/-- The port of cell `c` begins: its configuration is checked again and it trains (R24, R48), once its cells are on (R317). -/
def Chip.beginCell (s : Chip) (c : Nat) : Chip :=
  if s.fld F.CEL_PORT_CFG.ROLE c = 0 ∨ (s.port c).surplus = true ∨ ((covered c (s.fld F.CEL_PORT_CFG.WIDTH c)).all s.domOn) = false then s
  else
    let s := s.cfgCheck c
    if s.role c = 0 then s
    else
      let s := if s.role c ≠ 3 ∧ s.adm c = admNA then s.setAdm c admDown 0 else s
      let a := s.adm c
      if (a = admOos ∧ s.fld F.VCS_PORT_ADM.OOS_CAUSE c ≠ 5) ∨ a = admFailed then s.driveCsb c else s.startPort c

/-- Cells begin, those that are on. -/
def Chip.beginCells (s : Chip) (cells : List Nat) : Chip :=
  let cells := cells.filter s.domOn
  let s := foldl' cells (fun c s => s.modPort c (fun x => { x with waved := true })) s
  foldl' cells (fun c s => s.beginCell c) s

/-- A block's cells begin. -/
def Chip.beginBlock (s : Chip) (b : Nat) : Chip := s.beginCells (rangeFrom (4 * b) 4)

/-- WAVE_BEGIN (R269). A wave begins at its time, once the image is done, and not in safe state. -/
def waveBegin (w : Nat) (s : Chip) : Chip :=
  if !s.waves.contains w || s.is F.FLT_SAFE_STS.SAFE || decide (s.fld F.IMG_STS.STATE ≠ 1) ||
      decide (s.time < s.waveZero + s.waveGap * w) then s
  else
    let s : Chip := { s with waves := s.waves.filter (fun x => decide (x ≠ w)) }
    let s := s.set F.IMG_STS.WAVES (8 - s.waves.length)
    foldl' ((List.range 32).filter (fun b => decide (s.waveOf b = w))) (fun b s => s.beginBlock b) s

/-! ## Negotiation (R34) -/

/-- Highest rate of a port's cells: 128 GT/s on trunk-capable cells (R40). -/
def Chip.cellMaxRate (s : Chip) (p : Nat) : Nat :=
  if (covered p (s.fld F.CEL_PORT_CFG.WIDTH p)).all trunkCapable then 6 else 5

/-- What negotiation gives. -/
structure Nego where
  rate : Nat
  cxl : Bool
  flit : Bool
  cache : Bool
  lopt : Bool
  ver : Nat
  deriving DecidableEq, Repr

/-- The outcome of negotiation (R29, R33, R34). -/
def Chip.negotiate (s : Chip) (p : Nat) (a : PartnerAdv) : Nego :=
  let rate := min (min a.maxRate (s.cellMaxRate p)) (s.fld F.CEL_PORT_CFG.MAX_RATE p)
  let cxl := s.is F.CEL_PORT_CFG.CXL_EN p && a.cxl && decide (a.version ≥ 20)
  let flit := s.is F.CEL_PORT_CFG.FLIT256_EN p && a.flit && decide (rate ≥ 2)
  let rate := if flit then rate else min rate 4
  { rate := rate, cxl := cxl, flit := flit
    cache := cxl && s.is F.CEL_PORT_CFG.CACHE_EN p && a.cache
    lopt := flit && a.lopt && s.is F.CEL_PORT_CFG.LOPT_EN p && decide (rate ≤ 5)
    ver := if !a.cxl then 0 else if a.version < 20 then 4 else if a.version < 30 then 1 else if a.version ≤ 31 then 2 else 3 }

/-! ## Training (Table 3.4) -/

/-- Rate that a step from 5 to 9 reaches; a target of 5.0 GT/s is reached in step 5. -/
def stepRate (step target : Nat) : Nat := if target = 1 then 1 else step - 3

/-- First step after Configuration: equalization bypass goes to the final rate at once (R50). -/
def Chip.nextStep (s : Chip) (p : Nat) (a : PartnerAdv) (target : Nat) : Nat :=
  if target = 0 then 10
  else if target = 1 then 5
  else if decide (s.trainCfg p F.CEL_LINK_CFG.EQ_BYPASS_EN = 1) && a.eqBypass then target + 3
  else 5

/-- An equalization begins: each lane takes what LNK_EQ holds for it; a write during it acts in the next one (R56). -/
def Chip.beginEq (s : Chip) (p : Nat) : Chip :=
  let s := foldl' (s.portLanes p) (fun l (s : Chip) => s.setLane (4 * l.1 + l.2) { s.lane (4 * l.1 + l.2) with
    offer := if s.is F.LNK_EQ.PRESET_FORCE l.1 l.2 then some (presetOf (s.fld F.LNK_EQ.PRESET l.1 l.2)) else none }) s
  (s.set F.CEL_LINK_STS.LTSSM ltRecEq p).set F.CEL_LINK_STS.EQ_PHASE 0 p

/-- A phase of the equalization in progress begins (steps 5 to 9 of Table 3.4). -/
def Chip.eqPhase (s : Chip) (p k : Nat) : Chip :=
  if s.ltssm p = ltRecEq then s.set F.CEL_LINK_STS.EQ_PHASE (min k 3) p else s

/-- What the equalization of a rate has found: a lane that offers one preset alone keeps its coefficients (R56), any other takes those
that its partner asked for; the receiver's peaking is 24 dB at most (Table 3.5). -/
def Chip.noteEq (s : Chip) (p rate : Nat) (eq : List LaneEq) : Chip :=
  foldl' ((s.portLanes p).zip eq) (fun x s =>
    let (l, e) := x
    let (a, b, d) := match (s.lane (4 * l.1 + l.2)).offer with
      | some n => Config.presetCoef rate n
      | none => (e.post, e.pre, e.pre2)
    (s.setTx l.1 l.2 rate a b d).set F.LNK_EQ.CTLE (min e.ctle 24) l.1 l.2) s

/-- Polling done (step 3): lanes with bit and symbol lock, and their polarity (R53). -/
def Chip.noteLock (s : Chip) (p locked pol : Nat) : Chip :=
  foldl' ((s.portLanes p).zip (List.range 16)) (fun x s =>
    let (l, n) := x
    let s := foldl' [F.LNK_LANE_STS.ALIGNED, F.LNK_LANE_STS.CDR_LOCK, F.LNK_LANE_STS.SIG_DET]
      (fun f (s : Chip) => s.set f (b2n (bitAt locked n)) l.1 l.2) s
    s.set F.LNK_LANE_STS.POL_INV (b2n (bitAt pol n)) l.1 l.2) s

/-- Lanes of a link of `width` lanes, in normal or reversed order (R53). -/
def Chip.noteLanes (s : Chip) (p width : Nat) (rev : Bool) : Chip :=
  let w := 4 * s.cells p
  foldl' (List.range w) (fun n s =>
    let phys := if rev then w - 1 - n else n
    let c := p + phys / 4
    let l := phys % 4
    let on := decide (n < width)
    let s := s.set F.LNK_LANE_STS.LOGICAL_LANE n c l
    foldl' [F.LNK_LANE_STS.ACTIVE, F.LNK_LANE_STS.ALIGNED, F.LNK_LANE_STS.CDR_LOCK, F.LNK_LANE_STS.SIG_DET]
      (fun f (s : Chip) => s.set f (b2n on) c l) s) s

/-- Configuration done (step 4): width, protocols, flit mode; a CXL 1.1 partner and a trunk without 256-byte flits are logged. -/
def Chip.configDone (s : Chip) (p : Nat) (i : TrainInfo) : Chip :=
  let a := i.adv
  let n := s.negotiate p a
  let s := s.set F.CEL_PORT_STS.PARTNER_RATE (if a.maxRate > 6 then 15 else a.maxRate) p
  let s := s.set F.CEL_PORT_STS.PARTNER_VER n.ver p
  let s := if n.ver = 4 then s.cellFault p 7 clsC else s
  if n.ver = 4 ∧ a.pcie = false then s.goDown p ltDetect
  else
    let s := ((s.set F.CEL_PORT_STS.CXL_ACTIVE (b2n n.cxl) p).set F.CEL_PORT_STS.CACHE_ACTIVE (b2n n.cache) p).set
      F.CEL_PORT_STS.FLIT256 (b2n n.flit) p
    let s := (s.set F.CEL_PORT_STS.LOPT (b2n n.lopt) p).set F.CEL_PORT_STS.NEG_WIDTH i.width p
    let s := (s.set F.CEL_PORT_STS.NEG_RATE 0 p).set F.CEL_LINK_STS.REVERSED (b2n i.reversed) p
    let s := s.noteLanes p i.width i.reversed
    let s := if i.width < 4 * s.cells p then s.count (cntCell p 11) else s
    let trunkBad := decide (s.role p = 3) && !n.flit
    let s := if trunkBad then s.cellFault p 8 clsP else s
    let step := s.nextStep p a n.rate
    let s := s.modPort p (fun x => { x with adv := some a, target := n.rate, noTraffic := trunkBad, step := step })
    if step ≠ 10 ∧ n.rate ≠ 1 then s.beginEq p else s.set F.CEL_LINK_STS.LTSSM (if step = 10 then ltL0 else ltRecovery) p

/-- A speed change done (steps 5 to 9), with the equalization of its rate unless R50 reuses the previous one: that needs a link which
has not passed through Detect, as every training from step 2 does. -/
def Chip.speedDone (s : Chip) (p step : Nat) (i : TrainInfo) : Chip :=
  let x := s.port p
  let rate := stepRate step x.target
  let reuse := decide (s.trainCfg p F.CEL_LINK_CFG.EQ_BYPASS_EN = 1) && !x.detected && (match x.adv with
    | some a => a.noEq && a.eqBypass
    | none => false)
  let s := s.set F.CEL_PORT_STS.NEG_RATE rate p
  let s := if rate ≥ 2 then
      let s := s.set F.CEL_LINK_STS.EQ_DONE (setBit (s.fld F.CEL_LINK_STS.EQ_DONE p) (rate - 2)) p
      if reuse then s else s.noteEq p rate i.eq
    else s
  let next := if rate ≥ x.target then 10 else step + 1
  let s := (s.modPort p (fun x => { x with step := next })).set F.CEL_LINK_STS.EQ_PHASE 0 p
  if next = 10 then s.set F.CEL_LINK_STS.LTSSM ltL0 p else s.beginEq p

/-- The Recovery of a link that is up is over (R45): at the same rate, or at the lower one. -/
def Chip.recoveryDone (s : Chip) (p : Nat) (i : TrainInfo) : Chip :=
  let rate := (s.port p).target
  let s := s.set F.CEL_PORT_STS.NEG_RATE rate p
  let s := if rate ≥ 2 then
      (s.set F.CEL_LINK_STS.EQ_DONE (setBit (s.fld F.CEL_LINK_STS.EQ_DONE p) (rate - 2)) p).noteEq p rate i.eq
    else s
  let s := (s.modPort p (fun x => { x with step := 0 })).set F.CEL_LINK_STS.EQ_PHASE 0 p
  s.set F.CEL_LINK_STS.LTSSM ltL0 p

/-- The reference input of a cell's transmit PLL, 0 PCLK0 or 1 PCLK1, as its training took REFSEL (R46); 3 is treated as 0. -/
def Chip.refOf (s : Chip) (p : Nat) : Nat :=
  match s.trainCfg p F.CEL_LINK_CFG.REFSEL with
  | 1 => 0
  | 2 => 1
  | _ => if p < 64 then 0 else 1

/-- The reference of a cell is present: without it the PLL does not lock and step 1 does not end (DEDUCED, log entry 134). -/
def Chip.refOk (s : Chip) (p : Nat) : Bool := s.is (if s.refOf p = 0 then F.PWR_CLK_STS.PCLK0 else F.PWR_CLK_STS.PCLK1)

/-- TRAINING_STEP_COMPLETE (R49), or a phase of equalization within a step. Step 2 ends with PARTNER_DETECTED, step 10 with
LINK_UP. -/
def trainingComplete (p : Nat) (i : TrainInfo) (s : Chip) : Chip :=
  let x := s.port p
  if x.perst || s.is F.FLT_SAFE_STS.SAFE then s
  else match x.step with
  | 1 => if s.refOk p then s.modPort p (fun x => { x with step := 2 }) else s
  | 3 =>
    let s := s.noteLock p i.locked i.polInv
    if i.adv.loopback && decide (s.trainCfg p F.CEL_LINK_CFG.LOOP_ALLOW = 1) then s.set F.CEL_LINK_STS.LTSSM ltLoopFollow p
    else (s.modPort p (fun x => { x with step := 4 })).set F.CEL_LINK_STS.LTSSM ltConfig p
  | 4 => s.configDone p i
  | 5 | 6 | 7 | 8 | 9 =>
    match i.phase with
    | some k => s.eqPhase p k
    | none => if x.up then s.recoveryDone p i else s.speedDone p x.step i
  | _ => s

/-- TRAINING_STEP_FAIL (R49, R51): back to Detect. -/
def trainingFail (p : Nat) (s : Chip) : Chip :=
  if (s.port p).step ≤ 2 then s else s.goDown p ltDetect

/-- PARTNER_DETECTED (R49, R51): Detect ends and Polling begins. A port out of service by the down limit enters Training (Table
6.8). -/
def partnerDetected (p : Nat) (s : Chip) : Chip :=
  let x := s.port p
  if x.step ≠ 2 ∨ s.role p = 0 ∨ x.perst = true ∨ x.hotReset = true ∨ s.is F.FLT_SAFE_STS.SAFE = true then s
  else
    let s := if s.adm p = admOos then s.startTraining p else s
    let s := ((s.clearLink p true).takeInit p).takeCfg p
    let s := s.modPort p (fun x => { x with present := true, step := 3 })
    (s.set F.CEL_LINK_STS.LTSSM ltPolling p).refreshBridges p

/-- RECEIVER_DETECT_REPEAT (R51): no partner is found. -/
def detectRepeat (p : Nat) (s : Chip) : Chip :=
  if (s.port p).step ≠ 2 then s
  else (s.modPort p (fun x => { x with present := false })).refreshBridges p

/-- GROVE_ELIGIBLE follows R31; a member whose port stops being eligible is a dead agent, one that becomes eligible joins. -/
def Chip.noteEligible (s : Chip) (p : Nat) : Chip :=
  let now := s.eligiblePort p
  let s := s.set F.CEL_PORT_STS.GROVE_ELIGIBLE (b2n now) p
  match s.instOf p with
  | none => s
  | some n =>
    if now then foldl' ((List.range 32).filter (fun g => bitAt (s.members g) n)) (fun g s => s.groveJoin g) s
    else if s.role p = 1 then s.deadMember n 2 else s

/-- The protocols of a port's link use a message class (R70): CXL.io or PCI Express always, CXL.mem on a CXL link, CXL.cache where it
was negotiated. -/
def Chip.usesMc (s : Chip) (p m : Nat) : Bool :=
  decide (m < 3) || (decide (m < 9) && s.is F.CEL_PORT_STS.CXL_ACTIVE p) || (decide (9 ≤ m) && s.is F.CEL_PORT_STS.CACHE_ACTIVE p)

/-- A message class with payload (Table 4.1). -/
def hasPayload (m : Nat) : Bool := decide (m = 0) || decide (m = 1) || decide (m = 2) || decide (m = 4) || decide (m = 7) || decide (m = 11)

/-- The initial credits that a port advertises (R70): headers, and 256 bytes of data for each in the classes with payload. -/
def Chip.advertise (s : Chip) (p : Nat) : Chip :=
  foldl' ((List.range 12).filter (s.usesMc p)) (fun m s =>
    s.out (.credits p m (s.initOf p m) (if hasPayload m then 256 * s.initOf p m else 0))) s

/-- The retention save of a cell of the port has begun (step 5 of Table 1.13): no link comes up on it. -/
def Chip.cellSaving (s : Chip) (p : Nat) : Bool :=
  match s.pw.cmd with
  | some c => decide (c.phase = 3) && (covered p (s.fld F.CEL_PORT_CFG.WIDTH p)).any (fun x => c.doms.contains x)
  | none => false

/-- LINK_UP (Table 3.4 step 10): credits initialised in both directions (R70), buckets filled (R94), deficits cleared (R89), the
port reported up. -/
def linkUp (p : Nat) (lds : Nat) (hdr dat : List Nat) (s : Chip) : Chip :=
  if (s.port p).step ≠ 10 ∨ s.is F.FLT_SAFE_STS.SAFE = true ∨ s.cellSaving p = true then s
  else if s.poolBad p then
    let s := s.removal p ltInactive true
    let s := (s.modPort p (fun x => { x with step := 0 })).set F.CEL_LINK_STS.LTSSM ltInactive p
    let s := s.setAdm p admNA 0
    (s.set F.CEL_PORT_STS.CFG_ERROR 1 p).cellFault p 4 clsP
  else
    let tab (l : List Nat) : Tab Nat := foldl' (l.zip (List.range 12)) (fun x (t : Tab Nat) => t.set 0 x.2 x.1) []
    let s := s.takeInit p
    let s := s.modPort p (fun x => { x with
      step := 0, detected := false, lds := some lds, crHdr := tab hdr, crData := tab dat, deficit := [], ptr := 0 })
    let s := (s.advertise p).fillBuckets p
    let s := s.set F.CEL_LINK_STS.LTSSM ltL0 p
    (s.portUp p).noteEligible p

/-! ## Link quality (R37, R44, R45) -/

/-- A time within a window that ends now. -/
def Chip.within (s : Chip) (w : Nat) (l : List Nat) : List Nat := l.filter (fun t => decide (s.time < t + w))

/-- A link that is up enters Recovery, to come back at rate `rate`, with the equalization of a rate that has one (R45). -/
def Chip.recover (s : Chip) (p rate : Nat) : Chip :=
  let s := s.modPort p (fun x => { x with step := if rate ≥ 2 then rate + 3 else 5, target := rate, crcFails := [], rxErrs := [] })
  if rate ≥ 2 then s.beginEq p else s.set F.CEL_LINK_STS.LTSSM ltRecovery p

/-- Recovery for link quality (R45): the third entry in 1 s drops the rate, and at 2.5 GT/s takes the port through Detect, for the
third time in 10 s out of service. A trunk, which R118 does not take out of service, raises source bit 13 alone (log entry 116). -/
def Chip.requalify (s : Chip) (p : Nat) : Chip :=
  let rate := s.fld F.CEL_PORT_STS.NEG_RATE p
  let s := (s.cellFault p 0 clsC).count (cntCell p 9)
  let times := (s.within secT (s.port p).requal) ++ [s.time]
  let s := s.modPort p (fun x => { x with requal := times })
  let fresh := times.filter (fun t => match (s.port p).dropAt with
    | some d => decide (t > d)
    | none => true)
  if fresh.length < 3 then s.recover p rate
  else if rate = 0 then
    let lows := (s.within (10 * secT) (s.port p).lows) ++ [s.time]
    let s := s.modPort p (fun x => { x with dropAt := some s.time, lows := if lows.length ≥ 3 then [] else lows, crcFails := [], rxErrs := [] })
    let s := s.goDown p ltDetect
    if lows.length < 3 then s
    else if s.role p = 3 then s.cellFault p 13 clsP
    else
      let s := s.modPort p (fun x => { x with isoQual := true })
      (s.outOfService p 2).cellFault p 13 clsP
  else
    let s := (s.set F.CEL_LINK_STS.RATE_DOWN 1 p).cellFault p 1 clsC
    (s.modPort p (fun x => { x with dropAt := some s.time })).recover p (rate - 1)

/-- More than 64 flits that failed their CRC, or 64 receiver errors, in the last 1 ms (R45). -/
def Chip.badQuality (s : Chip) (p : Nat) : Bool :=
  decide (64 < (s.within msT (s.port p).crcFails).length) || decide (64 < (s.within msT (s.port p).rxErrs).length)

/-- The link carries traffic: L0 or L0p. -/
def Chip.isL0 (s : Chip) (p : Nat) : Bool := decide (s.ltssm p = ltL0) || decide (s.ltssm p = ltL0p)

/-- RE_EQUALIZATION (R45): a link of bad quality enters Recovery. -/
def reEqualize (p : Nat) (s : Chip) : Chip := if (s.port p).up && s.isL0 p && s.badQuality p then s.requalify p else s

/-- A flit that failed its CRC, or a receiver error at an NRZ rate, is noted (R45). -/
def Chip.noteBad (s : Chip) (p : Nat) (crc : Bool) : Chip :=
  let s := s.modPort p (fun x => if crc then { x with crcFails := s.within msT x.crcFails ++ [s.time] } else
    if s.fld F.CEL_PORT_STS.NEG_RATE p ≤ 4 then { x with rxErrs := s.within msT x.rxErrs ++ [s.time] } else x)
  reEqualize p s

/-- LINK_FLIT_RECEIVE (R42 to R45): counted, sticky bits set, a failed flit replayed. A lane whose sync header is invalid realigns at
the next EIEOS or SKP ordered set (R43); a malformed flit is dropped (R37); the receiver adapts in L0 and in test (R55, R58). -/
def flitReceive (p lane : Nat) (o : FlitOutcome) (s : Chip) : Chip :=
  let c := p + lane / 4
  let l := lane % 4
  let replay (s : Chip) : Chip := (s.count (cntCell c 8)).out (.replay p)
  let n := s.count (cntCell c 0)
  match o with
  | .good => n
  | .fecCorrected => n.count (cntCell c 5)
  | .fecUncorrectable =>
    (replay (((n.count (cntCell c 6)).set F.LNK_LANE_STS.FEC_UNCORR 1 c l).count (cntCell c 7))).noteBad p true
  | .crcFail => (replay (n.count (cntCell c 7))).noteBad p true
  | .decErr => (replay ((n.count (cntCell c 2)).set F.LNK_LANE_STS.DEC_ERR 1 c l)).noteBad p false
  | .dispErr => (replay ((n.count (cntCell c 3)).set F.LNK_LANE_STS.DISP_ERR 1 c l)).noteBad p false
  | .syncErr =>
    (replay (((n.count (cntCell c 4)).set F.LNK_LANE_STS.SYNC_ERR 1 c l).set F.LNK_LANE_STS.ALIGNED 0 c l)).noteBad p false
  | .malformed => (n.count (cntCell p 14)).cellFault p 3 clsP
  | .realign => if s.is F.LNK_LANE_STS.ACTIVE c l then s.set F.LNK_LANE_STS.ALIGNED 1 c l else s
  | .adapted db =>
    if (s.isL0 p || s.inTest c) && !s.is F.LNK_EQ.ADAPT_FREEZE c l then s.set F.LNK_EQ.CTLE (min db 24) c l else s

/-- The chip's own requests that a message carries. -/
def Msg.inns (m : Msg) : List Nat := (m.inn :: m.refs.map (·.inn)).filter (fun i => decide (i ≠ 0))

/-- The request of a port that a mirrored copy serves, 0 none. -/
def Chip.servedBy (s : Chip) (inn : Nat) : Nat :=
  match s.inner? inn with
  | some i => (match i.who with
    | .mirror k _ => (match s.mirror? k with
      | some x => x.opn
      | none => 0)
    | _ => 0)
  | none => 0

/-- A request whose forwarded copy failed is answered to nobody: its replay is a new one (R74). -/
def Chip.muteOpen (s : Chip) (id : Nat) : Chip := s.modOpen id (fun o => { o with mute := true })

/-- A nullified copy brings no response: its request is at an end, and so is one copy of a mirrored write. -/
def Chip.nullify (s : Chip) (opn : Nat) (inns : List Nat) : Chip :=
  foldl' inns (fun i s => match s.inner? i with
    | some x => s.innerAnswer (x.dest / 16) x .cmp [] false 0
    | none => s) (s.delOpen opn)

/-- A copy that has left its ingress queue ends with EDB or poison (R74). A response so ended answers its request no more. -/
def Chip.endCopy (s : Chip) (m : Msg) : Chip :=
  let edb := s.endsEdb m.dest m
  let req := isRequest m.kind
  let s := s.modMsg m.id (fun x => { x with tail := true, edb := edb, poison := !edb || x.poison, opn := if req then x.opn else 0 })
  if !req then s
  else
    let s := foldl' (m.opn :: m.inns.map s.servedBy) (fun i s => s.muteOpen i) s
    if edb then s.nullify m.opn m.inns else s

/-- A copy that is on its egress link already ends there; a request that its response had closed is open again for the replay. -/
def Chip.endCut (s : Chip) (c : Cut) : Chip :=
  let s := s.out (.ended c.port c.tag c.edb)
  match c.req with
  | some o => if (s.open? o.id).isSome then s else { s with opens := s.opens ++ [o] }
  | none =>
    let inns := if c.inn = 0 then [] else [c.inn]
    let s := foldl' (c.opn :: inns.map s.servedBy) (fun i s => s.muteOpen i) s
    if c.edb then s.nullify c.opn inns else s

/-- MESSAGE_TAIL_CRC_FAIL (R74): outside 256-byte flit mode a message cut through fails its check. One still in the ingress
queue is discarded, its request with it; every copy that has gone on is ended. The partner's replay comes as a new message. -/
def tailFail (p id : Nat) (s : Chip) : Chip :=
  if s.is F.CEL_PORT_STS.FLIT256 p then s
  else
    let mine := s.msgs.filter (fun m => (decide (m.id = id) || decide (m.origin = id)) && decide (m.iport = some p) && !m.tail)
    let (here, gone) := mine.partition (fun m => decide (m.loc = .ingress p))
    let s := foldl' here (fun m s => if isRequest m.kind then (s.freeIngress m).delOpen m.opn else s.freeIngress m) s
    let s := foldl' gone (fun m s => s.endCopy m) s
    let (cut, rest) := s.cuts.partition (fun c => decide (c.id = id) && decide (c.iport = p))
    foldl' cut (fun c s => s.endCut c) { s with cuts := rest }

/-- LINK_PROTOCOL_VIOLATION (R37): through Detect; the third in 1 s takes the port out of service. R118 takes no trunk out of
service: a trunk raises source bit 11 alone: DESIGN CHOICE (log entry 116). -/
def protocolViolation (p : Nat) (s : Chip) : Chip :=
  if (s.port p).up = false then s
  else
    let v := (s.within secT (s.port p).viols) ++ [s.time]
    let s := (s.cellFault p 2 clsP).modPort p (fun x => { x with viols := if v.length ≥ 3 then [] else v })
    let s := s.goDown p ltDetect
    if v.length < 3 then s
    else if s.role p = 3 then s.cellFault p 11 clsP
    else
      let s := s.modPort p (fun x => { x with isoViol := true })
      (s.outOfService p 2).cellFault p 11 clsP

/-! ## Downs and resets from outside -/

/-- PORT_DOWN (R79). An uncorrectable error in the retry buffer takes the link through Detect (Table 14.2 bit 6). -/
def portDown (p : Nat) (why : DownCause) (s : Chip) : Chip :=
  if isIdle (s.ltssm p) || decide (s.role p = 0) then s
  else match why with
  | .detect => s.goDown p ltDetect
  | .disabled => (s.goDown p ltDisabled).modPort p (fun x => { x with step := 2 })
  | .hotReset => (s.goDown p ltHotReset).modPort p (fun x => { x with step := 2 })
  | .retryBuffer => (s.cellFault p 6 clsP).goDown p ltDetect

/-- DPC_TRIGGER (R79): the link goes Disabled, and may be detected again once the host has released it. -/
def dpcTrigger (p : Nat) (s : Chip) : Chip :=
  if s.role p ≠ 2 ∨ isIdle (s.ltssm p) = true then s
  else (s.goDown p ltDisabled).modPort p (fun x => { x with step := 2 })

/-- PERST_N_ASSERT (R38, R52): shorter than 1 µs, or before the wave, it is ignored. -/
def perstAssert (p lowNs : Nat) (s : Chip) : Chip :=
  if s.role p ≠ 1 ∨ lowNs < 1000 ∨ (s.port p).waved = false ∨ (s.port p).perst = true then s
  else
    let inst := s.attachedOf p
    let s := s.modPort p (fun x => { x with perst := true })
    let s := if s.adm p = admOos ∨ s.adm p = admFailed then s
      else (s.goDown p ltDetect).modPort p (fun x => { x with step := 0 })
    match inst with
    | some n => s.instanceReset n 2
    | none => s

/-- PERST_N_RELEASE (R52): training restarts from step 2. -/
def perstRelease (p : Nat) (s : Chip) : Chip :=
  if (s.port p).perst = false then s
  else
    let s := s.modPort p (fun x => { x with perst := false })
    if (s.adm p = admOos ∧ s.fld F.VCS_PORT_ADM.OOS_CAUSE p ≠ 5) ∨ s.adm p = admFailed ∨ s.role p ≠ 1 then s
    else s.modPort p (fun x => { x with step := 2 })

/-- UPSTREAM_HOT_RESET (R113). -/
def upstreamHotReset (p : Nat) (s : Chip) : Chip :=
  if s.role p ≠ 1 ∨ isIdle (s.ltssm p) = true then s
  else
    let inst := s.attachedOf p
    let s := (s.goDown p ltHotReset).modPort p (fun x => { x with step := 2 })
    match inst with
    | some n => s.instanceReset n 1
    | none => s

/-- POWER_GOOD_HOLD_EXPIRE (R38). -/
def powerGoodHold (p : Nat) (s : Chip) : Chip := s.driveCsb p

/-- TRUNK_CSB_CHANGE (R38): low is a notice. -/
def trunkCsb (p : Nat) (low : Bool) (s : Chip) : Chip :=
  if s.role p ≠ 3 ∨ (s.port p).csbLow = low then s
  else
    let s := s.modPort p (fun x => { x with csbLow := low })
    if low then s.cellFault p 9 clsC else s

/-- ASPM_L1_ENTRY and ASPM_L1_EXIT (R28): the port stays up and keeps its queues. The operand may name the other low-power state, L0p of
an x8 or x16 link in flit mode, for which the table has no command of its own (log entry 31). -/
def aspmEntry (x : LowPower) (s : Chip) : Chip :=
  let p := x.port
  if (s.port p).up = false ∨ s.ltssm p ≠ ltL0 then s
  else if x.l0p then
    (if s.is F.CEL_PORT_STS.FLIT256 p && decide (8 ≤ s.fld F.CEL_PORT_STS.NEG_WIDTH p) then s.set F.CEL_LINK_STS.LTSSM ltL0p p else s)
  else if s.role p = 2 then s.set F.CEL_LINK_STS.LTSSM ltL1 p else s
def aspmExit (p : Nat) (s : Chip) : Chip :=
  if s.ltssm p = ltL1 then (s.count (cntCell p 9)).set F.CEL_LINK_STS.LTSSM ltL0 p
  else if s.ltssm p = ltL0p then s.set F.CEL_LINK_STS.LTSSM ltL0 p
  else s

/-! ## Test operation (R57 to R59) -/

/-- A cell may be tested: its port's role is Disabled and its wave has begun. -/
def Chip.testable (s : Chip) (c : Nat) : Bool := decide (s.role c = 0) && (s.coverOf c).isNone && (s.port c).waved

/-- A write of CEL_LINK_CFG (R57, R58, R59): refused whole where TEST_EN or LOOP_MODE asks for what is not allowed. -/
def linkCfgWrite (c : Nat) (v : W) (s : Chip) : Chip :=
  let new := v.toNat &&& readMask .CEL_LINK_CFG
  let test := bitAt new 10
  let mode := bitsOf new 11 3
  let rate := s.fld F.CEL_PORT_CFG.MAX_RATE c
  let asks := test || decide (mode ≠ 0)
  if s.laneTested c || (asks && !s.testable c) || decide (mode ≥ 5) || (test && rateBad c rate) then
    s.set F.CEL_LINK_STS.TEST_REFUSED 1 c
  else
    let was := s.is F.CEL_LINK_CFG.TEST_EN c
    let wasMode := s.fld F.CEL_LINK_CFG.LOOP_MODE c
    let s := s.wr .CEL_LINK_CFG c 0 (w32 new)
    if test then
      let s := s.applyTest c
      if mode = 4 ∧ (was = false ∨ wasMode ≠ 4) then s.modPort c (fun x => { x with loopStart := s.time }) else s
    else s.endTest c

/-- TEST_ENABLE, TEST_DISABLE and LOOP_MODE_SET: the writes of CEL_LINK_CFG that set TEST_EN, clear it, or set LOOP_MODE. -/
def testEnable (c : Nat) (v : W) (s : Chip) : Chip := linkCfgWrite c (w32 (setBit v.toNat 10)) s
def testDisable (c : Nat) (v : W) (s : Chip) : Chip := linkCfgWrite c (w32 (clrBit v.toNat 10)) s
def loopModeSet (c : Nat) (v : W) (s : Chip) : Chip := linkCfgWrite c v s

/-- REMOTE_LOOPBACK_TIMEOUT (R58). -/
def remoteLoopTimeout (c : Nat) (s : Chip) : Chip :=
  if s.is F.CEL_LINK_CFG.TEST_EN c && decide (s.fld F.CEL_LINK_CFG.LOOP_MODE c = 4) &&
      decide ((s.port c).loopStart + 24 * msT ≤ s.time) then s.set F.CEL_LINK_STS.TEST_REFUSED 1 c
  else s

/-! ## PRBS (R61) -/

/-- A write of LNK_PRBS: CLEAR zeroes both counts and leaves lock; a checker that is off holds no lock. -/
def prbsWrite (c lane : Nat) (v : W) (s : Chip) : Chip :=
  let s := s.prbsCount c lane
  let s := s.wr .LNK_PRBS c lane (w32 (accessWrite .LNK_PRBS false (s.rd .LNK_PRBS c lane).toNat v.toNat))
  let s := if s.is F.LNK_PRBS.CHK_EN c lane then s else s.set F.LNK_PRBS.LOCK 0 c lane
  if bitAt v.toNat 7 then
    ((s.wr .LNK_PRBS_ERR c lane 0).wr .LNK_PRBS_BITS c lane 0).setLane (4 * c + lane) { s.lane (4 * c + lane) with prbsRest := 0 }
  else s

def Chip.prbsOn (s : Chip) (c lane : Nat) : Bool := s.inTest c && s.is F.LNK_PRBS.CHK_EN c lane

/-- PRBS_CHECKER_LOCK: 64 error-free bits. -/
def prbsLock (c lane : Nat) (s : Chip) : Chip :=
  if s.prbsOn c lane then (s.prbsCount c lane).set F.LNK_PRBS.LOCK 1 c lane else s

/-- PRBS_CHECKER_UNLOCK: the bits compared, and the errors counted since the checker was last named, are added; lock ends with 32 errors
in 256 bits (log entry 56). -/
def prbsUnlock (c lane errors burst : Nat) (s : Chip) : Chip :=
  if s.is F.LNK_PRBS.LOCK c lane then
    let s := (s.prbsCount c lane).bump F.LNK_PRBS_ERR.ERRORS (max errors burst) c lane
    if 32 ≤ burst then s.set F.LNK_PRBS.LOCK 0 c lane else s
  else s

/-! ## Margin scans (R62, R63) -/

/-- Twentieths of a time-base tick in a unit interval of a rate. -/
def uiOf (rate : Nat) : Nat := [128, 64, 40, 20, 10, 10, 5].getD rate 5

/-- Length of a scan in the time base, as its START finds DWELL and the lane's rate. -/
def Chip.scanLen (s : Chip) (c lane : Nat) : Nat :=
  let rate := if s.inTest c then s.fld F.CEL_PORT_CFG.MAX_RATE c
    else s.fld F.CEL_PORT_STS.NEG_RATE ((s.coverOf c).getD c)
  2 ^ (10 + s.fld F.LNK_MARGIN.DWELL c lane) * uiOf rate / 20

/-- MARGIN_SCAN_START: a write of LNK_MARGIN. DESIGN CHOICE (log entry 117): a lane that is neither in L0 nor in test is scanned too,
and a START with DWELL = 31 while a scan runs ends that scan, without a result. -/
def marginWrite (c lane : Nat) (v : W) (s : Chip) : Chip :=
  let s := s.wr .LNK_MARGIN c lane (w32 (accessWrite .LNK_MARGIN false (s.rd .LNK_MARGIN c lane).toNat v.toNat))
  if !bitAt v.toNat 31 then s
  else if (s.lane (4 * c + lane)).margining || decide (s.fld F.LNK_MARGIN.DWELL c lane = 31) then
    s.wr .LNK_MARGIN_RES c lane (w32 (2 ^ 29))
  else
    let s := s.setLane (4 * c + lane) { s.lane (4 * c + lane) with scanStart := s.time, scanLen := s.scanLen c lane }
    s.wr .LNK_MARGIN_RES c lane (w32 (2 ^ 28))

/-- MARGIN_SCAN_DONE: the scan has run its length. -/
def marginDone (c lane errors : Nat) (s : Chip) : Chip :=
  if s.is F.LNK_MARGIN_RES.BUSY c lane && decide ((s.lane (4 * c + lane)).scanStart + (s.lane (4 * c + lane)).scanLen ≤ s.time) then
    s.wr .LNK_MARGIN_RES c lane (w32 (2 ^ 31 + min errors 0xFFFFFF))
  else s

/-- PARTNER_LANE_MARGINING (R63): it advertises 32 timing and 32 voltage steps each way, and stops a register scan on the lane. -/
def partnerMargining (c lane : Nat) (on : Bool) (errors : Nat) (s : Chip) : Chip :=
  let s := s.setLane (4 * c + lane) { s.lane (4 * c + lane) with margining := on }
  let s := if on then s.out (.marginSteps c lane 32 32) else s
  if on && s.is F.LNK_MARGIN_RES.BUSY c lane then
    s.wr .LNK_MARGIN_RES c lane (w32 (2 ^ 31 + 2 ^ 30 + min errors 0xFFFFFF))
  else s

end Sys2Proof.Machine
end

