-- ==== Sys2Proof/Machine/Cfg.lean ====
section
/-! DEFINITION. Configuration requests of a host to the chip's own functions (R28, R101, R116, R117, R123, Table 6.9): the function
of the upstream port, and the virtual bridges. The registers lie in their capabilities as PCI Express and CXL have them (PRESUMED);
where the capabilities lie is open (log entry 21). -/

namespace Sys2Proof.Machine

/-- Capabilities: PCI Express, Advanced Error Reporting, Access Control Services, Downstream Port Containment, the Mladnor DVSEC,
the back-invalidate decoder. -/
def capPcie : Nat := 0x10
def capAer : Nat := 0x101
def capAcs : Nat := 0x10D
def capDpc : Nat := 0x11D
def capDvsec : Nat := 0x123
def capBi : Nat := 0x20C

/-- Virtual bridge at a device and function of the internal bus (R101). -/
def bridgeAt (dev fn : Nat) : Nat := 8 * dev + fn

/-- The chip's function that a configuration request names: none for the upstream port's, `some v` for a bridge's (R101). -/
def ownBridge (vb : Nat) : Option Nat := if vb = 64 then none else some (bridgeAt ((vb - 128) / 8) ((vb - 128) % 8))

/-- Offset of a register in the upstream port's function, and in a bridge. -/
def uspReg (cap off : Nat) : Nat := Config.capAt 0 cap + off
def bridgeReg (cap off : Nat) : Nat := Config.capAt 1 cap + off

/-! ## Reads -/

/-- The upstream port's function: vendor ID, Uncorrectable Error Status, the Mladnor DVSEC (Table 6.9). `f` gives the bits that
spec/ does not. -/
def Chip.uspWord (s : Chip) (n a f : Nat) : Nat :=
  if a = 0 then putBits f 0 16 Config.vendorId
  else if a = uspReg capDvsec 0 then putBits f 0 20 0x10023
  else if a = uspReg capDvsec 4 then Config.vendorId % 2 ^ 16 + 0x14 * 2 ^ 20
  else if a = uspReg capDvsec 8 then putBits f 0 16 1
  else if a = uspReg capDvsec 0xC then n + s.fld F.VCS_INST_CFG.VPPB_COUNT n * 2 ^ 8
  else if a = uspReg capDvsec 0x10 then
    b2n s.relay.isSome + s.fld F.VCS_MBX_STS.RELAY_PENDING n * 2 + s.fld F.VCS_MBX_CFG.RELAY_TO * 2 ^ 16
  else if a = uspReg capAer 4 then putBits f 22 1 (b2n (s.vsw n).aerUie)
  else f

/-- Slot Capabilities of a bridge (R116): the fixed fields; the slot's number and power limit are free. -/
def slotCaps (f : Nat) : Nat := putBits (putBits f 0 7 0x60) 17 2 2

/-- Slot Control and Slot Status of a bridge (R117): interrupt enable; Power Fault Detected, Presence Detect Changed, Presence Detect
State, Data Link Layer State Changed. -/
def Chip.slotWord (s : Chip) (n v f : Nat) : Nat :=
  let b := s.vppb n v
  putBits (putBits (putBits (putBits (putBits f 5 1 (b2n b.hpie)) 17 1 (b2n b.pfd)) 19 1 (b2n b.pdc))
    22 1 (s.fld F.VCS_VPPB_STS.PRESENT n v)) 24 1 (b2n b.dllsc)

/-- Uncorrectable Error Status of a bridge: Surprise Down, Unsupported Request, ACS Violation, Uncorrectable Internal Error. -/
def Vppb.aerWord (b : Vppb) (f : Nat) : Nat :=
  putBits (putBits (putBits (putBits f 5 1 (b2n b.aerSd)) 20 1 (b2n b.aerUr)) 21 1 (b2n b.aerAcs)) 22 1 (b2n b.aerUie)

/-- A virtual bridge's function. -/
def Chip.bridgeWord (s : Chip) (n v a f : Nat) : Nat :=
  let b := s.vppb n v
  if a = 0x18 then putBits (putBits f 8 8 b.secBus) 16 8 b.subBus
  else if a = bridgeReg capPcie 0xC then putBits f 20 1 1
  else if a = bridgeReg capPcie 0x10 then putBits f 29 1 (s.fld F.VCS_VPPB_STS.LINK_ACTIVE n v)
  else if a = bridgeReg capPcie 0x14 then slotCaps f
  else if a = bridgeReg capPcie 0x18 then s.slotWord n v f
  else if a = bridgeReg capAer 4 then b.aerWord f
  else if a = bridgeReg capDpc 4 then putBits f 18 1 (b2n b.dpcCa)
  else if a = bridgeReg capAcs 4 then putBits f 16 7 b.acs
  else if a = bridgeReg capAcs 8 then b.egressVec % 2 ^ 32
  else if a = bridgeReg capAcs 0xC then b.egressVec / 2 ^ 32
  else f

/-- What a configuration read of four bytes at offset `a` returns. -/
def Chip.cfgWord (s : Chip) (n vb a : Nat) : Nat :=
  let f := Config.cfgSpace s.freeCtr % 2 ^ 32
  match ownBridge vb with
  | none => s.uspWord n a f
  | some v => s.bridgeWord n v a f

/-! ## Writes -/

/-- A host writes the function of its upstream port: the enables of error reporting, mask and severity of the Uncorrectable Internal
Error (Table 9.6 step 4), the clearing of its record, and the enabling of back-invalidate (R31). -/
def Chip.uspConfig (s : Chip) (p n a d : Nat) : Chip :=
  let x := s.vsw n
  if a = uspReg capPcie 8 then s.setVsw n { x with repNonfatal := bitAt d 1, repFatal := bitAt d 2 }
  else if a = uspReg capAer 4 then s.setVsw n { x with aerUie := x.aerUie && !bitAt d 22 }
  else if a = uspReg capAer 8 then s.setVsw n { x with aerMask := bitAt d 22 }
  else if a = uspReg capAer 0xC then s.setVsw n { x with aerFatal := bitAt d 22 }
  else if a = uspReg capBi 4 then (s.set F.CEL_PORT_STS.MEM_BI (b2n (bitAt d 1)) p).noteEligible p
  else s

/-- A host writes a bridge's own function. Of Slot Control only the interrupt enable changes (R117). -/
def bridgeConfig (a d : Nat) (b : Vppb) : Vppb :=
  if a = 0x18 then { b with secBus := bitsOf d 8 8, subBus := bitsOf d 16 8 }
  else if a = bridgeReg capPcie 0x18 then
    { b with hpie := bitAt d 5, pfd := b.pfd && !bitAt d 17, pdc := b.pdc && !bitAt d 19, dllsc := b.dllsc && !bitAt d 24 }
  else if a = bridgeReg capAer 4 then
    { b with aerSd := b.aerSd && !bitAt d 5, aerUr := b.aerUr && !bitAt d 20, aerAcs := b.aerAcs && !bitAt d 21
             aerUie := b.aerUie && !bitAt d 22 }
  else if a = bridgeReg capDpc 4 then { b with dpcCa := bitAt d 18 }
  else if a = bridgeReg capAcs 4 then { b with acs := bitsOf d 16 7 }
  else if a = bridgeReg capAcs 8 then { b with egressVec := putBits b.egressVec 0 32 d }
  else if a = bridgeReg capAcs 0xC then { b with egressVec := putBits b.egressVec 32 32 d }
  else b

/-- A configuration write of four bytes at offset `a`. -/
def Chip.cfgStore (s : Chip) (p n vb a d : Nat) : Chip :=
  match ownBridge vb with
  | none => s.uspConfig p n a d
  | some v => s.modVppb n v (bridgeConfig a d)

/-! ## Access control (R28, Table 2.3) -/

/-- A device's request carries a requester ID whose bus is not below its bridge, which validates sources. -/
def Vppb.badSource (b : Vppb) (rid : Nat) : Bool := bitAt b.acs 0 && !(decide (b.secBus ≤ rid / 256) && decide (rid / 256 ≤ b.subBus))

/-- Where a device's request for a device goes. -/
inductive Peer where
  | direct | upstream | blocked
  deriving DecidableEq, Repr

/-- A request that came through bridge `v`, whose record is `b`, for the target below bridge `w` (PRESUMED, log entry 21): upstream
forwarding, egress control, request redirect. -/
def Vppb.peer (b : Vppb) (v w : Nat) : Peer :=
  if v = w then (if bitAt b.acs 4 then .upstream else .direct)
  else if bitAt b.acs 5 then
    if !bitAt b.egressVec w then .direct else if bitAt b.acs 2 then .upstream else .blocked
  else if bitAt b.acs 2 then .upstream
  else .direct

end Sys2Proof.Machine
end

