-- ==== Sys2Proof/Machine/Arrival.lean ====
section
/-! DEFINITION. Messages that arrive at a port: what is malformed (R37), what is completed at the ingress region (R120, R130, R133,
R415, Table 4.6), what is forwarded, and the transmission of messages on egress links. -/

namespace Sys2Proof.Machine

/-! ## What may arrive -/

/-- Kinds that a partner may send, by the role of the port: from a host, from a device, and either on a trunk. -/
def kindOk (role : Nat) : MsgKind → Bool
  | .ioWr | .ioMsg | .ioRd | .ioAtomic _ _ | .cpl | .cplD => true
  | .ioMsi | .uioWr | .biSnpCur | .biSnpData | .biSnpInv | .d2hReq | .d2hRsp | .d2hData | .cmp | .cmpS | .cmpE | .memData
  | .biConflictAck => decide (role ≠ 1)
  | .cfgRd | .cfgWr | .ioPortRd | .ioPortWr | .memRd | .memRdData | .memInv | .memSpecRd | .memWr | .memWrPtl | .biConflict
  | .biRspI | .biRspS | .biRspE | .h2dReq | .h2dRsp | .h2dData => decide (role ≠ 2)

/-- The link of port `p` carries the protocol of a message (Tables 2.2 and 2.4): CXL.mem where it runs CXL, CXL.cache where that is
in use, and on no trunk. -/
def Chip.protoOk (s : Chip) (p : Nat) (k : MsgKind) : Bool :=
  match mcOf k with
  | 0 | 1 | 2 => true
  | 9 | 10 | 11 => s.is F.CEL_PORT_STS.CACHE_ACTIVE p && decide (s.role p ≠ 3)
  | _ => s.is F.CEL_PORT_STS.CXL_ACTIVE p

/-- Tags of requests have 14 bits in flit mode, 10 bits outside it (Table 2.3); a virtual hierarchy has 16 Cache IDs (Table 2.2). -/
def Chip.idsOk (s : Chip) (p : Nat) (m : MsgIn) : Bool :=
  (decide (mcOf m.kind ≠ 1) || decide (m.tag < if s.flitMode p then 2 ^ 14 else 2 ^ 10)) &&
    (decide (mcOf m.kind < 9) || decide (m.cacheId < 16))

/-- Operand sizes of AtomicOps in PCI Express: 4 or 8 bytes, and 16 for CAS, aligned to the size; CAS carries two operands. -/
def atomicOk (m : MsgIn) : Bool :=
  match m.kind with
  | .ioAtomic op size =>
    (decide (size = 4) || decide (size = 8) || (decide (op = .cas) && decide (size = 16))) && decide (m.addr % size = 0) &&
      decide (m.len = if op = .cas then 2 * size else size)
  | _ => true

/-- A message that R37 calls malformed: as its sender's link layer finds it, or of a kind, a length, an identifier or an operand that
the protocols of the link do not give. The payload is 512 bytes at most (Table 2.3). -/
def Chip.malformedIn (s : Chip) (p : Nat) (m : MsgIn) : Bool :=
  m.malformed || !kindOk (s.role p) m.kind || !s.protoOk p m.kind || !s.idsOk p m || decide (m.data.length ≠ m.len) ||
    decide (m.len > 512) || !atomicOk m

/-- Access that a request needs (Table 7.2): 0 read, 1 write, 2 read and write. -/
def accessOf : MsgKind → Nat
  | .memWr | .memWrPtl | .ioWr | .uioWr | .ioMsi => 1
  | .memInv | .ioAtomic _ _ => 2
  | _ => 0

/-- Bytes that a request reads. -/
def readBytes (m : MsgIn) : Nat :=
  match m.kind with
  | .memRd | .memRdData => 64
  | k => (cplBytes k m.want).getD 0

/-- Virtual switch number of a request that belongs to none. -/
def noInst : Nat := 64

/-! ## Requests -/

/-- The open request that an arriving request would be: of virtual switch `n`, through bridge `v`. -/
def Chip.reqOf (s : Chip) (p : Nat) (m : MsgIn) (n v : Nat) : OpenReq :=
  { id := 0, region := p / 16, epoch := s.epCur, initiator := p, inst := n, vb := v
    kind := m.kind, tag := m.tag, rport := p, dest := 0, ld := m.ld, addr := m.addr, dpa := m.addr, want := m.want
    start := s.time, rd := readBytes m, wr := m.len }

/-- The message that an arriving one becomes, at the end of the ingress queue of port `p`. -/
def Chip.msgOf (s : Chip) (p : Nat) (m : MsgIn) (n v : Nat) : Msg :=
  { id := 0, kind := m.kind, src := p, iport := some p, region := p / 16, inst := n, vb := v, tag := m.tag, addr := m.addr
    dpa := m.addr, ld := m.ld, len := m.len, data := m.data, poison := m.poison, status := m.status
    sc := s.classify p m.kind, ro := m.ro, ido := m.ido, rid := m.rid, want := m.want, longHdr := m.longHdr, tail := m.tail
    mv := m.mv, arrived := s.time, loc := .ingress p }

/-- A message completed or dropped at its ingress returns its credits at once. -/
def Chip.creditBack (s : Chip) (p : Nat) (m : MsgIn) : Chip := s.out (.credit p (mcOf m.kind) 1 m.len)

/-- The credits that the partner holds do not cover the message (R70): the pool refuses it and its reserve is full. -/
def Chip.overflows (s : Chip) (p : Nat) (m : MsgIn) : Bool :=
  let r := p / 16
  let q := s.msgs.filter (inIngress p (mcOf m.kind))
  decide ((q.map (·.shared)).sum + slotsOf m.len > threshold (s.alphaSc r (s.classify p m.kind)) (s.free r)) &&
    decide ((q.map (·.rsv)).sum + slotsOf m.len > s.ingressRsv p (mcOf m.kind))

/-- A MemWr or MemWrPtl of a member for a line that its port's region has recorded as snooped (R174). -/
def Chip.isSnooped (s : Chip) (p ga : Nat) (k : MsgKind) : Bool :=
  (decide (k = .memWr) || decide (k = .memWrPtl)) && s.snooped.contains (p, ga)

/-- The contract of a port tags and charges a message (R94), its buckets refilled for the edges that have passed. -/
def Chip.meter (s : Chip) (p : Nat) (m : Msg) (want : Nat) (snooped : Bool) : Chip × Msg :=
  if !s.meters p m.kind then (s, m)
  else
    let s := s.refills p
    let c := s.chargeOf p m.kind m.len want m.longHdr
    let com := snooped || decide (0 ≤ (s.port p).bMin)
    let s := s.modPort p (fun x => { x with
      bMin := if com then x.bMin - (c * 125 : Nat) else x.bMin
      bCap := if snooped then x.bCap - (c * 125 : Nat) else x.bCap })
    let s := if com then s else s.count (cntRegion (p / 16) 8)
    (s, { m with metered := true, committed := com, released := snooped, capCharged := snooped, charge := c })

/-- The release of a message as it arrives (R94): it is charged to cap, and goes where no earlier one waits and cap is at or above 0
after that. `none` where it must wait. -/
def Chip.releaseNow (s : Chip) (p : Nat) (m : Msg) : Option Chip :=
  if m.released then some s
  else if s.msgs.any (fun x => x.unreleased p) || (s.port p).capHeld || decide ((s.port p).bCap < (m.charge * 125 : Nat)) then none
  else some (s.modPort p (fun x => { x with bCap := x.bCap - (m.charge * 125 : Nat) }))

/-- A message for port `d` is in its region's buffer. -/
def Chip.queuedFor (s : Chip) (d : Nat) : Bool :=
  s.msgs.any (fun x => decide (locRegion x.loc = some (d / 16)) && !x.spent &&
    ((decide (x.dest = d) && !x.toHome && x.refs.isEmpty) || x.refs.any (fun y => decide (y.port = d))))

/-- The block crossbar takes a message from its ingress cell to an egress cell of the same block past both queues (R14, R71): nothing
is queued for the port, and it holds link credit. -/
def Chip.mayCut (s : Chip) (p : Nat) (m : Msg) : Bool :=
  decide (blockOf p = blockOf m.dest) && !m.toHome && (s.remapped m).isNone && !s.queuedFor m.dest && s.egOpen m.dest m.sc &&
    s.hasCredit m.dest m && s.unfenced m

/-- A message arrives for its ingress queue: its fence recorded (R76), metered; sent on by the direct path, or admitted (R69), and
released if it may be. -/
def Chip.enqueue (s : Chip) (p : Nat) (m : Msg) (snooped : Bool) : Chip :=
  let m := { m with id := s.nextId, fence := s.fenceOf p m.dest m.kind m.ro m.ido m.rid }
  let (s, m) := s.fresh.meter p m m.want snooped
  let s : Chip := { s with taken := true }
  match if s.mayCut p m then s.releaseNow p m else none with
  | some s => ((s.returnCredit m).handed m |>.sendOn m.dest m).onSent m
  | none =>
    let s := (s.admitIngress p m).release p
    match s.msg? m.id with
    | some y => if y.metered && !y.released then s.count (cntRegion (p / 16) 7) else s
    | none => s

/-- A message that was completed or dropped at its ingress returns its credits at once; one that a contract meters does so when its
contract releases it (R92, R94), until when it stays in the ingress queue. -/
def Chip.endAtIngress (s : Chip) (p : Nat) (m : MsgIn) : Chip :=
  if !s.meters p m.kind then s.creditBack p m
  else
    let (s, x) := s.fresh.meter p { s.msgOf p m noInst 0 with id := s.nextId, spent := true } m.want false
    match s.releaseNow p x with
    | some s => s.creditBack p m
    | none => (s.admitIngress p x).count (cntRegion (p / 16) 7)

/-- An accepted request: opened under the current epoch (R137), its message enqueued. -/
def Chip.openAnd (s : Chip) (p : Nat) (o : OpenReq) (m : Msg) (snooped : Bool) : Chip :=
  let id := s.nextId
  let s := ({ s with opens := s.opens ++ [{ o with id := id }] }).fresh
  s.enqueue p { m with opn := id } snooped

/-- A request for a port: completed as Table 4.6 states where the port is down or in quarantine, forwarded otherwise, as is an access
to an extent that has a remap entry (R20). -/
def Chip.toPort (s : Chip) (p : Nat) (o : OpenReq) (m : Msg) (d ld dpa pbr : Nat) : Chip :=
  let o := { o with dest := d, ld := ld, dpa := dpa }
  let m := { m with dest := d, ld := ld, dpa := dpa, pbr := pbr }
  if (s.isDown d || s.inQuarantine d) && (s.remapped m).isNone then s.complete46 (p / 16) o else s.openAnd p o m false

/-- A request that access control blocks (PRESUMED, log entry 21): the bridge logs a violation; a non-posted one gets Completer Abort. -/
def Chip.acsBlock (s : Chip) (p : Nat) (o : OpenReq) : Chip :=
  let s := s.aerLog o.inst o.vb .acs
  if isPosted o.kind then s else s.respond (p / 16) o .cpl [] false cplCA true

/-- A request for a target, through whichever port reaches it. -/
def Chip.toTarget (s : Chip) (p : Nat) (o : OpenReq) (m : Msg) (t : Tgt) (dpa : Nat) : Chip :=
  match s.tgtPort t with
  | some d => s.toPort p o m d t.ld dpa t.pbr
  | none => s.complete46 (p / 16) o

/-- A bridge that drains, is squashed, is held in reset, or whose restored access has not taken effect: its requests are completed
as toward a down port (R111, R112). -/
def Chip.bridgeHeld (s : Chip) (n v : Nat) : Bool :=
  let st := s.fld F.VCS_VPPB_STS.STATE n v
  (decide (3 ≤ st) && decide (st ≤ 5)) || (decide (st = 2) && !(s.vppb n v).reach && (s.vppb n v).binding.isNone)

/-- The bridge of `n` to which the target of address `a` is bound, 64 for none. -/
def Chip.bridgeFor (s : Chip) (n a : Nat) : Nat :=
  match s.findWin n a with
  | some w =>
    let (t, _) := interleave ((waysOf w.iw).getD 1) ((granOf w.ig).getD 256) (a - w.lo)
    if w.isGrove then noInst else (s.boundBy n (w.tgt t)).getD noInst
  | none => noInst

/-- A denied request (R133). -/
def Chip.deny (s : Chip) (p : Nat) (o : OpenReq) (reason : Nat) : Chip :=
  (s.recordDeny (p / 16) p o.inst reason (accessOf o.kind) o.addr).completeDenied (p / 16) o

/-- A request of a host or of another member completed as denied with REASON 1, without the fault (R149): the grove is not
Standing, or the member is not joined or is leaving. -/
def Chip.groveRefuse (s : Chip) (p : Nat) (o : OpenReq) : Chip :=
  (s.noteDeny (p / 16) p o.inst 1 (accessOf o.kind) o.addr).completeDenied (p / 16) o

/-- A member may use a grove (R149, R167, R168): Standing, joined, and neither it nor the grove is on the way out. -/
def Chip.memberMay (s : Chip) (g n : Nat) : Bool :=
  decide (s.gst g = gStanding) && bitAt (s.joined g) n && !s.is F.GRV_STS.DISSOLVING g &&
    !s.gjobs.any (fun j => decide (j.grove = g) && (decide (j.inst = some n) || j.inst.isNone))

/-- Messages that a home slice takes. -/
def homeKind : MsgKind → Bool
  | .memRd | .memRdData | .memInv | .memSpecRd | .memWr | .memWrPtl | .ioAtomic _ _ => true
  | _ => false

/-- Completion in a Felling or Felled grove (Table 9.7) of a request that has not left its ingress region. -/
def Chip.answer97 (s : Chip) (r : Nat) (o : OpenReq) : Chip :=
  match o.kind with
  | .memRd | .memRdData => (s.respond r o .memData (zeros 64) true 0 true).respond r o .cmp [] false 0 true
  | .memInv | .memWr | .memWrPtl => s.respond r o .cmp [] false 0 true
  | .ioAtomic _ _ => s.respond r o .cpl [] false cplUR true
  | _ => s

/-- A member's request in a grove window (R152): `off` is its offset in the fabric window. CXL.io reads and writes have no
meaning at a home slice: DESIGN CHOICE (log entry 23), they are refused in the form of Table 7.3. -/
def Chip.groveRequest (s : Chip) (p n g gw off : Nat) (o : OpenReq) (m : Msg) : Chip :=
  let ga := s.gaBase g gw + off
  let line := ga / 64 * 64
  let walked := s.isSnooped p line m.kind
  if s.gFell g then s.answer97 (p / 16) o
  else if !homeKind m.kind then s.groveRefuse p o
  else if !(s.memberMay g n) && !(walked && decide (s.gst g = gStanding) && bitAt (s.members g) n) then s.groveRefuse p o
  else
    s.openAnd p { o with grove := some (g, gw), dest := 0 }
      { m with addr := ga, grove := some (g, gw), toHome := true, toNode := homeOf ga } walked

/-- A request decoded by the windows of virtual switch `n` (R130). `dev` is the bridge it came through, for a device, whose access
control decides on requests for another device. -/
def Chip.windowed (s : Chip) (p n : Nat) (dev : Option Nat) (o : OpenReq) (m : Msg) : Chip :=
  let o := { o with vb := dev.getD (s.bridgeFor n m.addr) }
  match s.check n dev.isSome (accessOf m.kind) m.addr with
  | .deny reason =>
    let v := s.bridgeFor n m.addr
    if reason = 2 ∧ v < 64 ∧ s.bridgeHeld n v = true then s.complete46 (p / 16) { o with vb := v } else s.deny p o reason
  | .grove g gw off => s.groveRequest p n g gw off o m
  | .target t v dpa =>
    match dev.elim Peer.direct (fun w => (s.vppb n w).peer w v) with
    | .direct => s.toTarget p { o with vb := dev.getD v } { m with vb := v } t dpa
    | .upstream => s.toPort p o m (s.usp n) o.ld m.addr 0
    | .blocked => s.acsBlock p o

/-! ## Configuration requests of a host -/

/-- A configuration request to one of the chip's own functions (R101). -/
def Chip.ownConfig (s : Chip) (p n : Nat) (o : OpenReq) (m : MsgIn) : Chip :=
  if m.vb ≠ 64 ∧ (m.vb < 128 ∨ (ownBridge m.vb).getD 0 ≥ s.vppbCount n) then s.respond (p / 16) o .cpl [] false cplUR true
  else match m.kind with
    | .cfgWr => (s.cfgStore p n m.vb m.addr (natOfBytes m.data)).respond (p / 16) o .cpl [] false cplSC true
    | .cfgRd => s.useFree.respond (p / 16) o .cplD (bytesOfNat 4 (s.cfgWord n m.vb m.addr)) false cplSC true
    | .ioMsg => s
    | _ => s.respond (p / 16) o .cpl [] false cplUR true

/-- A host's request routed by ID to the target below a bridge: configuration requests as Table 6.5 gives while a Secondary Bus Reset
is set and until it is complete, others as toward a down port while the bridge is held. -/
def Chip.byId (s : Chip) (p n : Nat) (o : OpenReq) (m : MsgIn) : Chip :=
  let r := p / 16
  let x := s.vppb n m.vb
  let cfg := decide (m.kind = .cfgRd) || decide (m.kind = .cfgWr)
  let refuse (st : Nat) : Chip := match m.kind with
    | .ioMsg => s
    | .h2dReq => s.complete46 r o
    | _ => s.respond r o .cpl [] false st true
  if m.vb ≥ 64 then (match m.kind with
    | .h2dReq => s.complete46 r o
    | _ => s.ownConfig p n o m)
  else if m.vb ≥ s.vppbCount n ∨ (cfg && x.sbr) = true then refuse cplUR
  else if cfg && x.crs then refuse cplCRS
  else if s.bridgeHeld n m.vb then s.complete46 r o
  else if x.reach = false then refuse cplUR
  else s.toTarget p o (s.msgOf p m n m.vb) (s.bound n m.vb) m.addr

/-! ## Responses -/

/-- A completion that its device's bridge redirects upstream (Table 2.3): one of a device for another device, not relaxed in order. -/
def Chip.redirects (s : Chip) (p : Nat) (o : OpenReq) (m : MsgIn) : Option Nat :=
  match if s.role p = 2 then s.bindingOf p m.ld else none with
  | some (n, v) => if bitAt (s.vppb n v).acs 3 && decide (mcOf m.kind = 2) && !m.ro && decide (s.role o.rport = 2) then some (s.usp n) else none
  | none => none

/-- A response to an open request goes on to the requester, with the requester's tag; it has arrived at the switch. A redirected
completion goes to the host, whose own completion of the request is then awaited. -/
def Chip.answerOpen (s : Chip) (p : Nat) (o : OpenReq) (m : MsgIn) : Chip :=
  let s := s.modOpen o.id (fun o => { o with acked := true })
  if o.mute || s.isDown o.rport then
    if lastResponse o (s.msgOf p m o.inst o.vb) then s.delOpen o.id
    else s.modOpen o.id (fun o => o.note (s.msgOf p m o.inst o.vb))
  else match s.redirects p o m with
    | some u =>
      if s.isDown u then s.complete46 (p / 16) o
      else (s.modOpen o.id (fun o => { o with dest := u })).enqueue p { s.msgOf p m o.inst o.vb with
        tag := o.id, addr := o.addr, dpa := o.dpa, dest := u } false
    | none =>
      s.enqueue p { s.msgOf p m o.inst o.vb with
        tag := o.tag, addr := o.addr, dpa := o.dpa, dest := o.rport, ld := o.ld, opn := o.id } false

/-- A response to one of the chip's own requests: consumed at the region, or carried to the node that awaits it. -/
def Chip.answerInner (s : Chip) (p : Nat) (i : Inner) (m : MsgIn) : Chip :=
  match i.who with
  | .home _ | .felled _ =>
    s.enqueue p { s.msgOf p m noInst 0 with tag := i.id, addr := i.dpa, dpa := i.dpa, inn := i.id, toHome := true, toNode := i.node } false
  | .move _ _ _ =>
    s.enqueue p { s.msgOf p m noInst 0 with tag := i.id, addr := i.dpa, dpa := i.dpa, inn := i.id, toHome := true, toNode := hubNode } false
  | .mirror k _ => (s.innerAnswer (p / 16) i m.kind m.data m.poison m.status).mirrorErr k
  | _ => s.innerAnswer (p / 16) i m.kind m.data m.poison m.status

/-- A response is matched by its tag to a request forwarded to this port, or to one of the chip's own; D2H data also to the
device's request that its host has answered with a pull. One that nothing awaits is dropped. -/
def Chip.response (s : Chip) (p : Nat) (m : MsgIn) : Chip :=
  match s.opens.find? (fun o => decide (o.id = m.tag) && decide (o.dest = p) && o.sent && o.grove.isNone) with
  | some o => s.answerOpen p o m
  | none => match s.inners.find? (fun i => decide (i.id = m.tag) && decide (i.dest = p)) with
    | some i => s.answerInner p i m
    | none =>
      match m.kind, s.opens.find? (fun o => decide (o.kind = .d2hReq) && decide (o.rport = p) && decide (o.tag = m.tag)) with
      | .d2hData, some o =>
        if s.isDown o.dest then s
        else s.enqueue p { s.msgOf p m o.inst o.vb with tag := o.id, addr := o.addr, dpa := o.dpa, dest := o.dest, opn := o.id } false
      | _, _ => s

/-! ## By role -/

/-- A memory request of a host: its windows decode it; a PCI Express host has none (Table 2.4). -/
def Chip.hostMem (s : Chip) (p n : Nat) (m : MsgIn) : Chip :=
  if s.is F.CEL_PORT_STS.CXL_ACTIVE p then s.windowed p n none (s.reqOf p m n noInst) (s.msgOf p m n noInst)
  else s.deny p (s.reqOf p m n noInst) 0

/-- A BIConflict of a host follows its line: to the home slice, or to the device (R172). -/
def Chip.hostConflict (s : Chip) (p n : Nat) (m : MsgIn) : Chip :=
  match s.check n false 0 m.addr with
  | .grove g gw off =>
    let ga := s.gaBase g gw + off
    s.enqueue p { s.msgOf p m n noInst with addr := ga, grove := some (g, gw), toHome := true, toNode := homeOf ga } false
  | .target t v dpa =>
    (match s.tgtPort t with
    | some d => if s.isDown d then s else s.enqueue p { s.msgOf p m n v with dest := d, ld := t.ld, dpa := dpa, pbr := t.pbr } false
    | none => s)
  | .deny _ => s

/-- A BIRsp of a host answers a device's snoop that was sent to it, or a snoop of a home slice. -/
def Chip.hostBiRsp (s : Chip) (p n : Nat) (m : MsgIn) : Chip :=
  if s.opens.any (fun o => decide (o.id = m.tag) && decide (o.dest = p) && o.sent && decide (mcOf o.kind = 8)) then s.response p m
  else match s.findWin n m.addr with
    | some w =>
      if w.isGrove then
        let ga := s.gaBase w.grove w.gwin + (m.addr - w.lo)
        let s := { s with snooped := s.snooped.filter (fun y => decide (y ≠ (p, ga / 64 * 64))) }
        s.enqueue p { s.msgOf p m n noInst with
          addr := ga, grove := some (w.grove, w.gwin), toHome := true, toNode := homeOf ga } false
      else s
    | none => s

/-- A message of the host of an attached virtual switch `n`. -/
def Chip.fromHost (s : Chip) (p n : Nat) (m : MsgIn) : Chip :=
  match m.kind with
  | .memRd | .memRdData | .memInv | .memSpecRd | .memWr | .memWrPtl | .ioRd | .ioWr | .ioMsi | .ioAtomic _ _ => s.hostMem p n m
  | .cfgRd | .cfgWr | .ioPortRd | .ioPortWr | .ioMsg | .h2dReq => s.byId p n (s.reqOf p m n m.vb) m
  | .biRspI | .biRspS | .biRspE => s.hostBiRsp p n m
  | .biConflict => s.hostConflict p n m
  | _ => s.response p m

/-- A request of a device that goes to the host of its binding (R131); a device that is not bound, or whose bridge is held,
reaches nothing. -/
def Chip.toHost (s : Chip) (p : Nat) (m : MsgIn) (b : Option (Nat × Nat)) : Chip :=
  let r := p / 16
  match b with
  | none => s.complete46 r (s.reqOf p m noInst 0)
  | some (n, v) =>
    let o := s.reqOf p m n v
    if (s.vppb n v).reach = false || !s.is F.VCS_INST_STS.ATTACHED n then s.complete46 r o
    else s.toPort p o (s.msgOf p m n v) (s.usp n) m.ld m.addr 0

/-- A message of a device, bound as `b` says. Requests whose source its bridge does not accept are blocked. -/
def Chip.fromDevice (s : Chip) (p : Nat) (m : MsgIn) (b : Option (Nat × Nat)) : Chip :=
  let bad := match b with
    | some (n, v) => decide (mcOf m.kind ≤ 1) && (s.vppb n v).badSource m.rid
    | none => false
  let (n, v) := b.getD (noInst, 0)
  if bad then s.acsBlock p (s.reqOf p m n v)
  else match m.kind with
  | .ioRd | .ioWr | .uioWr | .ioAtomic _ _ =>
    if m.p2p || decide (m.kind = .uioWr) then
      if n = noInst ∨ (s.vppb n v).reach = false then s.complete46 (p / 16) (s.reqOf p m n v)
      else s.windowed p n (some v) (s.reqOf p m n v) (s.msgOf p m n v)
    else s.toHost p m b
  | .ioMsg | .ioMsi | .biSnpCur | .biSnpData | .biSnpInv | .d2hReq => s.toHost p m b
  | .biConflictAck =>
    if n = noInst ∨ s.isDown (s.usp n) = true then s else s.enqueue p { s.msgOf p m n v with dest := s.usp n } false
  | _ => s.response p m

/-- The virtual bridge bound to a device behind a trunk (type 3). -/
def Chip.boundPbr (s : Chip) (id : Nat) : Option (Nat × Nat) :=
  s.allBridges.find? (fun x => decide (s.bound x.1 x.2 = { type := 3, port := 0, ld := 0, pbr := id }))

/-- A message of a trunk partner (R32): a response to a request of ours; a message of a device bound here; or a request for the port
that its identifier leads to. A packet with an identifier that the routing table does not hold is completed with an error
(Table 2.6). -/
def Chip.fromTrunk (s : Chip) (p : Nat) (m : MsgIn) : Chip :=
  let b := s.boundPbr m.spid
  if s.pbr.get 0 m.spid = 0 ∨ s.pbr.get 0 m.pbr = 0 then
    let (n, v) := b.getD (noInst, 0)
    let s := s.cellFault p 12 clsP
    if isRequest m.kind then s.completeDenied (p / 16) (s.reqOf p m n v) else s
  else if b.isSome && (isRequest m.kind || decide (m.kind = .biConflictAck)) then s.fromDevice p m b
  else if !isRequest m.kind then s.response p m
  else s.toPort p (s.reqOf p m noInst 0) (s.msgOf p m noInst 0) (s.pbr.get 0 m.pbr - 1) m.ld m.addr m.pbr

/-- A request of a host whose port no attached virtual switch names (R415): the form of Table 7.3, uncounted. -/
def Chip.fromNobody (s : Chip) (p : Nat) (m : MsgIn) : Chip :=
  if isRequest m.kind then s.completeDenied (p / 16) (s.reqOf p m noInst 0) else s

/-- The virtual switch and the bridge that a request of port `p` belongs to, 64 for none. -/
def Chip.homeBridge (s : Chip) (p : Nat) (m : MsgIn) : Nat × Nat :=
  match s.role p with
  | 1 => (match s.attachedOf p with
    | some n => (n, match m.kind with
      | .cfgRd | .cfgWr | .ioPortRd | .ioPortWr | .ioMsg | .h2dReq => m.vb
      | _ => s.bridgeFor n m.addr)
    | none => (noInst, noInst))
  | 2 => (s.bindingOf p m.ld).getD (noInst, noInst)
  | _ => (s.boundPbr m.spid).getD (noInst, noInst)

/-- A malformed message (R37): class P; a request that its header identifies is completed, anything else dropped. -/
def Chip.malformedArrival (s : Chip) (p : Nat) (m : MsgIn) : Chip :=
  let s := (s.count (cntCell p 14)).cellFault p 3 clsP
  let (n, v) := s.homeBridge p m
  if m.decodable && isRequest m.kind then s.completeDenied (p / 16) (s.reqOf p m n v) else s

/-- A message to a port in quarantine (R120): completed as toward a down port, or discarded. -/
def Chip.quarantined (s : Chip) (p : Nat) (m : MsgIn) : Chip :=
  let s := (s.bump F.VCS_PORT_ADM.QUAR_DISCARDS 1 p).count (cntCell p 13)
  if isRequest m.kind then s.complete46 (p / 16) (s.reqOf p m noInst 0) else s

/-- A further message arrives on a port: the tails before it have arrived and passed. -/
def Chip.tailsIn (s : Chip) (p : Nat) : Chip :=
  { s with
    msgs := s.msgs.map (fun (m : Msg) => if m.iport = some p then { m with tail := true } else m)
    cuts := s.cuts.filter (fun c => decide (c.iport ≠ p)) }

/-- What a message that its port takes in does, by the port's role. -/
def Chip.byRole (s : Chip) (p : Nat) (m : MsgIn) : Chip :=
  match s.role p with
  | 1 => (match s.attachedOf p with
    | some n => s.fromHost p n m
    | none => s.fromNobody p m)
  | 2 => s.fromDevice p m (s.bindingOf p m.ld)
  | _ => s.fromTrunk p m

/-- The end of an arrival: a message that went to no queue and to no link has ended at its ingress. -/
def Chip.settleArrival (s : Chip) (p : Nat) (m : MsgIn) : Chip :=
  if s.taken then { s with taken := false } else s.endAtIngress p m

/-- INGRESS_MESSAGE_ARRIVAL (R69). -/
def arrival (p : Nat) (m : MsgIn) (s : Chip) : Chip :=
  let x := s.port p
  if !x.up || x.flushing || decide (s.role p = 0) then s
  else
  let s := s.tailsIn p
  if s.inQuarantine p then (s.quarantined p m).creditBack p m
  else if x.noTraffic then s
  else if s.malformedIn p m then (s.malformedArrival p m).endAtIngress p m
  else if s.overflows p m then protocolViolation p s
  else (({ s with taken := false } : Chip).byRole p m).settleArrival p m

/-! ## Egress -/

/-- Records of snooped lines in use in a region (GRV_SNOOP_TRACK.IN_USE). -/
def Chip.snoopTracks (s : Chip) (r : Nat) : Nat := (s.snooped.filter (fun x => decide (x.1 / 16 = r))).length

/-- A snoop of a home slice is at the head of a port's queue while every record of the region is in use (R174). -/
def Chip.trackFull (s : Chip) (p : Nat) : Bool :=
  (candidatesOf (s.egressQ p 0) []).any (fun m => !s.mayRecord p m)

/-- A chosen message waits for link credit alone. -/
def Chip.starved (s : Chip) (p : Nat) : Bool :=
  (List.range 12).any (fun sc => (candidatesOf (s.egressQ p sc) []).any (fun m => !s.hasCredit p m))

/-- What follows a message out (R174, R197): a snoop is recorded, a posted copy of the chip's own is complete. -/
def Chip.afterSent (s : Chip) (p : Nat) (m : Msg) : Chip :=
  let s := if mcOf m.kind = 8 ∧ m.txn ≠ 0 ∧ !s.snooped.contains (p, m.line) then { s with snooped := s.snooped ++ [(p, m.line)] } else s
  if m.inn ≠ 0 ∧ isRequest m.kind ∧ isPosted m.kind then (match s.inner? m.inn with
    | some i => s.innerAnswer (p / 16) i .cmp [] false 0
    | none => s)
  else s

/-- EGRESS_TRANSMIT (R73, R88, R89): the scheduler of port `p` sends one message, if one is eligible. -/
def egressTransmit (p : Nat) (s : Chip) : Chip :=
  let x := s.port p
  if !x.up || x.flushing || decide (s.role p = 0) then s
  else
    let s := if s.trackFull p then s.set F.GRV_SNOOP_TRACK.FULL_SEEN 1 (p / 16) else s
    let dry := s.starved p
    match s.transmit p with
    | (none, s) => if dry then s.count (cntCell p 12) else s
    | (some m, s) => s.afterSent p m

end Sys2Proof.Machine
end

