-- ==== Sys2Proof/Machine/Slots.lean ====
section
/-! DEFINITION. Slot power channels (spec/17_slot_power.md, R335 to R353, R403, R416). -/

namespace Sys2Proof.Machine

/-! ## State codes (Table 17.2) -/

def slDisabled : Nat := 0
def slAbsent : Nat := 1
def slQualify : Nat := 2
def slRamp : Nat := 3
def slCheck : Nat := 4
def slPowered : Nat := 5
def slRetry : Nat := 6
def slLatched : Nat := 7
def slPass : Nat := 8
def slSafe : Nat := 9

def Chip.slot (s : Chip) (k : Nat) : SlotX := s.slots.get {} k
def Chip.modSlot (s : Chip) (k : Nat) (f : SlotX → SlotX) : Chip := { s with slots := s.slots.set {} k (f (s.slot k)) }
def Chip.slSt (s : Chip) (k : Nat) : Nat := s.fld F.SLT_STS.STATE k
def Chip.setSl (s : Chip) (k st : Nat) : Chip := s.set F.SLT_STS.STATE st k
def Chip.slOn (s : Chip) (k : Nat) : Bool := s.is F.SLT_CTRL.EN k
def Chip.slPresent (s : Chip) (k : Nat) : Bool := s.is F.SLT_STS.PRESENT k

/-- The gate is commanded on: Ramp, Check, Powered. -/
def Chip.gateOn (s : Chip) (k : Nat) : Bool := decide (3 ≤ s.slSt k) && decide (s.slSt k ≤ 5)

/-! ## Clamps (the registers' field tables) -/

def Chip.slUV (s : Chip) (k : Nat) : Nat := clampTo 9000 11800 (s.fld F.SLT_VWIN.UV k)
def Chip.slOV (s : Chip) (k : Nat) : Nat := clampTo 12200 14000 (s.fld F.SLT_VWIN.OV k)
def Chip.slInsDelay (s : Chip) (k : Nat) : Nat := clampTo 10 1000 (s.fld F.SLT_TIMING.INS_DELAY k) * msT
def Chip.slRampTo (s : Chip) (k : Nat) : Nat := max 1 (s.fld F.SLT_TIMING.RAMP_TO k) * msT
/-- FTIMER in µs. -/
def Chip.slFtimer (s : Chip) (k : Nat) : Nat := clampTo 10 5000 (s.fld F.SLT_LIMIT.FTIMER k) * 10

/-- The configuration that R336 refuses: current limit, sense voltage and temperature mode. -/
def slotBad (cls tmode rsh ilim : Nat) : Bool :=
  decide (ilim > (if cls = 1 then 6000 else 2500)) || decide (ilim * 10 * clampTo 50 10000 rsh > 20000000) ||
    (decide (cls = 0) && decide (tmode ≠ 0))

/-! ## Feeds (R337) -/

/-- The feed switches conduct while enabled, not in Pass fault, not held off, in window, and not in reverse. -/
def Chip.feeds (s : Chip) (k : Nat) : Chip :=
  let x := s.slot k
  let base := s.slOn k && decide (s.slSt k ≠ slPass) && !s.vinSnsBad
  let a := base && !s.is F.SLT_CTRL.FEED_A_OFF k && s.is F.SLT_STS.FEED_A_OK k && !x.revA
  let b := base && !s.is F.SLT_CTRL.FEED_B_OFF k && s.is F.SLT_STS.FEED_B_OK k && !x.revB
  (s.set F.SLT_STS.FEED_A_ON (b2n a) k).set F.SLT_STS.FEED_B_ON (b2n b) k

/-! ## Power-good and the ports of the block (R38, R344) -/

/-- Cells of block `k`. -/
def blockCells (k : Nat) : List Nat := rangeFrom (4 * k) 4

/-- Power-good given to the main die, or dropped: the CSB pins of slot-gated ports follow (R38). -/
def Chip.givePg (s : Chip) (k : Nat) (on : Bool) : Chip :=
  if s.is F.SLT_STS.PG k = on then s
  else
    let s := s.set F.SLT_STS.PG (b2n on) k
    let s := if on then s else s.count (cntSlot k 2)
    foldl' (blockCells k) (fun c s =>
      (s.modPort c (fun x => { x with pgSince := if on then some s.time else none })).driveCsb c) s

/-- Ports of the block that an admission event of its slot concerns (R118). -/
def Chip.blockPorts (s : Chip) (k : Nat) : List Nat :=
  (blockCells k).filter (fun c => decide (s.role c = 1) || decide (s.role c = 2))

/-- Ports out of service for a cause enter Training (Table 6.8); a change of the slot's presence is one of its slot-gated ports. -/
def Chip.readmit (s : Chip) (k cause : Nat) : Chip :=
  foldl' ((s.blockPorts k).filter (s.is F.CEL_PORT_CFG.SLOT_GATED ·)) (fun p s =>
    if (s.adm p = admOos ∧ s.fld F.VCS_PORT_ADM.OOS_CAUSE p = cause) ∨ (cause = 3 ∧ s.adm p = admFailed) then s.startTraining p
    else s) s

/-- Gate off: power-good low in the same sample, timers at rest. -/
def Chip.gateOff (s : Chip) (k : Nat) : Chip :=
  let s := (s.givePg k false).set F.SLT_STS.CLA 0 k
  s.modSlot k (fun x => { x with ft := 0, rampAt := none, pgAt := none, powAt := none, insAt := none, ready := false, tripAt := none })

/-- Absent, or Qualify if presence is asserted; the insertion timer starts when VIN is in window. -/
def Chip.toQualify (s : Chip) (k : Nat) : Chip :=
  let s := s.modSlot k (fun x => { x with
    insAt := if s.slPresent k && x.vinOk && !s.vinSnsBad then some s.time else none, ready := false })
  (s.setSl k (if s.slPresent k then slQualify else slAbsent)).feeds k

/-! ## Trips (R345, R351) -/

/-- Chip source bit 14 (R351). -/
def Chip.slotFault (s : Chip) (k : Nat) : Chip :=
  (s.wr .FLT_SLOT_SRC 0 0 (w32 (setBit (s.rd .FLT_SLOT_SRC).toNat k))).chipFault 14 clsP

/-- The ports of the block go out of service (R118), cause 4. -/
def Chip.slotOos (s : Chip) (k : Nat) : Chip := foldl' (s.blockPorts k) (fun p s => s.outOfService p 4) s

/-- Power Fault Detected in the bridges bound to the block's ports (R117). -/
def Chip.slotPfd (s : Chip) (k : Nat) : Chip :=
  foldl' (s.blockPorts k) (fun p s =>
    foldl' (s.bindingsOf p) (fun b s =>
      let s := s.modVppb b.1 b.2 (fun x => { x with pfd := true })
      if (s.vppb b.1 b.2).hpie then s.hotPlug b.1 b.2 else s) s) s

/-- A trip: gate off, counted, retried while RETRIES is below RETRY_MAX, else latched. -/
def Chip.trip (s : Chip) (k cause : Nat) : Chip :=
  let s := (s.gateOff k).set F.SLT_STS.CAUSE cause k
  let s := (s.bump F.SLT_EVT.TRIPS 1 k).count (cntSlot k 0)
  let n := s.fld F.SLT_STS.RETRIES k
  let s := if n < s.fld F.SLT_CTRL.RETRY_MAX k then
      ((s.set F.SLT_STS.RETRIES (n + 1) k).setSl k slRetry).modSlot k (fun x => { x with tripAt := some s.time })
    else s.setSl k slLatched
  ((s.slotFault k).slotPfd k).slotOos k

/-! ## Ramp -/

/-- No channel leaves Qualify or Retry wait for Ramp in safe state, nor while the main die is lost (R352). -/
def Chip.enterRamp (s : Chip) (k : Nat) : Chip :=
  if s.slotHold || (s.slot k).hot then s.modSlot k (fun x => { x with ready := true })
  else
    (s.setSl k slRamp).modSlot k (fun x => { x with rampAt := some s.time, insAt := none, ready := false, tripAt := none })

/-- A channel that has waited for the temperature or for safe state goes on. -/
def Chip.resumeRamp (s : Chip) (k : Nat) : Chip :=
  let x := s.slot k
  if x.ready && (decide (s.slSt k = slQualify) || decide (s.slSt k = slRetry)) && x.vinOk && s.slPresent k then s.enterRamp k else s

/-- The fault timer now (R341): it falls by 1 every 8 samples of 1 µs. -/
def Chip.ftNow (s : Chip) (k : Nat) : Nat := (s.slot k).ft - (s.time - (s.slot k).ftAt) / (8 * usT)

/-! ## Control writes (R335, R336) -/

/-- Enabling: the check of R336, domain on, Absent. -/
def Chip.slotTurnOn (s : Chip) (k : Nat) : Chip :=
  let s := ((s.setSl k slAbsent).set F.SLT_STS.PRESENT 0 k).modSlot k (fun x => { x with onAt := s.time, absentAt := none })
  s.feeds k

/-- Disabling: gate off, feeds off, retry count kept. -/
def Chip.slotTurnOff (s : Chip) (k : Nat) : Chip :=
  let s := ((s.gateOff k).set F.SLT_STS.PRESENT 0 k).setSl k slDisabled
  foldl' (s.blockPorts k) (fun p s => s.refreshBridges p) (s.feeds k)

/-- CLEAR (Table 17.2): out of Latched off and Pass fault; the retry count is cleared. -/
def Chip.slotClear (s : Chip) (k : Nat) : Chip :=
  let st := s.slSt k
  if st = slPass ∧ (s.slot k).voutHigh then s.set F.SLT_STS.CLEAR_REFUSED 1 k
  else
    let s := s.set F.SLT_STS.RETRIES 0 k
    if st = slLatched ∨ st = slPass then s.toQualify k else s

/-- A write of SLT_CTRL. -/
def slotCtrlWrite (k : Nat) (v : W) (s : Chip) : Chip :=
  let was := s.slOn k
  let now := bitAt v.toNat 0
  if !was && now && slotBad (s.fld F.SLT_CFG.CLASS k) (s.fld F.SLT_CFG.TMODE k) (s.fld F.SLT_SHUNT.RSH k) (s.fld F.SLT_LIMIT.ILIM k) then
    s.set F.SLT_STS.CFG_REFUSED 1 k
  else
    let s := s.wr .SLT_CTRL k 0 (w32 (accessWrite .SLT_CTRL false (s.rd .SLT_CTRL k).toNat v.toNat))
    let s := if bitAt v.toNat 30 then s.modSlot k (fun x => { x with energy := 0 }) else s
    let s := if !was && now then s.slotTurnOn k else if was && !now then s.slotTurnOff k else s.feeds k
    if bitAt v.toNat 31 then s.slotClear k else s

/-- SLOT_ENABLE and SLOT_DISABLE: the writes of SLT_CTRL that set EN and clear it. -/
def slotEnable (k : Nat) (v : W) (s : Chip) : Chip := slotCtrlWrite k (w32 (setBit v.toNat 0)) s
def slotDisable (k : Nat) (v : W) (s : Chip) : Chip := slotCtrlWrite k (w32 (clrBit v.toNat 0)) s

/-- SLOT_CLEAR and SLOT_ENERGY_CLEAR: CLEAR or ECLR written, the other fields as they are. `high`: VOUT is above 1.0 V. -/
def slotClearCmd (k : Nat) (high : Bool) (s : Chip) : Chip :=
  slotCtrlWrite k (w32 (setBit (clrBit (s.rd .SLT_CTRL k).toNat 30) 31)) (s.modSlot k (fun x => { x with voutHigh := high }))
def slotEnergyClear (k : Nat) (s : Chip) : Chip := slotCtrlWrite k (w32 (setBit (clrBit (s.rd .SLT_CTRL k).toNat 31) 30)) s

/-- SLOT_LIMIT_WRITE (R336). -/
def slotLimitWrite (k : Nat) (v : W) (s : Chip) : Chip :=
  if slotBad (s.fld F.SLT_CFG.CLASS k) (s.fld F.SLT_CFG.TMODE k) (s.fld F.SLT_SHUNT.RSH k) (v.toNat % 2 ^ 16) then
    s.set F.SLT_STS.CFG_REFUSED 1 k
  else s.wr .SLT_LIMIT k 0 (w32 (clampWord .SLT_LIMIT v.toNat))

/-- SLOT_CFG_WRITE (R336): SLT_CFG, or SLT_SHUNT where `shunt`, only while Disabled. -/
def slotCfgWrite (k : Nat) (shunt : Bool) (v : W) (s : Chip) : Chip :=
  if s.slSt k ≠ slDisabled then s.set F.SLT_STS.CFG_REFUSED 1 k
  else
    let n : RName := if shunt then .SLT_SHUNT else .SLT_CFG
    s.wr n k 0 (w32 (accessWrite n false (s.rd n k).toNat v.toNat))

/-! ## Presence (R339, R346) -/

/-- SLOT_PRESENCE_ASSERTED. -/
def slotPresent (k : Nat) (s : Chip) : Chip :=
  let x := s.slot k
  if !s.slOn k || s.slPresent k || decide (s.time < x.onAt + 20 * usT) then s
  else
    let long := match x.absentAt with
      | some t => decide (t + 250 * msT ≤ s.time)
      | none => false
    let s := (s.set F.SLT_STS.PRESENT 1 k).count (cntSlot k 3)
    let s := if s.slSt k = slAbsent then
        (if long then s.set F.SLT_STS.RETRIES 0 k else s).modSlot k (fun x => { x with absentAt := none }) |>.toQualify k
      else s
    let s := foldl' (s.blockPorts k) (fun p s => s.refreshBridges p) s
    s.readmit k 3

/-- SLOT_PRESENCE_LOST: gate off, the pending retry cancelled, the slot-gated ports of the block out of service. -/
def slotAbsent (k : Nat) (s : Chip) : Chip :=
  if !s.slOn k || !s.slPresent k then s
  else
    let st := s.slSt k
    let s := (s.set F.SLT_STS.PRESENT 0 k).count (cntSlot k 3)
    let s := if 2 ≤ st ∧ st ≤ 6 then
        ((s.gateOff k).setSl k slAbsent).modSlot k (fun x => { x with absentAt := some s.time })
      else s
    let s := foldl' (s.blockPorts k) (fun p s => s.refreshBridges p) s
    foldl' (s.blockPorts k) (fun p s =>
      if !s.is F.CEL_PORT_CFG.SLOT_GATED p then s
      else if s.adm p = admFailed then s.startTraining p
      else s.outOfService p 3) s

/-! ## The input window (R338, R403) -/

/-- VIN leaves the window, or cannot be relied on: gate off with cause 9, not a trip; or the insertion timer stops. -/
def Chip.vinLeave (s : Chip) (k : Nat) : Chip :=
  let st := s.slSt k
  if 3 ≤ st ∧ st ≤ 5 then ((s.gateOff k).set F.SLT_STS.CAUSE 9 k).setSl k slQualify
  else if st = slQualify then s.modSlot k (fun x => { x with insAt := none, ready := false })
  else if st = slRetry ∧ (s.slot k).ready then (s.modSlot k (fun x => { x with tripAt := none, ready := false })).setSl k slQualify
  else s

/-- VIN is back: the insertion timer restarts in full. -/
def Chip.vinEnter (s : Chip) (k : Nat) : Chip :=
  if s.slSt k = slQualify ∧ s.slPresent k = true ∧ s.vinSnsBad = false then
    s.modSlot k (fun x => { x with insAt := some s.time, ready := false })
  else s

/-- SLOT_VIN_LEAVE_WINDOW: the input reads `mv`, outside the window, in 5 samples. -/
def slotVinLeave (k : Nat) (i : VinInput) (mv : Nat) (s : Chip) : Chip :=
  if !s.slOn k || (decide (s.slUV k ≤ mv) && decide (mv ≤ s.slOV k)) then s
  else match i with
    | .vin => (s.modSlot k (fun x => { x with vinOk := false })).vinLeave k
    | .feedA => (s.set F.SLT_STS.FEED_A_OK 0 k).feeds k
    | .feedB => (s.set F.SLT_STS.FEED_B_OK 0 k).feeds k

/-- SLOT_VIN_ENTER_WINDOW: the input reads `mv`, inside the window by the hysteresis of 100 mV. -/
def slotVinEnter (k : Nat) (i : VinInput) (mv : Nat) (s : Chip) : Chip :=
  if !s.slOn k || decide (mv < s.slUV k + 100) || decide (mv + 100 > s.slOV k) then s
  else match i with
    | .vin => if (s.slot k).vinOk then s else (s.modSlot k (fun x => { x with vinOk := true })).vinEnter k
    | .feedA => (s.set F.SLT_STS.FEED_A_OK 1 k).feeds k
    | .feedB => (s.set F.SLT_STS.FEED_B_OK 1 k).feeds k

/-- SLOT_FEED_REVERSE: the drop of a feed falls below -5 mV, or its supply is ahead again. -/
def slotFeedReverse (k : Nat) (b reversed : Bool) (s : Chip) : Chip :=
  if !s.slOn k then s
  else (s.modSlot k (fun x => if b then { x with revB := reversed } else { x with revA := reversed })).feeds k

/-- VIN_SNS_OUT_OF_RANGE: every enabled channel acts as for VIN leaving its window (R403). -/
def vinSnsOut (mv : Nat) (s : Chip) : Chip :=
  if (8500 ≤ mv ∧ mv ≤ 14500) ∨ s.vinSnsBad = true then s
  else
    let s := { s with vinSnsBad := true }
    foldl' ((List.range 32).filter s.slOn) (fun k s => (s.vinLeave k).feeds k) s

/-- VIN_SNS_RECOVER. -/
def vinSnsRecover (mv : Nat) (s : Chip) : Chip :=
  if mv < 9000 ∨ mv > 14000 ∨ s.vinSnsBad = false then s
  else
    let s := { s with vinSnsBad := false }
    foldl' ((List.range 32).filter s.slOn) (fun k s => (if (s.slot k).vinOk then s.vinEnter k else s).feeds k) s

/-! ## The sequence to Powered -/

/-- SLOT_INSERTION_DELAY_EXPIRE. -/
def slotInsertion (k : Nat) (s : Chip) : Chip :=
  let x := s.slot k
  match x.insAt with
  | none => s
  | some t =>
    if s.slSt k ≠ slQualify ∨ !s.slPresent k ∨ !x.vinOk ∨ s.time < t + s.slInsDelay k then s else s.enterRamp k

/-- SLOT_FULL_ENHANCEMENT (R416): the count of R343 starts. -/
def slotFull (k : Nat) (s : Chip) : Chip :=
  if s.slSt k ≠ slRamp then s
  else (s.setSl k slCheck).modSlot k (fun x => { x with
    rampAt := none, pgAt := if s.is F.SLT_STS.CLA k then none else some s.time })

/-- SLOT_RAMP_TIMEOUT. -/
def slotRampTimeout (k : Nat) (s : Chip) : Chip :=
  match (s.slot k).rampAt with
  | some t => if s.slSt k = slRamp ∧ t + s.slRampTo k ≤ s.time then s.trip k 4 else s
  | none => s

/-- The fault timer starts, and rises by `n` samples. -/
def Chip.limitFor (s : Chip) (k n : Nat) : Chip :=
  let f := s.ftNow k
  let s := if f = 0 ∧ n ≠ 0 then (s.bump F.SLT_EVT.LIMITS 1 k).count (cntSlot k 1) else s
  if n = 0 then s
  else (s.set F.SLT_STS.CLA 1 k).modSlot k (fun x => { x with ft := f + n, ftAt := s.time, pgAt := none })

/-- SLOT_LIMIT_ACT (R341): the limit acts in `n` control samples. -/
def slotLimitAct (k n : Nat) (s : Chip) : Chip := if s.gateOn k then s.limitFor k n else s

/-- SLOT_FAULT_TIMER_EXPIRE. -/
def slotTimerExpire (k : Nat) (s : Chip) : Chip :=
  if s.gateOn k && s.is F.SLT_STS.CLA k && decide (s.slFtimer k ≤ s.ftNow k) then s.trip k 1 else s

/-- SLOT_FAULT_TIMER_ZERO: CLA clears, power-good can count again. -/
def slotTimerZero (k : Nat) (s : Chip) : Chip :=
  if s.is F.SLT_STS.CLA k && decide (s.ftNow k = 0) then
    (s.set F.SLT_STS.CLA 0 k).modSlot k (fun x => { x with ft := 0, pgAt := if s.slSt k = slCheck then some s.time else x.pgAt })
  else s

/-- SLOT_PG_QUALIFIED (R343): 1,000 samples; withheld where the timer starts in the sample that completes them. -/
def slotPgQualified (k : Nat) (timerStarts : Bool) (s : Chip) : Chip :=
  match (s.slot k).pgAt with
  | none => s
  | some t =>
    if s.slSt k ≠ slCheck ∨ s.time < t + 1000 * usT then s
    else if timerStarts then (s.set F.SLT_STS.PG_WITHHELD 1 k).limitFor k 1
    else
      let s := (s.setSl k slPowered).modSlot k (fun x => { x with powAt := some s.time, pgAt := none })
      (s.givePg k true).readmit k 4

/-- SLOT_FAST_TRIP (R342). -/
def slotFastTrip (k : Nat) (s : Chip) : Chip := if s.gateOn k then s.trip k 2 else s

/-- The channel acts on a temperature (R348). -/
def Chip.slTemp (s : Chip) (k : Nat) : Bool := decide (s.fld F.SLT_CFG.CLASS k = 1) && decide (s.fld F.SLT_CFG.TMODE k ≠ 0)

/-- SLOT_TEMP_TRIP: the temperature acted on reaches TJ_MAX. -/
def slotTempTrip (k : Nat) (s : Chip) : Chip :=
  if !s.slOn k || !s.slTemp k then s
  else
    let s := s.modSlot k (fun x => { x with hot := true })
    if s.gateOn k then s.trip k 3 else s

/-- SLOT_TEMP_BELOW_TJMAX. -/
def slotTempBelow (k : Nat) (s : Chip) : Chip := (s.modSlot k (fun x => { x with hot := false })).resumeRamp k

/-- SLOT_DIODE_FAULT: cause 6, latched without a retry. -/
def slotDiode (k : Nat) (s : Chip) : Chip :=
  if s.gateOn k && s.slTemp k && decide (s.fld F.SLT_CFG.TMODE k % 2 = 1) then
    ((((s.gateOff k).set F.SLT_STS.CAUSE 6 k).setSl k slLatched).slotFault k).slotOos k
  else s

/-- SLOT_VOUT_LOST: below PG_MIN for 20 samples, the fault timer not running; in Check the count of R343 restarts. -/
def slotVoutLost (k : Nat) (s : Chip) : Chip :=
  if s.is F.SLT_STS.CLA k then s
  else if s.slSt k = slPowered then s.trip k 5
  else if s.slSt k = slCheck then s.modSlot k (fun x => { x with pgAt := some s.time })
  else s

/-- SLOT_RETRY_EXPIRE: 1 s after the trip. -/
def slotRetry (k : Nat) (s : Chip) : Chip :=
  match (s.slot k).tripAt with
  | none => s
  | some t =>
    if s.slSt k ≠ slRetry ∨ s.time < t + secT then s
    else if (s.slot k).vinOk && !s.vinSnsBad then s.enterRamp k
    else (s.modSlot k (fun x => { x with tripAt := none })).setSl k slQualify

/-- SLOT_POWERED_60S (R345). -/
def slotPowered60 (k : Nat) (s : Chip) : Chip :=
  match (s.slot k).powAt with
  | some t => if s.slSt k = slPowered ∧ t + 60 * secT ≤ s.time then s.set F.SLT_STS.RETRIES 0 k else s
  | none => s

/-- SLOT_PASS_FAULT (R347): VOUT above 1.0 V for 50 ms with the gate off. -/
def slotPassFault (k : Nat) (s : Chip) : Chip :=
  let st := s.slSt k
  if st = slDisabled ∨ st = slPass ∨ s.gateOn k = true then s
  else
    let s := (s.gateOff k).modSlot k (fun x => { x with voutHigh := true })
    (((s.set F.SLT_STS.CAUSE 7 k).setSl k slPass).feeds k).slotFault k

/-! ## Safe state and the loss of the main die (R352) -/

/-- Table 14.7: gates turn off where FLT_SAFE_SLOT says so; the others hold their state. -/
def Chip.slotsSafe (s : Chip) : Chip :=
  let s := { s with slotHold := true }
  foldl' ((List.range 32).filter (fun k => decide (s.slSt k ≠ slDisabled) && bitAt (s.rd .FLT_SAFE_SLOT).toNat k))
    (fun k s => (s.gateOff k).setSl k slSafe) s

/-- Safe state is left: channels in Safe off start again, channels that were held go on. -/
def Chip.slotsLeave (s : Chip) : Chip :=
  let s := { s with slotHold := false }
  foldl' (List.range 32) (fun k s => if s.slSt k = slSafe then s.toQualify k else s.resumeRamp k) s

/-! ## Measurement (R349, R350) -/

/-- Power of a sample in µW: VIN × current (R349). A current out of the slot makes it negative, as SLT_MEAS_I is in two's complement:
DESIGN CHOICE (log entry 137). -/
def slotPower (ma : W) (vin : Nat) : Int := vin * ma.toInt

/-- An energy, in 10 pJ, with the power of a sample over 10 µs added; it wraps at 2^64 µJ (R349). -/
def addEnergy (e : Nat) (x : W × Nat) : Nat := ((e + slotPower x.1 x.2) % (2 ^ 64 * 100000 : Nat)).toNat

/-- A sample is taken while EN is 1: MEAS_I, V, VF, P, TEMP as the registers hold them; its energy and that of the samples before it,
back to the latest read, are added. MW is rounded down (log entry 137). -/
def Chip.slotSample (s : Chip) (k : Nat) (m : SlotSample) : Chip :=
  if !s.slOn k then s
  else
    let tm := s.fld F.SLT_CFG.TMODE k
    let temp := match m.temp with
      | some t => if s.slTemp k then 2 ^ 31 + (if 2 ≤ tm then 2 ^ 30 else 0) + t % 2 ^ 16 else 0
      | none => 0
    s.modSlot k (fun x => { x with
      voutHigh := decide (m.vout > 1000)
      energy := foldl' (m.before ++ [(m.ma, m.vin)]) (fun y e => addEnergy e y) x.energy
      meas := [m.ma.toNat, m.vout % 2 ^ 16 * 2 ^ 16 + m.vin % 2 ^ 16, m.vfb % 2 ^ 16 * 2 ^ 16 + m.vfa % 2 ^ 16,
               (BitVec.ofInt 32 (slotPower m.ma m.vin / 1000)).toNat, temp] })

/-- The values that a read of SLT_MEAS_I latches: current, V, VF, P, TEMP, energy low and high. -/
def Chip.measNow (s : Chip) (k : Nat) : List Nat :=
  let x := s.slot k
  if s.slOn k then (List.range 5).map (fun i => x.meas.getD i 0) ++ [x.energy / 100000 % 2 ^ 32, x.energy / 100000 / 2 ^ 32] else List.replicate 7 0

end Sys2Proof.Machine
end

