-- ==== Sys2Proof/Machine/Faults.lean ====
section
/-! DEFINITION. Live sources, passing upward, clearing and the fault log (R273, R287, R290, R292), the FAIL test and the
heartbeat (R285, R286), as spec/14_fault_handling.md gives them. -/

namespace Sys2Proof.Machine

/-! ## Live sources (Tables 14.2 to 14.5) -/

/-- A mask with the bits whose condition holds. -/
def maskIf (l : List (Nat × Bool)) : Nat := maskOf ((l.filter (·.2)).map (·.1))

/-- A temperature of 16 bits in two's complement, in 1/16 °C. -/
def tempOf (v : Nat) : Int := if v % 65536 < 32768 then (v % 65536 : Nat) else (v % 65536 : Nat) - (65536 : Int)

/-- A sensor's latest sample is above `c` °C (R329). -/
def Chip.hotter (s : Chip) (c : Nat) : Bool :=
  (List.range 10).any (fun i => s.is F.PWR_TEMP.VALID i && decide (tempOf (s.fld F.PWR_TEMP.TEMP i) > 16 * (c : Int)))

/-- Warning threshold (FLT_CFG). -/
def Chip.thermWarn (s : Chip) : Nat := clampTo 100 140 (s.fld F.FLT_CFG.THERM_WARN)

/-- Children of a collector, with their child bits. -/
def childrenOf (c : Nat) : List (Nat × Nat) :=
  if c < 128 then []
  else if c < 160 then (List.range 4).map (fun i => (4 * (c - 128) + i, 16 + i))
  else if c < 168 then (List.range 4).map (fun i => (128 + 4 * (c - 160) + i, 16 + i))
  else (List.range 8).map (fun i => (160 + i, 16 + i))

/-- Sources of a collector whose cause persists, whether or not the record holds them. -/
def Chip.causes (s : Chip) (c : Nat) : Nat :=
  let kids := maskIf ((childrenOf c).map (fun x => (x.2, s.is F.FLT_REC_STS.OPEN x.1)))
  if c < 128 then
    maskIf [(1, s.is F.CEL_LINK_STS.RATE_DOWN c), (4, s.is F.CEL_PORT_STS.CFG_ERROR c), (8, (s.port c).noTraffic),
      (9, decide (s.role c = 3) && (s.port c).csbLow), (10, decide (s.adm c = admFailed)),
      (11, (s.port c).isoViol && decide (s.adm c = admOos)), (13, (s.port c).isoQual && decide (s.adm c = admOos))]
  else if c < 160 then kids
  else if c < 168 then
    kids ||| maskIf [(9, s.is F.PWR_DROOP_STS.SLOWED (c - 160)), (10, s.is F.PWR_DROOP_STS.SLOWED (c - 160))]
  else
    kids ||| maskIf [
      (2, decide (s.fld F.IMG_STS.STATE = 2) || decide (s.fld F.IMG_STS.STATE = 3)),
      (8, s.is F.ECC_DMA_STS.HALT_A || s.is F.ECC_DMA_STS.HALT_B || (List.range 16).any (fun m => s.is F.MOV_CH_STS.HALTED m)),
      (11, !s.pw.rails.isEmpty), (12, s.hotter 140), (13, s.hotter s.thermWarn),
      (14, (List.range 32).any (fun k => bitAt (s.rd .FLT_SLOT_SRC).toNat k &&
        (decide (s.slSt k = slRetry) || decide (s.slSt k = slLatched) || decide (s.slSt k = slPass))))]

/-- FLT_REC_LIVE: bits of the record whose cause persists. -/
def Chip.liveBits (s : Chip) (c : Nat) : Nat := (s.rd .FLT_REC_SRC c).toNat &&& s.causes c

/-! ## Passing upward (R273) -/

/-- FAULT_RECORD_PROPAGATE: the changed record of a collector reaches its parent as a child bit. The error itself has been acted on
where it was detected (R275). -/
def recordPropagate (c : Nat) (s : Chip) : Chip :=
  if !s.unpassed.contains c then s
  else
    let f := s.fatal
    let s : Chip := { s with unpassed := s.unpassed.filter (fun x => decide (x ≠ c)) }
    match parentOf c with
    | none => s
    | some (p, bit) =>
      let t := s.raise p bit (s.fld F.FLT_REC_STS.CLASS c)
      { t with fatal := f }

/-! ## Clearing (R287, R290, R292) -/

/-- A closed record is written to the next entry of the log (R290). -/
def Chip.logRecord (s : Chip) (c : Nat) : Chip :=
  let n := s.fld F.FLT_LOG_PTR.NEXT
  let w0 := s.fld F.FLT_REC_STS.CLASS c * 2 ^ 30 + s.fld F.FLT_REC_STS.MERGED c * 2 ^ 16 + c
  let s := ((s.wr .FLT_LOG n 0 (w32 w0)).wr .FLT_LOG n 1 (s.rd .FLT_REC_SRC c))
  let s := (s.wr .FLT_LOG n 2 (s.rd .FLT_REC_TIME_HI c)).wr .FLT_LOG n 3 (s.rd .FLT_REC_TIME_LO c)
  let s : Chip := { s with badWords := s.badWords.filter (fun x => !(decide (x.1 = 4) && decide (x.2 / 4 = n))) }
  let s := s.set F.FLT_LOG_PTR.NEXT ((n + 1) % 64)
  if n = 63 then s.set F.FLT_LOG_PTR.WRAPPED 1 else s

/-- A record is closed: its fields read their reset values; REFUSED is software's to clear. -/
def Chip.closeRecord (s : Chip) (c : Nat) : Chip :=
  let s := ((s.set F.FLT_REC_STS.OPEN 0 c).set F.FLT_REC_STS.CLASS 0 c).set F.FLT_REC_STS.MERGED 0 c
  let s := s.wr .FLT_REC_SRC c 0 0
  let s := (s.wr .FLT_REC_TIME_LO c 0 0).wr .FLT_REC_TIME_HI c 0 0
  let s : Chip := { s with unpassed := s.unpassed.filter (fun x => decide (x ≠ c)) }
  let s := if c = chipCollector then s.wr .FLT_SLOT_SRC 0 0 0 else s
  match parentOf c with
  | some (p, bit) => s.wr .FLT_REC_SRC p 0 (w32 (clrBit (s.rd .FLT_REC_SRC p).toNat bit))
  | none => s

/-- A clear of one collector's record: the result code of R292. -/
def Chip.clearRecord (s : Chip) (c : Nat) : Chip × Nat :=
  if !s.is F.FLT_REC_STS.OPEN c then (s, 2)
  else if s.liveBits c ≠ 0 then ((s.set F.FLT_REC_STS.REFUSED 1 c).count (cntChip 5), 1)
  else ((s.logRecord c).closeRecord c, 0)

/-- FLT_REC_CLEAR: a write of FLT_REC_CTRL.CLEAR. -/
def recClear (c : Nat) (s : Chip) : Chip := (s.clearRecord c).1

/-- Clearing every collector in one pass, cells first: records cleared and refused. -/
def Chip.clearAll (s : Chip) : Chip × Nat × Nat :=
  (List.range 169).foldl (fun (x : Chip × Nat × Nat) c =>
    match x.1.clearRecord c with
    | (s, 0) => (s, x.2.1 + 1, x.2.2)
    | (s, 1) => (s, x.2.1, x.2.2 + 1)
    | (s, _) => (s, x.2.1, x.2.2)) (s, 0, 0)

/-- The body of FAULT_CLEAR: the state and the two words of its reply. -/
def Chip.faultClear (s : Chip) (c : Nat) : Chip × List Nat :=
  if c = 0xFF then
    let (t, n, m) := s.clearAll
    (t, [(if m ≠ 0 then 1 else if n = 0 then 2 else 0) + n * 2 ^ 16, m])
  else if c > 168 then (s, [3, 0])
  else
    let live := s.liveBits c
    match s.clearRecord c with
    | (t, 0) => (t, [0 + 2 ^ 16, 0])
    | (t, r) => (t, [r, if r = 1 then live else 0])

/-! ## The FAIL pair and the heartbeat (R285, R286) -/

/-- A write of FLT_CFG. -/
def fltCfgWrite (v : W) (s : Chip) : Chip :=
  let s := s.wr .FLT_CFG 0 0 (w32 (accessWrite .FLT_CFG false (s.rd .FLT_CFG).toNat v.toNat))
  if bitAt v.toNat 31 then
    let s : Chip := { s with failTest := some s.time }
    s.driveFail
  else s

/-- FAIL_TEST: FLT_CFG written with FAIL_TEST = 1, its other fields as they are. -/
def failTest (s : Chip) : Chip := fltCfgWrite (w32 (setBit (s.rd .FLT_CFG).toNat 31)) s

/-- FAIL_TEST_END: 10 ms after the write. -/
def failTestEnd (s : Chip) : Chip :=
  match s.failTest with
  | none => s
  | some t =>
    if s.time < t + 10 * msT then s
    else
      let s : Chip := { s with failTest := none }
      s.driveFail

/-- HEARTBEAT_LOSS: no toggle for 1.5 µs, while the check is not suspended. -/
def heartbeatLoss (s : Chip) : Chip :=
  if s.beatLost || !s.started || s.pw.dormant then s
  else
    let s : Chip := { s with beatLost := true, dieLost := true }
    s.driveFail.slotsSafe

/-- HEARTBEAT_RETURN: chip source bit 10, class F; safe state follows. -/
def heartbeatReturn (s : Chip) : Chip :=
  if !s.beatLost then s
  else
    let s : Chip := { s with beatLost := false }
    s.chipFault 10 clsF

end Sys2Proof.Machine
end

