-- ==== Sys2Proof/Machine/Ecc.lean ====
section
/-! DEFINITION. Stored data: the merge buffers (R297, R298), scrubbing (R302 to R305), halted DMA engines (R300), and errors of
the region buffer and of the block crossbars (R299), as spec/15_stored_data_protection.md gives them. -/

namespace Sys2Proof.Machine

/-! ## Narrow writes (R297, R298) -/

/-- Hub cluster of a buffer: management SRAM 0, Ethernet DMA buffers 2. -/
def bufCluster (dma : Bool) : Nat := if dma then 2 else 0

/-- The array's bytes, and storing one. -/
def Chip.bufByte (s : Chip) (dma : Bool) (a : Nat) : Byte := if dma then tget (0 : Byte) s.dmaRam a else s.ramByte a
def Chip.setBufByte (s : Chip) (dma : Bool) (a : Nat) (v : Byte) : Chip :=
  if dma then { s with dmaRam := tput natLt (0 : Byte) s.dmaRam a v } else s.setRamByte a v

/-- Bytes stored at successive addresses, those that are given. -/
def Chip.setBuf (s : Chip) (dma : Bool) (a : Nat) : List (Option Byte) → Chip
  | [] => s
  | b :: bs =>
    let s := match b with
      | some v => s.setBufByte dma a v
      | none => s
    s.setBuf dma (a + 1) bs

/-- A word of 64 bits reads as uncorrectable, is written poisoned (R296), or holds good data again. -/
def Chip.isBad (s : Chip) (dma : Bool) (w : Nat) : Bool := s.badWords.contains (bufCluster dma, w)
def Chip.markBad (s : Chip) (c w : Nat) : Chip :=
  if s.badWords.contains (c, w) then s else { s with badWords := s.badWords ++ [(c, w)] }
def Chip.markGood (s : Chip) (c w : Nat) : Chip := { s with badWords := s.badWords.filter (fun x => decide (x ≠ (c, w))) }

/-- The entry of a word. -/
def Chip.mergeOf (s : Chip) (dma : Bool) (w : Nat) : Option MergeEntry :=
  s.merge.find? (fun e => decide (e.dma = dma) && decide (e.word = w))

/-- An entry is flushed: read, merged, recoded, written; poisoned where the stored word is uncorrectable. -/
def Chip.flushEntry (s : Chip) (e : MergeEntry) (bad : Bool) : Chip :=
  let s : Chip := { s with merge := s.merge.filter (fun x => !(decide (x.dma = e.dma) && decide (x.word = e.word))) }
  let s := s.count (cntCpx 7)
  let lost := bad || s.isBad e.dma e.word
  let s := s.setBuf e.dma (8 * e.word) e.bytes
  if lost then (s.eccUncorr 8 (bufCluster e.dma) e.word).markBad (bufCluster e.dma) e.word else s

/-- The word's entry, if it has one, is flushed. -/
def Chip.flushWord (s : Chip) (dma : Bool) (w : Nat) (bad : Bool) : Chip :=
  match s.mergeOf dma w with
  | some e => s.flushEntry e bad
  | none => s

/-- Every entry of a buffer is flushed, the oldest first. -/
def Chip.flushAll (s : Chip) (dma : Bool) : Chip :=
  foldl' (s.merge.filter (fun e => decide (e.dma = dma))) (fun e s => s.flushEntry e false) s

/-- Bytes written into an entry from offset `o`. -/
def mergeBytes (old : List (Option Byte)) (o : Nat) (data : List Byte) : List (Option Byte) :=
  (List.range 8).map (fun i => if o ≤ i ∧ i < o + data.length then data[i - o]? else (old.getD i none))

/-- A write of 1, 2, 4 or 8 bytes at its natural alignment. -/
def Chip.bufWrite (s : Chip) (dma : Bool) (a : Nat) (data : List Byte) : Chip :=
  let w := a / 8
  match s.mergeOf dma w with
  | some e =>
    let b := mergeBytes e.bytes (a % 8) data
    let e := { e with bytes := b }
    let s : Chip := { s with merge := s.merge.filter (fun x => !(decide (x.dma = dma) && decide (x.word = w))) ++ [e] }
    if b.all (·.isSome) then s.flushEntry e false else s
  | none =>
    if data.length = 8 then (s.setBuf dma a (data.map some)).markGood (bufCluster dma) w
    else
      let mine := s.merge.filter (fun e => decide (e.dma = dma))
      let s := match mine with
        | e :: _ => if mine.length ≥ 8 then s.flushEntry e false else s
        | [] => s
      { s with merge := s.merge ++ [{ dma := dma, word := w, bytes := mergeBytes [] (a % 8) data }] }

/-- A read flushes the word's entry first: the bytes, and whether the word is uncorrectable. -/
def Chip.bufRead (s : Chip) (dma : Bool) (a n : Nat) : Chip × List Byte × Bool :=
  let s := s.flushWord dma (a / 8) false
  (s, (rangeFrom a n).map (s.bufByte dma), s.isBad dma (a / 8))

/-- SRAM_NARROW_WRITE. -/
def narrowWrite (dma : Bool) (a : Nat) (data : List Byte) (s : Chip) : Chip := s.bufWrite dma a data

/-- MERGE_BUFFER_FLUSH: one of the conditions of R297 holds for the word's entry; `bad` tells what the read found. -/
def mergeFlush (dma : Bool) (w : Nat) (bad : Bool) (s : Chip) : Chip := s.flushWord dma w bad

/-! ## Scrubbing (R302 to R305) -/

/-- Words of a cluster (Table 15.1); 0 for a cluster that the block does not have. -/
def clusterWords (blk c : Nat) : Nat :=
  if blk < 8 then [262144, 524288, 147456, 98304, 65536, 32768].getD c 0 else [524288, 65536, 16384, 9088, 1024].getD c 0

/-- Domain of a cluster: its own domain's number (R312). -/
def clusterDom (blk c : Nat) : Nat :=
  if blk < 8 then (if c = 1 ∨ c = 2 then homeDom blk else regionDom blk)
  else if c = 1 then 177 else if c = 2 then 178 else 176

def Chip.scrubOf (s : Chip) (blk c : Nat) : Option Scrub := s.scrubs.find? (fun x => decide (x.blk = blk) && decide (x.c = c))
def Chip.delScrub (s : Chip) (blk c : Nat) : Chip :=
  { s with scrubs := s.scrubs.filter (fun x => !(decide (x.blk = blk) && decide (x.c = c))) }

/-- A write of ECC_SCRUB_CTRL; SCRUB_START is one with START = 1. -/
def scrubCtrlWrite (blk c : Nat) (v : W) (s : Chip) : Chip :=
  let i := 16 * blk + c
  let s := s.wr .ECC_SCRUB_CTRL i 0 (w32 (accessWrite .ECC_SCRUB_CTRL false (s.rd .ECC_SCRUB_CTRL i).toNat v.toNat))
  if !bitAt v.toNat 31 then s
  else
    let last := min (s.fld F.ECC_SCRUB_END.LAST i) (clusterWords blk c - 1)
    let first := s.fld F.ECC_SCRUB_CTRL.FIRST i
    if last < first ∨ (s.scrubOf blk c).isSome = true then s.set F.ECC_SCRUB_RES.REFUSED 1 i
    else
      let s := ((s.wr .ECC_SCRUB_CNT i 0 0).wr .ECC_SCRUB_FIRST i 0 0).wr .ECC_SCRUB_LAST i 0 0
      let s := ((s.set F.ECC_SCRUB_RES.DONE 0 i).set F.ECC_SCRUB_RES.ABORTED 0 i).set F.ECC_SCRUB_RES.BUSY 1 i
      { s with scrubs := s.scrubs ++ [{ blk := blk, c := c, next := first, last := last, since := s.time }] }

/-- SCRUB_START. -/
def scrubStart (blk c : Nat) (v : W) (s : Chip) : Chip := scrubCtrlWrite blk c (w32 (setBit v.toNat 31)) s

/-- What a corrected word brings beside its counts (R294). -/
def Chip.scrubFixed (s : Chip) (blk c ix : Nat) : Chip :=
  if blk < 8 ∧ c = 1 then s.snfFixed blk
  else
    let s := s.eccCorr blk c
    if blk < 8 ∧ c = 0 then s.regionFault blk 2 clsC
    else if blk < 8 ∧ c = 5 then s.raise (blockCollector (4 * blk + ix / 8192)) 1 clsC
    else s

/-- What an uncorrectable word brings (R304). -/
def Chip.scrubLost (s : Chip) (blk c ix : Nat) (stuck : Bool) : Chip :=
  let s := s.eccUncorr blk c ix
  if blk < 8 then
    match c with
    | 1 =>
      let s := s.bump F.SNF_ERR.UNCORR 1 blk
      let set := ix / 16
      let way := ix % 16
      let s := if !stuck then s.setSnf blk set way {}
        else if s.fld F.SNF_RETIRE.COUNT blk < 256 then
          (s.setSnf blk set way { retired := true }).set F.SNF_RETIRE.COUNT (s.fld F.SNF_RETIRE.COUNT blk + 1) blk
        else (s.setSnf blk set way {}).set F.SNF_RETIRE.FULL 1 blk
      (s.regionFault blk 3 clsG).fellAll 6 blk
    | 0 => s.regionFault blk 1 clsC
    | 2 => s.regionFault blk 6 clsC
    | 5 => s.raise (blockCollector (4 * blk + ix / 8192)) 0 clsC
    | _ => s.regionFault blk 11 clsF
  else (s.markBad c ix).chipFault 8 clsC

/-- SCRUB_WORD: one word read; `err` 0 clean, 1 corrected, 2 uncorrectable, 3 uncorrectable and its read-back fails (R179); its
wait for the maintenance port in ns and the times it was preempted (R308, R309). -/
def scrubWord (blk c err waitNs restarts : Nat) (s : Chip) : Chip :=
  match s.scrubOf blk c with
  | none => s
  | some x =>
    if x.last < x.next then s
    else
      let i := 16 * blk + c
      let ix := x.next
      let s : Chip := { s with scrubs := s.scrubs.map (fun (y : Scrub) => if y.blk = blk ∧ y.c = c then { y with next := ix + 1 } else y) }
      let s := s.wr .ECC_MP_WAIT i 2 (w32 (max (s.rd .ECC_MP_WAIT i 2).toNat (min waitNs 0xFFFFFFFF)))
      let s := s.bump F.ECC_MP_STS.RESTARTS restarts i
      match err with
      | 0 => s
      | 1 => (s.bump F.ECC_SCRUB_CNT.CORR 1 i).scrubFixed blk c ix
      | e =>
        let s := s.bump F.ECC_SCRUB_CNT.UNCORR 1 i
        let s := if s.is F.ECC_SCRUB_FIRST.VALID i then s else s.wr .ECC_SCRUB_FIRST i 0 (w32 (2 ^ 31 + ix))
        (s.wr .ECC_SCRUB_LAST i 0 (w32 (2 ^ 31 + ix))).scrubLost blk c ix (decide (e = 3))

/-- The summary of a scrub that ends. -/
def Chip.scrubDone (s : Chip) (x : Scrub) (aborted : Bool) : Chip :=
  let i := 16 * x.blk + x.c
  let s := (s.set F.ECC_SCRUB_RES.BUSY 0 i).set F.ECC_SCRUB_RES.DONE 1 i
  let s := s.set F.ECC_SCRUB_RES.ABORTED (b2n aborted) i
  (s.wr .ECC_SCRUB_TIME i 0 (w32 (min ((s.time - x.since) / 16) 0xFFFFFFFF))).delScrub x.blk x.c

/-- SCRUB_END: the last word has been read. -/
def scrubEnd (blk c : Nat) (s : Chip) : Chip :=
  match s.scrubOf blk c with
  | none => s
  | some x => if x.next ≤ x.last then s else s.scrubDone x false

/-- A cluster's domain begins entry to a lower power state (R302). -/
def Chip.abortScrubs (s : Chip) (doms : List Nat) : Chip :=
  foldl' (s.scrubs.filter (fun x => doms.contains (clusterDom x.blk x.c))) (fun x s => s.scrubDone x true) s

/-! ## Halted DMA engines (R300) -/

/-- The Ethernet DMA engine of port `e` halts. -/
def Chip.haltDma (s : Chip) (e : Nat) : Chip :=
  (if e = 0 then s.set F.ECC_DMA_STS.HALT_A 1 else s.set F.ECC_DMA_STS.HALT_B 1).chipFault 8 clsC

def Chip.dmaHalted (s : Chip) (e : Nat) : Bool := if e = 0 then s.is F.ECC_DMA_STS.HALT_A else s.is F.ECC_DMA_STS.HALT_B

/-- DMA_HALT_CLEAR: a write of ECC_DMA_STS. -/
def dmaHaltClear (v : W) (s : Chip) : Chip :=
  s.wr .ECC_DMA_STS 0 0 (w32 (accessWrite .ECC_DMA_STS false (s.rd .ECC_DMA_STS).toNat v.toNat))

/-! ## The region buffer and the block crossbars (R299, Tables 14.3 and 14.4) -/

/-- INGRESS_TO_EGRESS_MOVE with what the codes report as the message leaves its queue: 0 no error, 1 and 2 a corrected and an
uncorrectable word of the region buffer, 3 and 4 of the block crossbar. An uncorrectable flit is poisoned. -/
def ingressMoveEcc (id ecc : Nat) (s : Chip) : Chip :=
  match s.msg? id with
  | none => s
  | some m =>
    match m.loc with
    | .ingress p =>
      let r := p / 16
      let t := match ecc with
        | 1 => (s.eccCorr r 0).regionFault r 2 clsC
        | 2 => ((s.eccLost r 0).regionFault r 1 clsC).modMsg id (fun m => { m with poison := true })
        | 3 => (s.eccCorr r 5).raise (blockCollector (p / 4)) 1 clsC
        | 4 => ((s.eccLost r 5).raise (blockCollector (p / 4)) 0 clsC).modMsg id (fun m => { m with poison := true })
        | _ => s
      let t := ingressMove id t
      match t.msg? id with
      | some m' => if m'.loc = m.loc then s else t
      | none => t
    | _ => s

end Sys2Proof.Machine
end

