-- ==== Sys2Proof/Machine/Flash.lean ====
section
/-! DEFINITION. The configuration image (spec/13_configuration_image_and_startup.md): flash pages, the word code and the page code
(R252 to R255), the header and the sections (R256, R257, R262), the signature (R258) and the full check of a slot (R259). -/

namespace Sys2Proof.Machine

/-! ## Flash (R251, Table 13.1) -/

/-- An erased page. -/
def blankPage : List Byte := List.replicate 4096 0xFF

def Chip.page (s : Chip) (n : Nat) : List Byte := s.flash.get blankPage n
def Chip.setPage (s : Chip) (n : Nat) (p : List Byte) : Chip := { s with flash := s.flash.set blankPage n p }

/-- First page and pages of an area. -/
def areaBase (a : Nat) : Nat := 4096 * a
def areaPages (a : Nat) : Nat := if a < 2 then 4096 else if a = 2 then 2 else 0

/-- Numbers from bytes as an image holds them: big-endian. -/
def beNat (l : List Byte) : Nat := l.foldl (fun n b => 256 * n + b.toNat) 0
def beAt (l : List Byte) (o n : Nat) : Nat := beNat ((l.drop o).take n)

/-! ## The word code (R253) -/

/-- The 16-bit values with three bits set, ascending; the first 150 are the columns of the covered bits. -/
def codeColumns : List Nat :=
  ((List.range 16).flatMap (fun c => (List.range c).flatMap (fun b => (List.range b).map (fun a => 2 ^ a + 2 ^ b + 2 ^ c)))).take 150

/-- The covered bits: data, then the word address. -/
def coveredBits (data : List Byte) (addr : Nat) : List Bool :=
  data.flatMap (fun b => (List.range 8).map (bitAt b.toNat)) ++ (List.range 22).map (bitAt addr)

def wordCode (data : List Byte) (addr : Nat) : Nat :=
  ((coveredBits data addr).zip codeColumns).foldl (fun x p => if p.1 then x ^^^ p.2 else x) 0

/-- What the check of a word finds: good, corrected with a data bit inverted, or failed. -/
inductive WordCheck where
  | good
  | corrected (bit : Nat)
  | failed
  deriving DecidableEq, Repr

def checkWord (data : List Byte) (addr stored : Nat) : WordCheck :=
  let syn := stored ^^^ wordCode data addr
  if syn = 0 ∨ ((List.range 16).map (2 ^ ·)).contains syn = true then .good
  else match (codeColumns.take 128).findIdx? (fun c => decide (c = syn)) with
    | some i => .corrected i
    | none => .failed

/-- Data bytes with one bit inverted. -/
def flipBit (data : List Byte) (i : Nat) : List Byte :=
  data.modify (i / 8) (fun b => b ^^^ BitVec.ofNat 8 (2 ^ (i % 8)))

/-- The words of a page: its data bytes, words corrected, and whether one failed. -/
structure PageCheck where
  data : List Byte := []
  fixed : Nat := 0
  failed : Bool := false
  deriving DecidableEq, Repr

def checkPage (n : Nat) (p : List Byte) : PageCheck :=
  (List.range 224).foldl (fun (r : PageCheck) w =>
    let d := (p.drop (18 * w)).take 16
    match checkWord d (224 * n + w) (beAt p (18 * w + 16) 2) with
    | .good => { r with data := r.data ++ d }
    | .corrected i => { r with data := r.data ++ flipBit d i, fixed := r.fixed + 1 }
    | .failed => { r with data := r.data ++ d, failed := true }) {}

/-! ## The page code (R254): GF(2^12) with x^12 + x^6 + x^4 + x + 1 -/

def gfMulN : Nat → Nat → Nat → Nat → Nat
  | 0, _, _, acc => acc
  | n + 1, a, b, acc =>
    let a2 := 2 * a
    gfMulN n (if a2 < 4096 then a2 else a2 ^^^ 0x1053) (b / 2) (if b % 2 = 1 then acc ^^^ a else acc)
def gfMul (a b : Nat) : Nat := gfMulN 12 a b 0

def gfPow (a : Nat) : Nat → Nat
  | 0 => 1
  | n + 1 => gfMul a (gfPow a n)

/-- The inverse: a^(2^12 - 2). -/
def gfInv (a : Nat) : Nat :=
  ((List.range 11).foldl (fun (p : Nat × Nat) _ =>
    let t := gfMul p.1 p.1
    (t, gfMul p.2 t)) (a, 1)).2

/-- α. -/
def gfAlpha : Nat := 2

/-- A polynomial, lowest coefficient first, at a point. -/
def polyAt (p : List Nat) (x : Nat) : Nat := p.foldr (fun c acc => c ^^^ gfMul acc x) 0
def polyAdd : List Nat → List Nat → List Nat
  | [], q => q
  | p, [] => p
  | a :: p, b :: q => (a ^^^ b) :: polyAdd p q
def polyScale (k : Nat) (p : List Nat) : List Nat := p.map (gfMul k)
def polyShift (n : Nat) (p : List Nat) : List Nat := List.replicate n 0 ++ p
def polyMul (p q : List Nat) : List Nat :=
  (p.zipIdx).foldl (fun acc x => polyAdd acc (polyShift x.2 (polyScale x.1 q))) []

/-- Symbols of 12 bits of a string of bytes, three bytes at a time. -/
def symbolsOf : List Byte → List Nat
  | a :: b :: c :: t => (a.toNat * 16 + b.toNat / 16) :: (b.toNat % 16 * 256 + c.toNat) :: symbolsOf t
  | _ => []
def bytesOfSymbols : List Nat → List Byte
  | a :: b :: t => BitVec.ofNat 8 (a / 16) :: BitVec.ofNat 8 (a % 16 * 16 + b / 256) :: BitVec.ofNat 8 b :: bytesOfSymbols t
  | _ => []

/-- The codeword of a page: 2,689 message symbols and 42 check symbols, from x^2730 down. -/
def pageSymbols (p : List Byte) : List Nat :=
  symbolsOf (p.take 4032) ++ [((p.getD 4095 0).toNat) * 16] ++ symbolsOf ((p.drop 4032).take 63)

/-- The page of a codeword. -/
def pageOfSymbols (c : List Nat) : List Byte :=
  bytesOfSymbols (c.take 2688) ++ bytesOfSymbols (c.drop 2689) ++ [BitVec.ofNat 8 (c.getD 2688 0 / 16)]

/-- The syndromes: the codeword at α^0 to α^41. -/
def syndromes (c : List Nat) : List Nat :=
  (List.range 42).map (fun j =>
    let x := gfPow gfAlpha j
    c.foldl (fun acc v => gfMul acc x ^^^ v) 0)

/-- The state of the search for the shortest recurrence of the syndromes: locator, the one before its latest growth, errors,
steps since, discrepancy then. -/
structure Locator where
  c : List Nat := [1]
  b : List Nat := [1]
  len : Nat := 0
  m : Nat := 1
  d : Nat := 1
  deriving DecidableEq, Repr

def locatorStep (syn : List Nat) (r : Locator) (n : Nat) : Locator :=
  let d := (List.range (r.len + 1)).foldl (fun acc i => acc ^^^ gfMul (r.c.getD i 0) (if i ≤ n then syn.getD (n - i) 0 else 0)) 0
  if d = 0 then { r with m := r.m + 1 }
  else
    let c := polyAdd r.c (polyShift r.m (polyScale (gfMul d (gfInv r.d)) r.b))
    if 2 * r.len ≤ n then { c := c, b := r.c, len := n + 1 - r.len, m := 1, d := d }
    else { r with c := c, m := r.m + 1 }

/-- Exponents of the shortened codeword at which the locator has a root, with the point's inverse. -/
def errorPlaces (c : List Nat) : List (Nat × Nat) :=
  let inv := gfInv gfAlpha
  ((List.range 2731).foldl (fun (p : Nat × List (Nat × Nat)) e =>
    (gfMul p.1 inv, if polyAt c p.1 = 0 then (e, p.1) :: p.2 else p.2)) (1, [])).2

/-- Derivative: the odd coefficients. -/
def polyDeriv (p : List Nat) : List Nat := (p.zipIdx.drop 1).map (fun x => if x.2 % 2 = 1 then x.1 else 0)

/-- The codeword within 21 symbol errors, if there is one (R254). -/
def rsDecode (c : List Nat) : Option (List Nat) :=
  let syn := syndromes c
  if syn.all (· = 0) then some c
  else
    let r := (List.range 42).foldl (locatorStep syn) {}
    let places := errorPlaces r.c
    if r.len > 21 ∨ places.length ≠ r.len then none
    else
      let om := (polyMul syn r.c).take 42
      let dv := polyDeriv r.c
      let fixed := places.foldl (fun (l : List Nat) p =>
        let y := gfMul (gfInv p.2) (gfMul (polyAt om p.2) (gfInv (polyAt dv p.2)))
        l.modify (2730 - p.1) (· ^^^ y)) c
      if (syndromes fixed).all (· = 0) ∧ fixed.getD 2688 0 % 16 = 0 then some fixed else none

/-- The page that the page code finds. -/
def decodePage (p : List Byte) : Option (List Byte) := (rsDecode (pageSymbols p)).map pageOfSymbols

/-! ## Reading a page (R255) -/

/-- The outcome: cause 0 for an accepted page, with its data bytes; words corrected; whether the page code decoded it. -/
structure PageRead where
  cause : Nat := 0
  data : List Byte := []
  version : Nat := 0
  fixed : Nat := 0
  decoded : Bool := false
  deriving DecidableEq, Repr

/-- `read_page`; for a header page the expected version is its own. -/
def readPage (n : Nat) (p : List Byte) (expected : Option Nat) : PageRead :=
  let v := (p.getD 4095 0).toNat
  let c := checkPage n p
  if !c.failed && (match expected with | some e => decide (e = v) | none => true) then
    { data := c.data, version := v, fixed := c.fixed }
  else match decodePage p with
    | none => { cause := 4, version := v, fixed := c.fixed }
    | some q =>
      let v := (q.getD 4095 0).toNat
      let d := checkPage n q
      let r : PageRead := { data := d.data, version := v, fixed := c.fixed + d.fixed, decoded := true }
      if d.failed then { r with cause := 5 }
      else if !(match expected with | some e => decide (e = v) | none => true) then { r with cause := 6 }
      else r

/-! ## Header and sections (R256, R257) -/

/-- A section entry (Table 13.4). -/
structure Section where
  type : Nat
  critical : Bool
  offset : Nat
  length : Nat
  deriving DecidableEq, Repr

/-- An image header (Table 13.3). -/
structure Header where
  level : Nat
  version : Nat
  seq : Nat
  rollback : Nat
  advance : Bool
  pages : Nat
  sections : List Section
  deriving DecidableEq, Repr

/-- Section entry `i`, and whether its reserved bits are 0. -/
def sectionAt (d : List Byte) (i : Nat) : Section × Bool :=
  let o := 32 + 16 * i
  let fl := beAt d (o + 2) 2
  ({ type := beAt d o 2, critical := bitAt fl 15, offset := beAt d (o + 4) 4, length := beAt d (o + 8) 4 },
    decide (fl % 2 ^ 15 = 0) && decide (beAt d (o + 12) 4 = 0))

/-- The header check of R256, in its order: the cause, or the header. -/
def parseHeader (d : List Byte) (version maxLevel : Nat) : Nat × Option Header :=
  let level := beAt d 6 1
  let n := beAt d 18 2
  let pages := beAt d 20 4
  if beAt d 0 4 ≠ 0x5652494D then (3, none)
  else if beAt d 4 2 ≠ 1 then (10, none)
  else if level = 0 ∨ maxLevel < level then (9, none)
  else if beAt d 16 1 > 64 ∨ n > 200 ∨ pages < 3 ∨ pages > 4096 then (11, none)
  else
    let es := (List.range n).map (sectionAt d)
    if beAt d 17 1 > 1 ∨ beAt d 24 8 ≠ 0 ∨ (es.all (·.2)) = false ∨ beNat (d.drop (32 + 16 * n)) ≠ 0 then (11, none)
    else (0, some { level := level, version := version, seq := beAt d 8 8, rollback := beAt d 16 1, advance := decide (beAt d 17 1 = 1)
                    pages := pages, sections := es.map (·.1) })

/-- The bytes of a section. -/
def Section.bytes (x : Section) (stream : List Byte) : List Byte := (stream.drop x.offset).take x.length

/-- Words of a section's bytes. -/
def beWords (l : List Byte) : List W := (wordsOfBytes l).map w32

/-- Entries of a GROVES section: the payloads that its length words delimit, none where they do not end at its end. -/
def groveEntries : Nat → List W → Option (List (List W))
  | _, [] => some []
  | 0, _ => none
  | f + 1, n :: ws =>
    if ws.length < n.toNat then none else (groveEntries f (ws.drop n.toNat)).map (fun t => ws.take n.toNat :: t)

/-- Types of Table 13.5. -/
def knownType (t : Nat) : Bool := decide (1 ≤ t) && decide (t ≤ 7)

/-- Placement and lengths (R257): within the stream, multiples of 4, no overlap. -/
def sectionsOk (h : Header) (stream : List Byte) : Bool :=
  let size := (h.pages - 2) * 3584
  h.sections.all (fun x => decide (x.offset % 4 = 0) && decide (x.length % 4 = 0) && decide (x.offset + x.length ≤ size)) &&
    (h.sections.zipIdx.all (fun a => h.sections.zipIdx.all (fun b =>
      decide (a.2 = b.2) || decide (a.1.length = 0) || decide (b.1.length = 0) ||
        decide (a.1.offset + a.1.length ≤ b.1.offset) || decide (b.1.offset + b.1.length ≤ a.1.offset)))) &&
    h.sections.all (fun x => match x.type with
      | 4 => decide (x.length % 8 = 0)
      | 6 => decide (x.length % 144 = 0)
      | 5 => (groveEntries (x.length / 4) (beWords (x.bytes stream))).isSome
      | _ => true)

/-- A PROGRAM section (Table 13.5): load address, entry offset, level, length. -/
structure Program where
  addr : Nat
  entry : Nat
  level : Nat
  len : Nat
  code : List Byte
  deriving DecidableEq, Repr

def programOf (l : List Byte) : Program :=
  { addr := beAt l 0 4, entry := beAt l 4 4, level := beAt l 8 4, len := beAt l 12 4, code := (l.drop 16).take (beAt l 12 4) }

def Header.programs (h : Header) (stream : List Byte) : List Program :=
  (h.sections.filter (fun x => decide (x.type = 7))).map (fun x => programOf (x.bytes stream))

/-- The check of R262. -/
def programsOk (h : Header) (stream : List Byte) : Bool :=
  let ps := h.programs stream
  (h.sections.filter (fun x => decide (x.type = 7))).all (fun x =>
      let p := programOf (x.bytes stream)
      decide (p.level < 3) && decide (x.length = 16 + (p.len + 3) / 4 * 4) && decide (p.addr + p.len ≤ 0x400000) &&
        decide (p.entry < p.len) && decide (p.entry % 4 = 0)) &&
    ps.zipIdx.all (fun a => ps.zipIdx.all (fun b => decide (a.2 = b.2) ||
      decide (a.1.addr + a.1.len ≤ b.1.addr) || decide (b.1.addr + b.1.len ≤ a.1.addr)))

/-! ## Signature (R258, R376) -/

/-- The key hash check: the key's hash equals the fused one, and the key is not revoked. -/
def Fuses.keyOk (f : Fuses) (key : List Byte) : Bool := !f.revoked && decide (Config.sha384 key = f.keyHash)

/-- The signature is not checked: blank key hash fuses, in Blank and Manufacturing. -/
def Fuses.unsigned (f : Fuses) (lc : Nat) : Bool := decide (f.keyHash = 0) && decide (lc < 2) && !f.revoked

/-- The signature page's key and signature over a message. -/
def Fuses.signed (f : Fuses) (sig msg : List Byte) : Bool :=
  f.keyOk (sig.take 96) && Config.ecdsaOk (sig.take 96) msg ((sig.drop 96).take 96)

/-! ## The full check of a slot (R259, R260) -/

/-- What a full check leaves: cause 0 where the slot passes. -/
structure SlotRead where
  cause : Nat := 0
  decoded : Nat := 0
  fixed : Nat := 0
  stream : List Byte := []
  unsigned : Bool := false
  deriving DecidableEq, Repr

/-- Pages 1 to N - 1 in order, up to the first that fails: their data, the cause, pages decoded, words corrected. -/
def Chip.readPages (s : Chip) (base version : Nat) : List Nat → List (List Byte) × Nat × Nat × Nat
  | [] => ([], 0, 0, 0)
  | n :: ns =>
    let r := readPage (base + n) (s.page (base + n)) (some version)
    if r.cause ≠ 0 then ([], r.cause, b2n r.decoded, r.fixed)
    else
      let (l, c, d, f) := s.readPages base version ns
      (r.data :: l, c, d + b2n r.decoded, f + r.fixed)

/-- Life-cycle state in force. -/
def Chip.lc (s : Chip) : Nat := s.fld F.LCS_STATE.STATE

/-- The full check after the header page has been accepted. -/
def Chip.checkSlot (s : Chip) (slot : Nat) (h : Header) (page0 : List Byte) (rollback : Bool) : SlotRead :=
  let (l, c, d, f) := s.readPages (areaBase slot) h.version (rangeFrom 1 (h.pages - 1))
  let r : SlotRead := { cause := c, decoded := d, fixed := f }
  if c ≠ 0 then r
  else
    let body := (l.take (h.pages - 2)).flatten
    let sig := l.getD (h.pages - 2) []
    let r := { r with stream := body, unsigned := s.fuses.unsigned s.lc }
    if !r.unsigned && !s.fuses.signed sig (page0 ++ body) then { r with cause := 7 }
    else if !sectionsOk h body then { r with cause := 11 }
    else if h.sections.any (fun x => x.critical && !knownType x.type && decide (x.type < 0x8000)) then { r with cause := 12 }
    else if !programsOk h body then { r with cause := 13 }
    else if rollback && decide (h.rollback < s.fuses.rollback) then { r with cause := 8 }
    else r

/-- The header page of a slot: the page read, and the cause or the header. -/
def Chip.readHeader (s : Chip) (slot : Nat) : PageRead × Nat × Option Header :=
  let r := readPage (areaBase slot) (s.page (areaBase slot)) none
  if r.cause ≠ 0 then (r, r.cause, none)
  else
    let (c, h) := parseHeader r.data r.version (s.fld F.CHP_ID.MAX_LEVEL)
    (r, c, h)

/-- Counting what the codes corrected (IMG_CORR, IMG_SLOT_STS). -/
def Chip.noteRead (s : Chip) (area decoded fixed : Nat) : Chip :=
  let s := (s.bump F.IMG_CORR.PAGES decoded).bump F.IMG_CORR.WORDS fixed
  (s.bump F.IMG_SLOT_STS.DECODED decoded area).count (cntChip 12) fixed

/-! ## Programs (R261, R266) -/

/-- PROGRAM sections are placed in management SRAM and the first is entered. -/
def Chip.loadPrograms (s : Chip) (ps : List Program) : Chip :=
  let s := foldl' ps (fun p s => s.setRamBytes p.addr p.code) s
  { s with mgmt := (ps.head?).map (fun p => (p.level, p.addr + p.entry)) }

/-- The recovery load of R266: the PROGRAM sections of the loaded slot again; a failure is chip source bit 3, class F. -/
def Chip.recoveryLoad (s : Chip) : Chip :=
  if s.fld F.IMG_STS.STATE ≠ 1 then { s with mgmt := none }
  else
    let slot := s.fld F.IMG_STS.SLOT
    let (p, c, h) := s.readHeader slot
    let s := s.noteRead slot (b2n p.decoded) p.fixed
    match h with
    | none => if c = 0 then s else s.chipFault 3 clsF
    | some h =>
      let r := s.checkSlot slot h p.data false
      let s := s.noteRead slot r.decoded r.fixed
      if r.cause ≠ 0 then s.chipFault 3 clsF else s.loadPrograms (h.programs r.stream)

end Sys2Proof.Machine
end

