-- ==== Sys2Proof/Machine/Power.lean ====
section
/-! DEFINITION. Power domains and power commands (R311 to R321), operating points (R323 to R325), droop (R326 to R328), supplies,
temperature and reference clocks (R329, R330), the alarm (R333), as spec/16_power_and_time.md gives them. -/

namespace Sys2Proof.Machine

/-! ## Domains (R312, R314) -/

/-- A domain with every domain below it. -/
def domsBelow (d : Nat) : List Nat :=
  if 128 ≤ d ∧ d < 160 then rangeFrom (4 * (d - 128)) 4 ++ [d]
  else if 160 ≤ d ∧ d < 168 then
    let r := d - 160
    rangeFrom (16 * r) 16 ++ rangeFrom (128 + 4 * r) 4 ++ [d, homeDom r]
  else [d]

/-- A domain with every domain above it; a home slice is on with its switching domain. -/
def domsAbove (d : Nat) : List Nat :=
  if d < 128 then [d, 128 + d / 4, regionDom (d / 16), homeDom (d / 16)]
  else if d < 160 then [d, regionDom ((d - 128) / 4), homeDom ((d - 128) / 4)]
  else if d < 168 then [d, d + 8]
  else if d < 176 then [d - 8, d]
  else [d]

/-- The domains of a closure, ascending, without repeats. -/
def closure (f : Nat → List Nat) (l : List Nat) : List Nat := (List.range 182).filter (fun d => (l.flatMap f).contains d)

/-- Boundary in front of a domain (R218): node and number. -/
def bndOf (d : Nat) : Option (Nat × Nat) :=
  if 160 ≤ d ∧ d < 168 then some (d - 160, 0) else if 176 ≤ d ∧ d < 181 then some (hubNode, d - 176) else none

/-- Region of a domain. -/
def domRegion (d : Nat) : Option Nat :=
  if d < 128 then some (d / 16) else if d < 160 then some ((d - 128) / 4)
  else if d < 168 then some (d - 160) else if d < 176 then some (d - 168) else none

/-- Domain of a register that a power-off takes with it, none for a block that is never off (R384). -/
def Reg.domain (g : Reg) : Option Nat :=
  let p := g.name.place
  let inst := if p.mult = 0 then 8 else g.i / p.mult
  match p.block with
  | .cell => some g.i
  | .buf | .dec | .ert | .rgn => if inst < 8 then some (regionDom inst) else none
  | .grv => if inst < 8 && (RBlock.names .grv).contains g.name && decide (p.mult = 1) then some (homeDom inst) else none
  | .ecc => if inst < 8 then some (regionDom inst) else some 176
  | .ecchub | .mpu | .cnt | .bst => some 176
  | .mov => some 177
  | .img => some 180
  | .eth => match g.name with
    | .KMP_CFG | .KMP_TIMING | .KMP_SESS_STS | .KMP_SESS_EVT => none
    | _ => some (178 + g.i)
  | .noc | .nochub => some 181
  | _ => none

/-! ## Retention (R319, Table 16.4) -/

/-- Status registers that are retained, or that fuses give; retired ways are counted from cold reset (R179). -/
def keptSts : RName → Bool
  | .CNT_OVF | .LCS_STATE | .LCS_CHIP_ID_LO | .LCS_CHIP_ID_HI | .NOC_ROUTE_CTRL | .NOC_BND_STS | .SNF_RETIRE => true
  | n => decide (n.place.block = .img)

/-- RO and W1C fields of the registers of the domains read their reset values. -/
def Chip.loseSts (s : Chip) (l : List Nat) : Chip :=
  foldl' (s.regs.filter (fun e => (match e.1.domain with | some d => l.contains d | none => false) && !keptSts e.1.name))
    (fun e s =>
      let m := accMask e.1.name .RO ||| accMask e.1.name .W1C
      s.wr e.1.name e.1.i e.1.j (w32 ((e.2.toNat &&& (0xFFFFFFFF ^^^ m)) ||| (e.1.reset.toNat &&& m)))) s

/-- Snoop-filter entries with the retired ways left, which stay retired until cold reset (R179). -/
def retiredOnly (l : Tab Snf) : Tab Snf := (l.filter (fun x => x.2.retired)).map (fun (x : Nat × Snf) => (x.1, { retired := true }))

/-- What a domain holds beside its registers is lost. -/
def Chip.loseDom (d : Nat) (s : Chip) : Chip :=
  if d < 128 then
    let s := s.modPort d (fun x => { csbOos := x.csbOos, everOos := x.everOos, pgSince := x.pgSince, csbLow := x.csbLow, perst := x.perst })
    let s : Chip := { s with lanes := s.lanes.filter (fun x => decide (x.1 / 4 ≠ d)) }
    s.driveCsb d
  else if 168 ≤ d ∧ d < 176 then
    let r := d - 168
    { s with
      snf := s.snf.flatMap (fun x => if x.1 / (32768 * 16) = r then retiredOnly [x] else [x])
      plru := s.plru.filter (fun x => decide (x.1 / 32768 ≠ r))
      copies := s.copies.filter (fun c => decide (c.home ≠ r))
      snooped := s.snooped.filter (fun x => decide (x.1 / 16 ≠ r)) }
  else match d with
    | 176 =>
      let s := s.flushAll false
      { s with sram := [], badWords := s.badWords.filter (fun x => decide (x.1 = 3) || decide (x.1 = 4) || decide (x.1 = 2)), hist := [], mgmt := none }
    | 178 => if s.domOn 179 then s else { s with dmaRam := [], merge := s.merge.filter (fun e => !e.dma) }
    | 179 => if s.domOn 178 then s else { s with dmaRam := [], merge := s.merge.filter (fun e => !e.dma) }
    | 180 =>
      let x := s.pw
      { s with pw := { x with loaderLost := true } }
    | 181 => { s with stats := [] }
    | _ => s

/-- Domains are switched off. -/
def Chip.switchOff (s : Chip) (l : List Nat) : Chip :=
  let x := s.pw
  let s : Chip := { s with pw := { x with off := (List.range 182).filter (fun d => x.off.contains d || l.contains d) } }
  foldl' l Chip.loseDom (s.loseSts l)

/-- Domains come on: what their boundaries held is let in; cells train at once (R317). -/
def Chip.switchOn (s : Chip) (l : List Nat) : Chip :=
  let new := l.filter (fun d => !s.domOn d)
  let s := s.domsOn new
  let s := if new.contains 176 then s.recoveryLoad else s
  s.beginCells (new.filter (· < 128))

/-! ## Conditions of entry (R21, R315, Table 16.3) -/

/-- A grove is Seeding, Standing or Felling. -/
def Chip.groveLives (s : Chip) : Bool :=
  (List.range 32).any (fun g => decide (s.gst g = gSeeding) || decide (s.gst g = gStanding) || decide (s.gst g = gFelling))

/-- A link is up on cell `c`. -/
def Chip.cellUp (s : Chip) (c : Nat) : Bool :=
  match s.coverOf c with
  | some p => (s.port p).up
  | none => false

/-- The cause for which a domain refuses entry, the lowest that holds; 0 none. -/
def Chip.refusal (s : Chip) (src : PwrSrc) (dormant : Bool) (d : Nat) : Nat :=
  let region := decide (160 ≤ d) && decide (d < 168)
  let home := decide (168 ≤ d) && decide (d < 176)
  let r := (domRegion d).getD 8
  let eth (a b : Nat) : Bool := decide (d = a) && !dormant && ((match src with | .kmp _ e => decide (178 + e = a) | _ => false) || !s.domOn b)
  let hit := [
    (1, if region then (rangeFrom (16 * r) 16).any s.cellUp else decide (d < 128) && s.cellUp d),
    (2, (region || home) && s.groveLives),
    (3, (region || home) && s.txns.any (fun t => decide (t.home = r))),
    (4, region && s.ert.any (fun e => decide (e.key.port / 16 = r))),
    (5, region && s.inners.any (fun i => i.epoch.isSome && decide (i.dest / 16 = r))),
    (7, match bndOf d with | some (n, h) => decide (s.fld F.NOC_BND_STS.STATE n h = 4) | none => false),
    (9, decide (d = 177) && s.ert.any (fun e => e.active)),
    (10, eth 178 179 || eth 179 178),
    (11, s.pw.testing.contains d)]
  match hit.find? (·.2) with
  | some x => x.1
  | none => 0

/-- The first domain, ascending, that refuses. -/
def Chip.firstRefusal (s : Chip) (src : PwrSrc) (dormant : Bool) (l : List Nat) : Option (Nat × Nat) :=
  (l.map (fun d => (d, s.refusal src dormant d))).find? (fun x => decide (x.2 ≠ 0))

/-- The first domain, ascending, that refuses as a command is taken: one that is off refuses while its boundary is Waking
(R219, Table 11.3). -/
def Chip.takeRefusal (s : Chip) (src : PwrSrc) (dormant : Bool) (l : List Nat) : Option (Nat × Nat) :=
  (l.map (fun d => (d, if s.domOn d then s.refusal src dormant d
    else match bndOf d with | some (n, h) => if s.fld F.NOC_BND_STS.STATE n h = 4 then 7 else 0 | none => 0))).find?
    (fun x => decide (x.2 ≠ 0))

/-- A domain delays its answer (R315). -/
def Chip.delays (s : Chip) (d : Nat) : Bool :=
  match domRegion d with
  | some r => s.opens.any (fun o => decide (o.region = r)) || (s.portsOf r).any (fun p => (s.port p).flushing)
  | none => false

/-! ## The controller (R313, R316) -/

/-- A self-test ends (R370): BST_ registers and reply. -/
def Chip.testDone (s : Chip) (t : TestX) (result cause failed : Nat) (more : List Nat) : Chip :=
  let us := min ((s.time - t.since) / usT) 0xFFFFFFFF
  let s : Chip := { s with test := none }
  let s := ((s.set F.BST_STS.BUSY 0).set F.BST_STS.RESULT result).wr .BST_DUR 0 0 (w32 us)
  (s.wr .BST_FAIL 0 0 (w32 failed)).reply t.q 0 ([result + cause * 2 ^ 8, us, failed, t.skipped] ++ more)

/-- The power-down of a test's regions has ended: the test runs, or ends with NOT_IDLE (R369). -/
def Chip.testDown (s : Chip) (result cause : Nat) : Chip :=
  match s.test with
  | some t =>
    let x := s.pw
    if result = 0 then { s with test := some { t with waits := false }, pw := { x with testing := t.doms } } else s.testDone t 3 cause 0 []
  | none => s

/-- The command under way ends with a result (Table 16.2), its cause and domain. -/
def Chip.pwrEnd (s : Chip) (src : PwrSrc) (result cause dom : Nat) : Chip :=
  let x := s.pw
  let s : Chip := { s with pw := { x with cmd := none } }
  let w0 := result + cause * 2 ^ 8
  match src with
  | .image => s
  | .test => s.testDown result cause
  | _ =>
    let s := if result = 0 then s else s.count (cntChip 10)
    let s := ((s.set F.PWR_ENTRY_STS.BUSY 0).set F.PWR_ENTRY_STS.DONE 1).set F.PWR_ENTRY_STS.DOMAIN dom
    let s := (s.set F.PWR_ENTRY_STS.CAUSE cause).set F.PWR_ENTRY_STS.RESULT result
    match src with
    | .kmp q _ => s.reply q 0 [w0, dom]
    | _ => s

def Chip.setCmd (s : Chip) (c : PwrCmd) : Chip :=
  let x := s.pw
  { s with pw := { x with cmd := some c } }

/-- Boundaries of the domains of an entry open again. -/
def Chip.reopen (s : Chip) (l : List Nat) : Chip :=
  foldl' (l.filterMap bndOf) (fun b s =>
    let st := s.fld F.NOC_BND_STS.STATE b.1 b.2
    if st = 1 ∨ st = 2 then s.openBnd b.1 b.2 else s) s

/-- An entry is refused: no domain changes state. -/
def Chip.pwrRefuse (s : Chip) (c : PwrCmd) (result cause dom : Nat) : Chip := (s.reopen c.doms).pwrEnd c.src result cause dom

/-- VDD_CORE setpoint of an operating point in mV (R323, Table 16.7). -/
def Chip.setpoint (s : Chip) (op : Nat) : Nat :=
  let v := (([750, 700, 670, 650].getD op 750 : Nat) : Int) + s.fuses.trim
  clampTo 650 850 v.toNat

/-- A setpoint is written over AVSBus. -/
def Chip.avsWrite (s : Chip) (mv : Nat) : Chip := (s.out (.avs mv)).set F.PWR_OP_STS.SETPOINT_MV mv

/-- A change of operating point begins (R324): a raise writes the voltage first and waits, any other changes the clock first. -/
def Chip.opStart (s : Chip) (c : PwrCmd) : Chip :=
  let new := s.setpoint c.op
  let old := s.fld F.PWR_OP_STS.SETPOINT_MV
  let s := s.set F.PWR_OP_STS.TARGET c.op
  if s.fld F.PWR_OP_STS.SETPOINT_MV < new then
    let s := ((s.avsWrite new).set F.PWR_OP_STS.BUSY 1).setCmd { c with phase := 5 }
    let x := s.pw
    { s with pw := { x with raise := some s.time, oldMv := old } }
  else
    let s := s.set F.PWR_OP_STS.CUR c.op
    let s := if new = s.fld F.PWR_OP_STS.SETPOINT_MV then s else s.avsWrite new
    (s.set F.PWR_OP_STS.BUSY 0).pwrEnd c.src 0 0 0

/-- Alarm time in ns. -/
def Chip.alarmNs (s : Chip) : Nat := (s.rd .TMB_ALARM_HI).toNat * 2 ^ 32 + (s.rd .TMB_ALARM_LO).toNat

/-- A command is taken (R316): checked in the order of the results of Table 16.2. -/
def Chip.pwrStart (s : Chip) (c : PwrCmd) : Chip :=
  let s := if c.src = .image ∨ c.src = .test then s else (s.count (cntChip 9)).set F.PWR_ENTRY_STS.BUSY 1
  let safe := s.is F.FLT_SAFE_STS.SAFE
  match c.action with
  | 0 => s.pwrEnd c.src 0 0 0
  | 1 | 3 =>
    let dorm := decide (c.action = 3)
    let bad := !dorm && c.named.any (fun d => decide (d ≥ 181))
    let all := if dorm then List.range 182 else closure domsBelow c.named
    let l := all.filter s.domOn
    if bad then s.pwrEnd c.src 2 0 0
    else if safe then s.pwrEnd c.src 3 0 0
    else if dorm && (!s.is F.TMB_CFG.ALARM_ARM || decide (s.alarmNs < s.ns + 10000000)) then s.pwrEnd c.src 4 0 0
    else match s.takeRefusal c.src dorm all with
      | some (d, cause) => s.pwrEnd c.src 1 cause d
      | none =>
        if l.isEmpty then s.pwrEnd c.src 0 0 0
        else (s.abortScrubs l).setCmd { c with doms := l, left := l, phase := 1, since := s.time }
  | 2 =>
    if c.named.any (fun d => decide (d ≥ 181)) then s.pwrEnd c.src 2 0 0
    else if safe then s.pwrEnd c.src 3 0 0
    else
      let l := (closure domsAbove c.named).filter (fun d => !s.domOn d)
      let bs := (l.filterMap bndOf).filter (fun b => decide (s.fld F.NOC_BND_STS.STATE b.1 b.2 ≥ 3))
      let s := foldl' bs (fun b s => s.set F.NOC_BND_STS.STATE 4 b.1 b.2) s
      s.setCmd { c with doms := l, left := bs.map (fun b => 8 * b.1 + b.2), phase := 4 }
  | 4 => if safe then s.pwrEnd c.src 3 0 0 else s.opStart c
  | _ => s.pwrEnd c.src 2 0 0

/-- A condition of R21 that has become true, before the retention save begins, in a domain of the entry under way: cause and domain. -/
def Chip.lateRefusal (s : Chip) (c : PwrCmd) : Option (Nat × Nat) :=
  if c.phase = 1 ∨ c.phase = 2 then s.firstRefusal c.src (decide (c.action = 3)) c.doms else none

/-- The controller goes on: an entry meets a condition that has become true (R21, R315); a power-on whose boundaries are open
completes; the next command is taken when none is under way. -/
def pwrRun : Nat → Chip → Chip
  | 0, s => s
  | n + 1, s =>
    match s.pw.cmd with
    | some c =>
      if c.phase = 4 ∧ (c.left.all (fun b => decide (s.fld F.NOC_BND_STS.STATE (b / 8) (b % 8) = 0))) = true then
        pwrRun n ((s.switchOn c.doms).pwrEnd c.src 0 0 0)
      else match s.lateRefusal c with
        | some (d, cause) => pwrRun n (s.pwrRefuse c 1 cause d)
        | none => s
    | none =>
      match s.pw.queue with
      | [] => s
      | c :: q =>
        let x := s.pw
        let s : Chip := { s with pw := { x with queue := q } }
        pwrRun n (s.pwrStart c)

def Chip.pwrPump (s : Chip) : Chip := pwrRun (2 * s.pw.queue.length + 3) s

/-- A command arrives: it waits its turn; a new operating point during a change replaces the pending target (R324). -/
def Chip.pwrSubmit (s : Chip) (c : PwrCmd) : Chip :=
  let x := s.pw
  if c.action = 4 ∧ x.raise.isSome = true then
    let s := match x.opNext with
      | some (_, src) => let t := s.pwrEnd src 0 0 0; { t with pw := { x with cmd := x.cmd } }
      | none => s
    let x := s.pw
    ({ s with pw := { x with opNext := some (c.op, c.src) } } : Chip).set F.PWR_OP_STS.TARGET c.op
  else { s with pw := { x with queue := x.queue ++ [c] } }.pwrPump

/-- Domains that mask words name. -/
def maskDoms (ws : List Nat) : List Nat := (ws.zipIdx).flatMap (fun x => (bitsSet x.1 32).map (fun j => 32 * x.2 + j))

/-- A write of PWR_CMD. -/
def pwrCmdWrite (v : W) (s : Chip) : Chip :=
  let s := s.wr .PWR_CMD 0 0 (w32 (accessWrite .PWR_CMD false (s.rd .PWR_CMD).toNat v.toNat))
  if !bitAt v.toNat 31 then s
  else s.pwrSubmit { src := .reg, action := s.fld F.PWR_CMD.ACTION, op := s.fld F.PWR_CMD.OP
                     named := maskDoms ((List.range 6).map (fun i => (s.rd .PWR_CMD_MASK i).toNat)) }

/-- Domains powered, for POWER_QUERY and PWR_DOM_STS: bits 182 to 213 follow the slot channels. -/
def Chip.domWord (s : Chip) (i : Nat) : Nat :=
  maskOf ((List.range 32).filter (fun j =>
    let d := 32 * i + j
    if d < 182 then s.domOn d else decide (d < 214) && s.is F.SLT_CTRL.EN (d - 182)))

/-- POWER_QUERY (action 0). -/
def Chip.powerQuery (s : Chip) (q : ReqId) : Chip :=
  let s := s.count (cntChip 9)
  let op := s.fld F.PWR_OP_STS.CUR + s.fld F.PWR_OP_STS.BUSY * 16
  s.reply q 0 (0 :: ((List.range 7).map s.domWord) ++ [op])

/-! ## Entry (R21, R315, Table 1.13) -/

/-- Retention save begins (step 5 of Table 1.13). -/
def Chip.beginSave (s : Chip) (c : PwrCmd) : Chip :=
  let s := foldl' (c.doms.filterMap bndOf) (fun b s => s.set F.NOC_BND_STS.STATE 2 b.1 b.2) s
  s.setCmd { c with left := [], phase := 3 }

/-- Every domain has accepted: boundaries close; for Dormant the reply is sent, links of the Ethernet ports stop, sessions end. -/
def Chip.allAccept (s : Chip) (c : PwrCmd) : Chip :=
  let s := foldl' (c.doms.filterMap bndOf) (fun b s => s.set F.NOC_BND_STS.STATE 1 b.1 b.2) s
  let s := if c.action = 3 then
      let s := match c.src with
        | .kmp q _ => s.reply q 0 [0, 0]
        | _ => s
      s.post .dark
    else s
  let c := if c.action = 3 then { c with src := .reg } else c
  let rs := (c.doms.filter (fun d => decide (160 ≤ d) && decide (d < 168))).map (· - 160)
  if rs.isEmpty then s.beginSave c else s.setCmd { c with left := rs, phase := 2 }

/-- DOMAIN_ENTRY_ANSWER: a domain accepts, refuses or delays. -/
def entryAnswer (d : Nat) (s : Chip) : Chip :=
  match s.pw.cmd with
  | some c =>
    if c.phase ≠ 1 ∨ c.left.contains d = false then s
    else
      let cause := s.refusal c.src (decide (c.action = 3)) d
      if cause ≠ 0 then s.pwrRefuse c 1 cause d
      else if s.delays d then s
      else
        let l := c.left.filter (fun x => decide (x ≠ d))
        if l.isEmpty then s.allAccept { c with left := [] } else s.setCmd { c with left := l }
  | none => s

/-- PWR_ENTRY_CFG.LIMIT. -/
def Chip.entryLimit (s : Chip) : Nat := clampTo 1 10000 (s.fld F.PWR_ENTRY_CFG.LIMIT) * 10 * usT

/-- ENTRY_LIMIT_EXPIRE: cause 8. -/
def entryLimitExpire (s : Chip) : Chip :=
  match s.pw.cmd with
  | some c => if c.phase ≠ 1 ∨ s.time < c.since + s.entryLimit then s else s.pwrRefuse c 1 8 (c.left.headD 0)
  | none => s

/-- A message is inside region `r`: in a queue, a landing area or on the mesh at its node before it has left. -/
def Msg.inside (m : Msg) (r : Nat) : Bool :=
  match m.loc with
  | .ingress p => decide (p / 16 = r)
  | .inject n => decide (n = r)
  | .mesh => m.parts.any (fun p => decide (p.node = r) && !p.atB && decide (m.fromNode = r))
  | .landing d _ => decide (d = r)
  | .boundary _ _ => false
  | .held x => decide (x = r)
  | .egress p _ => decide (p / 16 = r)
  | .residue x => decide (x = r)
  | .home x => decide (x = r)

/-- REGION_DRAINED: step 5 of Table 1.13 begins when the last closing region is empty. -/
def regionDrained (r : Nat) (s : Chip) : Chip :=
  match s.pw.cmd with
  | some c =>
    if c.phase ≠ 2 ∨ c.left.contains r = false then s
    else match s.firstRefusal c.src (decide (c.action = 3)) c.doms with
      | some (d, cause) => s.pwrRefuse c 1 cause d
      | none =>
        if s.msgs.any (fun m => m.inside r) then s
        else
          let l := c.left.filter (fun x => decide (x ≠ r))
          if l.isEmpty then s.beginSave c else s.setCmd { c with left := l }
  | none => s

/-- The wake of a boundary that a packet raised is counted. -/
def Chip.countWake (s : Chip) (node h : Nat) : Chip :=
  let s := s.bump F.NOC_BND_WAKES.COUNT 1 node h
  if node < 8 then s.count (cntRegion node 28) else s

/-- A boundary in front of a domain that has been switched off: Asleep, or Waking where a packet waits (Table 11.3). -/
def Chip.sleepBnd (s : Chip) (node h : Nat) : Chip :=
  if s.is F.NOC_BND_STS.WAKE_PENDING node h then
    ((s.set F.NOC_BND_STS.WAKE_PENDING 0 node h).set F.NOC_BND_STS.STATE 4 node h).countWake node h
  else s.set F.NOC_BND_STS.STATE 3 node h

/-- RETENTION_SAVE_DONE: the domains are off. -/
def retentionSaveDone (s : Chip) : Chip :=
  match s.pw.cmd with
  | some c =>
    if c.phase ≠ 3 then s
    else
      let s := s.switchOff c.doms
      let s := foldl' (c.doms.filterMap bndOf) (fun b s => s.sleepBnd b.1 b.2) s
      let s := foldl' ([178, 179].filter c.doms.contains) (fun d s => s.post (.endPort (d - 178))) s
      let s := s.pwrEnd c.src 0 0 0
      let s := if c.action = 3 then
          let x := s.pw
          { s with pw := { x with dormant := true } }
        else s
      s.pwrPump
  | none => s

/-- Words that their codes found uncorrectable as a domain's retained state was restored (R301, Table 15.3): block, cluster, index. -/
def Chip.restoreErrs (s : Chip) (l : List (Nat × Nat × Nat)) : Chip :=
  foldl' l (fun x s =>
    let s := s.eccUncorr x.1 x.2.1 x.2.2
    if x.1 < 8 then (if x.2.1 = 3 ∨ x.2.1 = 4 then s.regionFault x.1 11 clsF else s) else s.markBad x.2.1 x.2.2) s

/-- DOMAIN_READY: the woken domain takes the rules in force, and what was held is let in. A region that a self-test has taken out
of service wakes when the test ends (R369). -/
def domainReady (node h : Nat) (bad : List (Nat × Nat × Nat)) (s : Chip) : Chip :=
  if s.fld F.NOC_BND_STS.STATE node h ≠ 4 ∨ (node < 8 ∧ s.pw.testing.contains (regionDom node) = true ∧ s.domOn (regionDom node) = false) then s
  else
    let s := s.switchOn (if node < 8 then [regionDom node, homeDom node] else [176 + h])
    ((s.restoreErrs bad).openBnd node h).pwrPump

/-! ## Packets at a boundary (R22, R219) -/

/-- What a packet that reaches the boundary does to it. -/
def Chip.packetAt (s : Chip) (node h : Nat) : Chip :=
  match s.fld F.NOC_BND_STS.STATE node h with
  | 1 => match s.pw.cmd with
    | some c => (s.pwrRefuse c 1 6 (if node < 8 then regionDom node else 176 + h)).pwrPump
    | none => s.openBnd node h
  | 2 => s.set F.NOC_BND_STS.WAKE_PENDING 1 node h
  | 3 => (s.set F.NOC_BND_STS.STATE 4 node h).countWake node h
  | _ => s

/-- BOUNDARY_PACKET_ARRIVE: the packet of a message on one network, chosen by the router of the node it goes to or held there
already, reaches the boundary (Table 11.3). -/
def boundaryArrive (id net : Nat) (s : Chip) : Chip :=
  match s.msg? id with
  | none => s
  | some m =>
    let opened := decide (s.fld F.NOC_BND_STS.STATE m.toNode m.boundary = 0)
    if m.parts.any (fun p => decide (p.net = net) && p.atB && !p.landed) then
      if opened then s.landPart m net else s.packetAt m.toNode m.boundary
    else match s.meshPart id net with
      | none => s
      | some (m, p) =>
        if p.node ≠ m.toNode then s
        else if opened then s.hop m p else (s.hop m p).packetAt m.toNode m.boundary

/-- A register access reaches a boundary as a packet does (R22); to a sleeping domain it raises the wake and completes once that is
ready (R384). The model takes the end of an entry that saves and the wake within the access: DESIGN CHOICE (log entry 73). -/
def Chip.accessWakes (s : Chip) (node h : Nat) : Chip :=
  let s := s.packetAt node h
  let s := if s.fld F.NOC_BND_STS.STATE node h = 2 then retentionSaveDone s else s
  if s.fld F.NOC_BND_STS.STATE node h = 4 ∧ s.pw.dormant = false then domainReady node h [] s else s

/-! ## Safe state (R283, R316) -/

/-- A class F error refuses an entry or a raise under way. -/
def Chip.pwrSafe (s : Chip) : Chip :=
  match s.pw.cmd with
  | some c =>
    if c.phase = 5 then
      let x := s.pw
      let n := x.opNext
      let s : Chip := { s with pw := { x with raise := none, opNext := none } }
      let s := (s.set F.PWR_OP_STS.BUSY 0).set F.PWR_OP_STS.TARGET (s.fld F.PWR_OP_STS.CUR)
      let s := s.pwrEnd c.src 3 0 0
      match n with
      | some (_, src) => (s.pwrEnd src 3 0 0).pwrPump
      | none => s.pwrPump
    else if c.phase ≤ 3 then (s.pwrRefuse c 3 0 0).pwrPump
    else s
  | none => s

/-! ## Operating points (R324, R325) -/

/-- A raise has ended: the target that replaced it is taken up, or the command has completed. -/
def Chip.raiseEnd (s : Chip) (c : PwrCmd) (result : Nat) : Chip :=
  let x := s.pw
  let n := x.opNext
  let s : Chip := { s with pw := { x with raise := none, opNext := none } }
  let s := s.pwrEnd c.src result 0 0
  match n with
  | some (op, src) => (s.opStart { src := src, action := 4, op := op }).pwrPump
  | none => (s.set F.PWR_OP_STS.BUSY 0).pwrPump

/-- AVS_SETTLED: the regulator reports its output settled, after `retries` responses with a bad CRC. -/
def avsSettled (retries : Nat) (s : Chip) : Chip :=
  match s.pw.cmd, s.pw.raise with
  | some c, some _ =>
    let s := s.count (cntChip 11) (min retries 3)
    if retries > 3 then s else (s.set F.PWR_OP_STS.CUR c.op).raiseEnd c 0
  | _, _ => s

/-- AVS_SETTLE_TIMEOUT: the old voltage is written back, the clock stays. -/
def avsTimeout (s : Chip) : Chip :=
  match s.pw.cmd, s.pw.raise with
  | some c, some t =>
    if s.time < t + clampTo 10 1000 (s.fld F.PWR_AVS_CFG.SETTLE_TO) * 10 * usT then s
    else
      let cur := s.fld F.PWR_OP_STS.CUR
      let s := (s.avsWrite (s.setpoint cur)).set F.PWR_OP_STS.AVS_TIMEOUT 1
      let s := if s.pw.opNext.isSome then s else s.set F.PWR_OP_STS.TARGET cur
      s.raiseEnd c 5
  | _, _ => s

/-! ## Droop (R326 to R328) -/

/-- The setpoint that thresholds are taken from, in mV: during a raise the lower of the old and the new one (R328). -/
def Chip.droopMv (s : Chip) : Nat :=
  let mv := s.fld F.PWR_OP_STS.SETPOINT_MV
  if s.pw.raise.isSome then min s.pw.oldMv mv else mv

/-- A supply of `uv` microvolts is more than `k` half percents below that setpoint (R326). -/
def Chip.droops (s : Chip) (uv k : Nat) : Bool := decide (uv < s.droopMv * (1000 - 5 * k))

/-- Deepest dip, in 0.1 % of that setpoint, rounded down: DESIGN CHOICE (log entry 122). -/
def Chip.dip (s : Chip) (r uv : Nat) : Chip :=
  let depth := (1000 * s.droopMv - uv) / s.droopMv
  s.set F.PWR_DROOP_STS.MIN_DEPTH (max (s.fld F.PWR_DROOP_STS.MIN_DEPTH r) (min depth 255)) r

/-- DROOP_WARNING: the detector of region `r` samples a supply of `uv` microvolts. -/
def droopWarning (r uv : Nat) (s : Chip) : Chip :=
  if !s.droops uv (s.fld F.PWR_DROOP_CFG.WARN) then s
  else
    let s := s.dip r uv
    if s.is F.PWR_DROOP_STS.SLOWED r then s
    else
      let s := ((s.set F.PWR_DROOP_STS.SLOWED 1 r).bump F.PWR_DROOP_STS.EVENTS 1 r).count (cntRegion r 26)
      let x := s.pw
      let s : Chip := { s with pw := { x with slowAt := x.slowAt.set 0 r s.time } }
      s.regionFault r 9 clsC

/-- Core cycles in a time, at an operating point (Table 16.7). -/
def coreCycles (op t : Nat) : Nat := t * 9 / ([64, 80, 120, 240].getD op 64)

/-- DROOP_RELEASE: the supply has stayed above release for 256 undivided core cycles. -/
def droopRelease (r : Nat) (s : Chip) : Chip :=
  if !s.is F.PWR_DROOP_STS.SLOWED r then s
  else
    let t := s.time - s.pw.slowAt.get 0 r
    let s := s.set F.PWR_DROOP_STS.SLOWED 0 r
    let s := s.bump F.PWR_DROOP_NS.NS (t / 16) r
    let x := s.pw
    let s : Chip := { s with pw := { x with slowAt := x.slowAt.set 0 r 0 } }
    s.count (cntRegion r 27) (coreCycles (s.fld F.PWR_OP_STS.CUR) t)

/-- DROOP_RESET: region source bit 10, class F. -/
def droopReset (r uv : Nat) (s : Chip) : Chip :=
  if !s.droops uv (s.fld F.PWR_DROOP_CFG.RST) then s else (droopWarning r uv s).regionFault r 10 clsF

/-- DROOP_CFG_WRITE: refused as a whole outside the ranges of Table 16.8. -/
def droopCfgWrite (v : W) (s : Chip) : Chip :=
  let n := v.toNat
  let warn := bitsOf n 0 8
  let rel := bitsOf n 8 8
  let rst := bitsOf n 16 8
  let s := if bitAt n 31 then s.set F.PWR_DROOP_CFG.REFUSED 0 else s
  if warn < 4 ∨ 20 < warn ∨ rel < 2 ∨ warn < rel + 1 ∨ rst < warn + 4 ∨ 30 < rst then s.set F.PWR_DROOP_CFG.REFUSED 1
  else s.wr .PWR_DROOP_CFG 0 0 (w32 (accessWrite .PWR_DROOP_CFG false (s.rd .PWR_DROOP_CFG).toNat n))

/-- A write of PWR_DROOP_STS: CLEAR zeroes MIN_DEPTH, EVENTS and PWR_DROOP_NS. -/
def droopStsWrite (r : Nat) (v : W) (s : Chip) : Chip :=
  if bitAt v.toNat 30 then
    ((s.set F.PWR_DROOP_STS.MIN_DEPTH 0 r).set F.PWR_DROOP_STS.EVENTS 0 r).wr .PWR_DROOP_NS r 0 0
  else s

/-! ## Temperature, supplies, reference clocks (R329, R330) -/

/-- TEMPERATURE_SAMPLE: the ten sensors, in 1/16 °C; bits 12 and 13 as a threshold is passed. -/
def temperatureSample (l : List Nat) (s : Chip) : Chip :=
  let hot := s.hotter 150
  let warm := s.pw.warm
  let s := foldl' (l.take 10).zipIdx (fun x s => s.wr .PWR_TEMP x.2 0 (w32 (2 ^ 31 + x.1 % 65536))) s
  let x := s.pw
  let s : Chip := { s with pw := { x with warm := s.hotter s.thermWarn } }
  let s := if !warm && s.pw.warm then s.chipFault 13 clsC else s
  if !hot && s.hotter 150 then s.chipFault 12 clsF else s

/-- SUPPLY_OUT_OF_WINDOW: chip source bit 11, class F. Rails 0 to 6 as Table 16.10 lists them. -/
def supplyOut (rail : Nat) (s : Chip) : Chip :=
  let x := s.pw
  if x.rails.contains rail then s
  else
    let s : Chip := { s with pw := { x with rails := x.rails ++ [rail] } }
    s.chipFault 11 clsF

/-- SUPPLY_BACK_IN_WINDOW. -/
def supplyBack (rail : Nat) (s : Chip) : Chip :=
  let x := s.pw
  { s with pw := { x with rails := x.rails.filter (fun y => decide (y ≠ rail)) } }

/-- Reference `w` (0 PCLK0, 1 PCLK1, 2 ECLK) is the one that the hub PLL takes. -/
def Chip.isHubRef (s : Chip) (w : Nat) : Bool := decide (w = if s.pw.hubRef = 0 then 2 else 0)

/-- REFCLK_LOSS and REFCLK_RETURN. -/
def refclk (w : Nat) (present : Bool) (s : Chip) : Chip :=
  let s := match w with
    | 0 => s.set F.PWR_CLK_STS.PCLK0 (b2n present)
    | 1 => s.set F.PWR_CLK_STS.PCLK1 (b2n present)
    | _ => s.set F.PWR_CLK_STS.ECLK (b2n present)
  if s.isHubRef w then s.set F.TMB_STS.SRC_LOST (b2n !present) else s
def refclkLoss (w : Nat) (s : Chip) : Chip := refclk w false s
def refclkReturn (w : Nat) (s : Chip) : Chip := refclk w true s

/-- XTAL_STABLE and XTAL_FAIL. -/
def xtalStable (s : Chip) : Chip := s.set F.PWR_CLK_STS.XTAL 1
def xtalFail (s : Chip) : Chip :=
  if s.is F.PWR_CLK_STS.XTAL then (s.set F.PWR_CLK_STS.XTAL 0).set F.TMB_STS.XTAL_FAIL 1 else s

/-! ## Elapsed time and the alarm (R331 to R333) -/

/-- 1/64 ns in one tick of 32.768 kHz. -/
def aoTick : Nat := 1953125

/-- The passing of one tick: 1/16 ns of the time base; in Dormant, where only the always-on clock runs, one tick of 32.768 kHz. -/
def tick (s : Chip) : Chip :=
  let x := s.pw
  if x.dormant then
    let ao := x.ao + aoTick
    { s with time := ao / 4 % 2 ^ 68, pw := { x with ao := ao } }
  else
    let t := (s.time + 1) % 2 ^ 68
    { s with time := t, pw := { x with ao := if 4 * t / aoTick = 4 * s.time / aoTick then x.ao else 4 * t } }

/-- Waves from now (Tables 14.6 and 16.6): wave 0 at once, wave w WAVE_GAP_MS × w later. -/
def Chip.wavesFromNow (s : Chip) : Chip :=
  ({ s with waves := List.range 8, waveZero := s.time } : Chip).set F.IMG_STS.WAVES 0

/-- The wake from Dormant (Table 16.6). -/
def Chip.wake (s : Chip) (bad : List (Nat × Nat × Nat)) : Chip :=
  let x := s.pw
  let s : Chip := { s with pw := { x with dormant := false, off := [] }, time := x.ao / 4 % 2 ^ 68 }
  let s := s.restoreErrs bad
  let s := foldl' ((List.range 8).map (fun r => (r, 0)) ++ (List.range 5).map (fun h => (hubNode, h))) (fun b s => s.openBnd b.1 b.2) s
  let s := s.recoveryLoad.set F.TMB_STS.WOKE 1
  (foldl' (List.range numCells) (fun c s => s.modPort c (fun x => { x with waved := false })) s).wavesFromNow

/-- ALARM_FIRE: the always-on count has reached the alarm; `bad` lists the words found uncorrectable as state is restored. -/
def alarmFire (bad : List (Nat × Nat × Nat)) (s : Chip) : Chip :=
  if !s.is F.TMB_CFG.ALARM_ARM || decide (s.pw.ao / 64 < s.alarmNs) then s
  else
    let s := ((s.set F.TMB_STS.ALARM 1).set F.TMB_CFG.ALARM_ARM 0).out (.irq 1)
    if s.pw.dormant then s.wake bad else s

end Sys2Proof.Machine
end

