-- ==== Sys2Proof/Machine/Counters.lean ====
section
/-! DEFINITION. Counters, sampling units, latency histograms and the latching reads (spec/18_counters_and_telemetry.md, R334, R350,
R386), and the end of a transaction (R225). -/

namespace Sys2Proof.Machine

/-! ## Latches (R386): one for each initiator -/

def Chip.latch (s : Chip) (ini k : Nat) : List Nat := s.latches.get [] (65536 * ini + k)
def Chip.setLatch (s : Chip) (ini k : Nat) (l : List Nat) : Chip := { s with latches := s.latches.set [] (65536 * ini + k) l }
/-- Keys: a counter, a bin, the time base, a slot channel. -/
def latCnt (n : Nat) : Nat := n
def latBin (i b : Nat) : Nat := 8192 + 32 * i + b
def latTmb : Nat := 20000
def latSlot (k : Nat) : Nat := 20001 + k

/-- What a latching read gives its initiator. -/
def Chip.value (s : Chip) (ini v : Nat) : Chip := s.out (.value ini v)

/-! ## Counters (R354 to R358) -/

/-- Numbers that Table 18.1 gives an event. -/
def counterUsed (n : Nat) : Bool :=
  if n < 0x800 then decide (n % 16 ≠ 15)
  else if n < 0xA00 then decide ((n - 0x800) % 64 ≤ 28)
  else if n < 0xA90 then decide ((n - 0xA00) % 16 ≤ 5)
  else if n < 0xB00 then false
  else if n < 0xB40 then true
  else if n < 0xB80 then decide ((n - 0xB40) % 32 ≤ 14)
  else if n < 0xBA0 then decide (n - 0xB80 ≤ 7)
  else if n < 0xBC0 then decide (n - 0xBA0 ≤ 12)
  else if n < 0xC00 then false
  else decide (n < 0xC80)

/-- COUNTER_WRAP: `k` events that no other command of the model brings reach counter `n`; past 2^48 - 1 it wraps (R355). -/
def counterWrap (n k : Nat) (s : Chip) : Chip := if counterUsed n then s.count n k else s

/-- A read of CNT_VAL_LO: the state, and the low word; the upper bits are latched. -/
def Chip.readCounter (s : Chip) (ini n : Nat) : Chip × Nat :=
  let s := s.freshCount n
  (s.setLatch ini (latCnt n) [s.counter n / 2 ^ 32], s.counter n % 2 ^ 32)

/-- COUNTER_READ. -/
def counterRead (ini n : Nat) (s : Chip) : Chip :=
  let (s, v) := s.readCounter ini n
  s.value ini v

/-! ## Sampling (R360, R361) -/

/-- A write of CNT_SAMP_CFG; SAMPLING_ARM is one with EN = 1, which takes the counter's value as base. -/
def sampCfgWrite (u : Nat) (v : W) (s : Chip) : Chip :=
  let s := s.wr .CNT_SAMP_CFG u 0 (w32 (accessWrite .CNT_SAMP_CFG false (s.rd .CNT_SAMP_CFG u).toNat v.toNat))
  if bitAt v.toNat 31 then
    let n := s.fld F.CNT_SAMP_CFG.COUNTER u
    { s with samp := s.samp.set (0, 0) u (n, s.counter n) }
  else s
def samplingArm (u : Nat) (v : W) (s : Chip) : Chip := sampCfgWrite u (w32 (setBit v.toNat 31)) s

/-- Period of a unit. -/
def Chip.sampPeriod (s : Chip) (u : Nat) : Nat := max 1 (s.fld F.CNT_SAMP_PERIOD.PERIOD u)

/-- SAMPLING_PERIOD_REACHED. -/
def samplingReached (u : Nat) (s : Chip) : Chip :=
  let (n, base) := s.samp.get (0, 0) u
  let p := s.sampPeriod u
  if !s.is F.CNT_SAMP_CFG.EN u || decide ((s.counter n + 2 ^ 48 - base) % 2 ^ 48 < p) then s
  else
    let s : Chip := { s with samp := s.samp.set (0, 0) u (n, (base + p) % 2 ^ 48) }
    if s.is F.CNT_SAMP_STS.FIRED u then s.bump F.CNT_SAMP_STS.MISSED 1 u
    else
      let s : Chip := { s with sampIrq := if s.sampIrq.contains u then s.sampIrq else s.sampIrq ++ [u] }
      (s.set F.CNT_SAMP_STS.FIRED 1 u).out (.irq (2 + u))

/-- A write of CNT_SAMP_STS: clearing FIRED ends the interrupt and zeroes MISSED. -/
def sampStsWrite (u : Nat) (v : W) (s : Chip) : Chip :=
  if bitAt v.toNat 31 then
    ({ s with sampIrq := s.sampIrq.filter (fun x => decide (x ≠ u)) } : Chip).wr .CNT_SAMP_STS u 0 0
  else s

/-- SAMPLING_INTERRUPT_TAKEN: at the instruction at `pc`. -/
def samplingTaken (u pc : Nat) (s : Chip) : Chip :=
  if !s.sampIrq.contains u then s
  else
    let s : Chip := { s with sampIrq := s.sampIrq.filter (fun x => decide (x ≠ u)) }
    (s.wr .CNT_SAMP_PC u 0 (w32 pc)).count (cntCpx 3)

/-! ## Histograms (R362 to R364) -/

/-- The live edges of a set. -/
def Chip.edgeSet (s : Chip) (k : Nat) : List Nat :=
  match s.edges.get [] k with
  | [] => (List.range 31).map edgeReset
  | l => l

/-- The edge set of an initiator. -/
def Chip.histSel (s : Chip) (i : Nat) : Nat := bitsOf (s.rd .CNT_HIST_SEL (i / 16)).toNat (2 * (i % 16)) 2

/-- The bin of a latency: the number of edges at or below it. -/
def binOf (edges : List Nat) (l : Nat) : Nat := (edges.takeWhile (fun e => decide (e ≤ l))).length

/-- A bin's uncorrectable word restarts from 0 with its sticky bit (Table 15.3). -/
def Chip.freshBin (s : Chip) (i b : Nat) : Chip :=
  let k := 4096 + 32 * i + b
  if s.badWords.contains (3, k) then
    let s : Chip := { s with hist := s.hist.set 0 (32 * i + b) 0, badWords := s.badWords.filter (fun x => decide (x ≠ (3, k))) }
    s.set F.CNT_HIST_HI.WRAP 1 i b
  else s

/-- One more transaction in a bin. -/
def Chip.countBin (s : Chip) (i b : Nat) : Chip :=
  let s := s.freshBin i b
  let v := s.hist.get 0 (32 * i + b) + 1
  let s : Chip := { s with hist := s.hist.set 0 (32 * i + b) (v % 2 ^ 48) }
  if v < 2 ^ 48 then s else s.set F.CNT_HIST_HI.WRAP 1 i b

/-- Every bin of the initiators that satisfy a test is zeroed. -/
def Chip.zeroBins (s : Chip) (p : Nat → Bool) : Chip := { s with hist := s.hist.filter (fun x => !p (x.1 / 32)) }

def ascending : List Nat → Bool
  | a :: b :: t => decide (a < b) && ascending (b :: t)
  | _ => true

/-- A write of CNT_HIST_CTRL: COMMIT makes the staging set SET live, or is refused; FREEZE written 1 zeroes MISSED. -/
def histCtrlWrite (v : W) (s : Chip) : Chip :=
  let s := s.wr .CNT_HIST_CTRL 0 0 (w32 (accessWrite .CNT_HIST_CTRL false (s.rd .CNT_HIST_CTRL).toNat v.toNat))
  let s := if bitAt v.toNat 30 then s.set F.CNT_HIST_CTRL.MISSED 0 else s
  if !bitAt v.toNat 31 then s
  else
    let k := s.fld F.CNT_HIST_CTRL.SET
    let l := (List.range 31).map (fun j => (s.rd .CNT_EDGE k j).toNat)
    if ascending l then
      let s : Chip := { s with edges := s.edges.set [] k l }
      s.zeroBins (fun i => decide (s.histSel i = k))
    else s.set F.CNT_HIST_CTRL.REFUSED 1

/-- HIST_EDGE_COMMIT and HIST_FREEZE. -/
def histCommit (v : W) (s : Chip) : Chip := histCtrlWrite (w32 (setBit v.toNat 31)) s
def histFreeze (v : W) (s : Chip) : Chip := histCtrlWrite (w32 (setBit (clrBit v.toNat 31) 30)) s

/-- HIST_SEL_WRITE: a changed field zeroes its initiator's bins; fields above initiator 155 are reserved. -/
def histSelWrite (w : Nat) (v : W) (s : Chip) : Chip :=
  let v := if w = 9 then v.toNat % 2 ^ 24 else v.toNat
  let old := (s.rd .CNT_HIST_SEL w).toNat
  let s := s.wr .CNT_HIST_SEL w 0 (w32 v)
  s.zeroBins (fun i => decide (i / 16 = w) && decide (bitsOf old (2 * (i % 16)) 2 ≠ bitsOf v (2 * (i % 16)) 2))

/-- A read of CNT_HIST_LO. -/
def Chip.readBin (s : Chip) (ini i b : Nat) : Chip × Nat :=
  let s := s.freshBin i b
  let v := s.hist.get 0 (32 * i + b)
  (s.setLatch ini (latBin i b) [v / 2 ^ 32], v % 2 ^ 32)

/-- HIST_READ. -/
def histRead (ini i b : Nat) (s : Chip) : Chip :=
  let (s, v) := s.readBin ini i b
  s.value ini v

/-! ## The end of a transaction (R225, R362) -/

/-- TRANSACTION_END: statistics, and one bin of the initiator's histogram. -/
def transactionEnd (t : Nat) (s : Chip) : Chip :=
  match s.ended.find? (fun e => decide (e.id = t)) with
  | none => s
  | some e =>
    let x := s.stats.get {} e.initiator
    let x : Stat := { txn := x.txn + 1, rd := x.rd + (e.rd + 63) / 64, wr := x.wr + (e.wr + 63) / 64
                      latSum := x.latSum + e.lat / 16, latMax := max x.latMax e.lat }
    let s : Chip := { s with ended := s.ended.erase e, stats := s.stats.set {} e.initiator x }
    if s.is F.CNT_HIST_CTRL.FREEZE then s.bump F.CNT_HIST_CTRL.MISSED 1
    else s.countBin e.initiator (binOf (s.edgeSet (s.histSel e.initiator)) e.lat)

/-- A write of NOC_STAT_CTRL: a snapshot first, then a clear. -/
def statCtrlWrite (v : W) (s : Chip) : Chip :=
  let s := if bitAt v.toNat 31 then statSnapshot s else s
  if bitAt v.toNat 30 then statClear s else s
def statSnap (v : W) (s : Chip) : Chip := statCtrlWrite (w32 (setBit v.toNat 31)) s
def statClr (s : Chip) : Chip := statCtrlWrite (w32 (2 ^ 30)) s

/-! ## The time base (R331, R334) -/

/-- A read of TMB_NOW_LO latches HI and FRAC. -/
def Chip.readTime (s : Chip) (ini : Nat) : Chip × Nat :=
  (s.setLatch ini latTmb [s.ns / 2 ^ 32 % 2 ^ 32, s.time % 16], s.ns % 2 ^ 32)

/-- TIME_BASE_READ. -/
def timeBaseRead (ini : Nat) (s : Chip) : Chip :=
  let (s, v) := s.readTime ini
  s.value ini v

/-! ## Slot measurements (R350) -/

/-- A read of SLT_MEAS_I latches the other measurements of the same sample. -/
def Chip.readMeas (s : Chip) (ini k : Nat) : Chip × Nat :=
  let l := s.measNow k
  (s.setLatch ini (latSlot k) (l.drop 1), l.getD 0 0)

/-- SLOT_MEAS_READ, with the sample that the channel has taken. -/
def slotMeasRead (ini k : Nat) (m : SlotSample) (s : Chip) : Chip :=
  let (s, v) := (s.slotSample k m).readMeas ini k
  s.value ini v

end Sys2Proof.Machine
end

