-- ==== Sys2Proof/Machine/SelfTest.lean ====
section
/-! DEFINITION. Self-tests (R365 to R371) and the life cycle (R372 to R376), as spec/19_self_test_lifecycle_debug.md gives them. -/

namespace Sys2Proof.Machine

/-! ## Scope of a test -/

/-- Units, cells or slots that a request names (R370). -/
def testMask (kind : Nat) (ws : List W) : Nat :=
  match kind with
  | 4 => wordAt ws 1 + wordAt ws 2 * 2 ^ 32 + wordAt ws 3 * 2 ^ 64 + wordAt ws 4 * 2 ^ 96
  | 5 => wordAt ws 1
  | 7 => 1
  | _ => bitsOf (wordAt ws 0) 0 28

/-- Items that a mask can name. -/
def testWidth (kind : Nat) : Nat := if kind = 4 then 128 else if kind = 5 then 32 else if kind = 7 then 1 else 9

/-- A mover channel is Armed, Copying or Flipping. -/
def Chip.moversActive (s : Chip) : Bool := s.ert.any (fun e => e.active)

/-- The domains of a unit's clusters are on. -/
def Chip.unitOn (s : Chip) (u : Nat) : Bool :=
  if u < 8 then s.domOn (regionDom u) && s.domOn (homeDom u)
  else s.domOn 176 && s.domOn 177 && (s.domOn 178 || s.domOn 179)

/-- A named item is skipped from the start (R365, R366, R368). -/
def Chip.testSkips (s : Chip) (kind i : Nat) : Bool :=
  match kind with
  | 1 => !s.unitOn i || (decide (i = 8) && s.moversActive)
  | 2 => !s.unitOn i
  | 3 | 6 => decide (i = 8) || !s.unitOn i
  | 4 => !s.domOn i
  | 5 => !s.is F.SLT_CTRL.EN i
  | _ => false

/-- The domains that a test holds (Table 19.3). -/
def testDoms (kind named : Nat) : List Nat :=
  match kind with
  | 4 => bitsSet named 128
  | 5 | 7 => []
  | 6 => (bitsSet named 8).map regionDom
  | _ => (bitsSet named 8).flatMap (fun r => [regionDom r, homeDom r]) ++ (if bitAt named 8 then [176, 177, 178, 179] else [])

/-- Regions that a test takes out of service. -/
def TestX.regions (t : TestX) : List Nat :=
  if t.kind = 2 ∨ t.kind = 3 then (bitsSet t.named 8).filter (fun r => !bitAt t.skipped r) else []

/-! ## SELF_TEST -/

/-- A request that starts no test: its result, in BST_STS too unless a test is running. -/
def Chip.testRefuse (s : Chip) (kind : Nat) (q : ReqId) (result cause : Nat) : Chip :=
  let s := if s.test.isSome then s else (s.set F.BST_STS.TEST kind).set F.BST_STS.RESULT result
  s.reply q 0 [result + cause * 2 ^ 8, 0, 0, 0]

/-- SELF_TEST with TEST code `kind` (R365, R370, Table 19.2). -/
def selfTest (kind : Nat) (q : ReqId) (ws : List W) (s : Chip) : Chip :=
  let named := testMask kind ws
  let items := bitsSet named (testWidth kind)
  if named = 0 ∨ 2 ^ testWidth kind ≤ named then s.testRefuse kind q 8 0
  else if (kind = 2 ∨ kind = 3) ∧ s.lc ≠ 1 ∧ s.lc ≠ 3 then s.testRefuse kind q 2 0
  else if s.test.isSome then s.testRefuse kind q 4 0
  else if kind = 4 ∧ (items.any (fun c => (s.coverOf c).isSome || s.is F.CEL_LINK_CFG.TEST_EN c)) = true then s.testRefuse kind q 5 0
  else if s.is F.FLT_SAFE_STS.SAFE then s.testRefuse kind q 6 0
  else if kind = 2 ∧ bitAt named 8 ∧ s.moversActive then s.testRefuse kind q 3 9
  else
    let skipped := maskOf (items.filter (s.testSkips kind))
    let expect := if kind = 3 then (List.range 8).map (fun r => wordAt ws (1 + 2 * r) * 2 ^ 32 + wordAt ws (2 + 2 * r)) else []
    let t : TestX := { q := q, kind := kind, named := named, skipped := skipped, expect := expect, since := s.time }
    let down := t.regions
    let s := (s.set F.BST_STS.BUSY 1).set F.BST_STS.TEST kind
    let s := if kind = 1 then s.wr .BST_SKIPPED 0 0 0 else s
    let x := s.pw
    let hold := if down.isEmpty then (testDoms kind named).filter s.domOn
      else (closure domsBelow (down.map regionDom)).filter s.domOn
    if down.isEmpty then { s with test := some t, pw := { x with testing := hold } }
    else ({ s with test := some { t with waits := true, doms := hold } } : Chip).pwrSubmit { src := .test, action := 1, named := down.map regionDom }

/-! ## Sections of the in-service memory test (R368) -/

/-- Sections of 64 words of a unit's cluster. -/
def sectionsOf (u c : Nat) : Nat := clusterWords u c / 64

def Chip.modTest (s : Chip) (f : TestX → TestX) : Chip := { s with test := s.test.map f }

def sameSect (u c n : Nat) (x : TestSect) : Bool := decide (x.unit = u) && decide (x.c = c) && decide (x.ix = n)

/-- TEST_SECTION_TIMEOUT: a section is not done within 2 µs; it is retried three times, then skipped. -/
def sectionTimeout (u c n : Nat) (s : Chip) : Chip :=
  match s.test with
  | none => s
  | some t =>
    if t.kind ≠ 1 ∨ bitAt t.named u = false ∨ bitAt t.skipped u = true ∨ sectionsOf u c ≤ n then s
    else match t.sects.find? (sameSect u c n) with
      | none => s.modTest (fun t => { t with sects := t.sects ++ [{ unit := u, c := c, ix := n, tries := 0, busy := false, since := s.time }] })
      | some x =>
        if !x.busy || decide (s.time < x.since + 2 * usT) then s
        else if x.tries ≥ 3 then
          (s.bump F.BST_SKIPPED.SECTIONS 1).modTest (fun t => { t with sects := t.sects.filter (fun y => !sameSect u c n y) })
        else s.modTest (fun t => { t with
          sects := t.sects.map (fun (y : TestSect) => if sameSect u c n y then { y with busy := false, since := s.time } else y) })

/-- TEST_SECTION_RETRY: 100 µs after the timeout. -/
def sectionRetry (u c n : Nat) (s : Chip) : Chip :=
  match s.test with
  | none => s
  | some t =>
    match t.sects.find? (sameSect u c n) with
    | none => s
    | some x =>
      if x.busy || decide (s.time < x.since + 100 * usT) then s
      else s.modTest (fun t => { t with
        sects := t.sects.map (fun (y : TestSect) => if sameSect u c n y then { y with busy := true, tries := y.tries + 1, since := s.time } else y) })

/-! ## The end of a test (R369, R370) -/

/-- Domains taken out of service wake; their boundaries open. -/
def Chip.wakeTested (s : Chip) : Chip :=
  let x := s.pw
  let l := x.testing.filter (fun d => !s.domOn d)
  let s : Chip := { s with pw := { x with testing := [] } }
  foldl' (l.filterMap bndOf) (fun b s => s.openBnd b.1 b.2) (s.switchOn l)

/-- What a full memory BIST of the hub leaves: buffers zero, and a recovery load (R266, R369). -/
def Chip.hubBist (s : Chip) : Chip :=
  ({ s with sram := [], dmaRam := [], merge := [], badWords := s.badWords.filter (fun x => decide (x.1 = 3) || decide (x.1 = 4)) } : Chip).recoveryLoad

/-- Saved words found uncorrectable when a section was restored: written poisoned in their own arrays (R368, Table 15.3). -/
def Chip.poisonRestored (s : Chip) (bad : List (Nat × Nat × Nat)) : Chip :=
  foldl' bad (fun x s =>
    let s := s.eccUncorr x.1 x.2.1 x.2.2
    if x.1 = 8 then s.markBad x.2.1 x.2.2 else s) s

/-- SELF_TEST_END: the units, cells, slots or sensors that failed, the signatures measured, the words poisoned at restore. -/
def selfTestEnd (failed : Nat) (sigs : List Nat) (bad : List (Nat × Nat × Nat)) (s : Chip) : Chip :=
  match s.test with
  | none => s
  | some t =>
    if t.waits then s
    else
      let run (i : Nat) : Bool := bitAt t.named i && !bitAt t.skipped i
      let s := if t.kind = 1 then s.poisonRestored bad else s
      let s := if t.kind = 2 ∧ run 8 then s.hubBist else s
      let s := if t.kind = 3 then
          foldl' ((List.range 8).filter run) (fun r s =>
            let v := sigs.getD r 0 % 2 ^ 64
            (s.wr .BST_LBIST_SIG_LO r 0 (w32 v)).wr .BST_LBIST_SIG_HI r 0 (w32 (v / 2 ^ 32))) s
        else s
      let mine := (List.range (if t.kind = 7 then 10 else testWidth t.kind)).filter (fun i =>
        if t.kind = 7 then bitAt failed i
        else run i && (bitAt failed i || (decide (t.kind = 3) &&
          decide (t.expect.getD i 0 ≠ 0) && decide (t.expect.getD i 0 ≠ sigs.getD i 0 % 2 ^ 64))))
      let s := if t.kind = 4 then
          foldl' (List.range 4) (fun w s => s.wr .BST_CELL_FAIL w 0 (w32 (maskOf mine / 2 ^ (32 * w)))) s
        else s
      let w2 := if t.kind = 4 then mine.length else maskOf mine
      let more := if t.kind = 3 then
          (List.range 8).flatMap (fun r => [(s.rd .BST_LBIST_SIG_HI r).toNat, (s.rd .BST_LBIST_SIG_LO r).toNat])
        else []
      (s.testDone { t with skipped := if t.kind = 4 then 0 else t.skipped } (if mine.isEmpty then 0 else 1) 0 w2 more).wakeTested

/-- Entry to safe state ends the test with ABORTED; regions taken out of service wake when safe state is left (Table 19.3). -/
def Chip.testAbort (s : Chip) : Chip :=
  match s.test with
  | none => s
  | some t =>
    let x := s.pw
    let keep := if t.regions.isEmpty || t.waits then [] else x.testing
    let s : Chip := { s with pw := { x with testing := keep, queue := x.queue.filter (fun c => decide (c.src ≠ .test)) } }
    let s := s.testDone t 7 0 0 []
    if t.kind = 2 ∧ bitAt t.named 8 ∧ !bitAt t.skipped 8 then s.hubBist else s

/-- A slot channel whose EN goes to 0 during test 5 is skipped (Table 19.3). -/
def Chip.testSlots (s : Chip) : Chip :=
  match s.test with
  | some t =>
    if t.kind = 5 then
      s.modTest (fun t => { t with skipped := maskOf ((bitsSet t.named 32).filter (fun k => bitAt t.skipped k || !s.is F.SLT_CTRL.EN k)) })
    else s
  | none => s

/-! ## Life cycle (R372 to R376) -/

/-- LCS_ registers follow the fuses (R372). -/
def Chip.decodeLc (s : Chip) : Chip :=
  let f := s.fuses
  let s := (s.set F.LCS_STATE.STATE f.state).set F.LCS_STATE.KEY_FUSED (b2n f.keyDone)
  let s := (s.set F.LCS_STATE.KEY_REVOKED (b2n f.revoked)).set F.LCS_STATE.DEBUG_OPEN (b2n (decide (f.state ≠ 2)))
  (s.wr .LCS_CHIP_ID_LO 0 0 (w32 f.chipId)).wr .LCS_CHIP_ID_HI 0 0 (w32 (f.chipId / 2 ^ 32))

/-- A transition of Table 19.4 by LC_ADVANCE. -/
def advances (lc target : Nat) : Bool :=
  (decide (lc = 0) && decide (target = 1)) || (decide (lc = 1) && decide (target = 2)) ||
    (decide (target = 4) && (decide (lc = 0) || decide (lc = 1) || decide (lc = 3)))

/-- The result of a life-cycle command that programs nothing (Table 19.5). -/
def Chip.lcRefuse (s : Chip) (q : ReqId) (result : Nat) : Chip :=
  (s.set F.LCS_STATE.LAST_RESULT result).reply q 0 [result]

/-- Fuse programming begins (R373). -/
def Chip.lcProgram (s : Chip) (q : ReqId) (target hash : Nat) : Chip :=
  ({ s with lcJob := some { q := q, target := target, hash := hash } } : Chip).set F.LCS_STATE.PROGRAMMING 1

/-- The 48-byte key hash of LC_ADVANCE. -/
def wordsNat (ws : List W) (i n : Nat) : Nat := ((ws.drop i).take n).foldl (fun a w => a * 2 ^ 32 + w.toNat) 0

/-- LC_ADVANCE: w0 [2:0] target; for Field w1 to w12 the key hash. -/
def lcAdvance (q : ReqId) (ws : List W) (s : Chip) : Chip :=
  let target := bitsOf (wordAt ws 0) 0 3
  let hash := wordsNat ws 1 12
  if !advances s.lc target then s.lcRefuse q 1
  else if target = 2 ∧ s.fuses.keyHash &&& hash ≠ s.fuses.keyHash then s.lcRefuse q 2
  else if target = 2 ∧ s.fld F.IMG_STS.STATE ≠ 1 then s.lcRefuse q 4
  else if s.test.isSome ∨ s.lcJob.isSome then s.lcRefuse q 7
  else s.lcProgram q target hash

/-- LC_RETURN, phase 0: chip ID and challenge. -/
def lcChallenge (q : ReqId) (s : Chip) : Chip :=
  if s.test.isSome ∨ s.lcJob.isSome then s.lcRefuse q 7
  else
    let c := Config.entropy s.freeCtr % 2 ^ 128
    let s := ({ s with challenge := some (c, s.time) } : Chip).useFree
    let id := s.fuses.chipId
    (s.set F.LCS_STATE.LAST_RESULT 0).reply q 0
      [0, id / 2 ^ 32, id % 2 ^ 32, c / 2 ^ 96, c / 2 ^ 64 % 2 ^ 32, c / 2 ^ 32 % 2 ^ 32, c % 2 ^ 32]

/-- LC_RETURN, phase 1: the token of R374; it uses up the challenge. -/
def lcToken (q : ReqId) (ws : List W) (s : Chip) : Chip :=
  let held := s.challenge
  let s : Chip := { s with challenge := none }
  let id := wordsNat ws 1 2
  let c := wordsNat ws 3 4
  let key := bytesOfWords ((ws.drop 7).take 24)
  let sig := bytesOfWords ((ws.drop 31).take 24)
  let msg := [0x56, 0x52, 0x45, 0x54] ++ bytesOfWords ((ws.drop 1).take 6)
  if (held.map (·.1)) ≠ some c then s.lcRefuse q 5
  else if id ≠ s.fuses.chipId then s.lcRefuse q 6
  else if s.test.isSome ∨ s.lcJob.isSome then s.lcRefuse q 7
  else if !(s.fuses.keyOk key && Config.ecdsaOk key msg sig) then s.reply q 0x11 []
  else s.lcProgram q 3 0

/-- LC_CHALLENGE_EXPIRE: 600 s. -/
def challengeExpire (s : Chip) : Chip :=
  match s.challenge with
  | some (_, t) => if s.time < t + 600 * secT then s else { s with challenge := none }
  | none => s

/-- Fuses that a completed transition has blown (Table 19.4). -/
def Fuses.advance (f : Fuses) (j : LcJob) : Fuses :=
  match j.target with
  | 2 => { f with keyHash := f.keyHash ||| j.hash, keyDone := true, closure := true, state := 2 }
  | 4 => { f with revoked := true, state := 4 }
  | t => { f with state := t }

/-- Fuse programming ends: verified, or a fuse failed, which leaves the state and the key hash bits `left` (among those given)
blown. The reply is sent; whether a warm reset follows is told. -/
def Chip.lcEnd (s : Chip) (ok : Bool) (left : Nat) : Chip × Bool :=
  match s.lcJob with
  | none => (s, false)
  | some j =>
    let s := ({ s with lcJob := none } : Chip).set F.LCS_STATE.PROGRAMMING 0
    if ok then
      let f := s.fuses.advance j
      (({ s with fuses := f } : Chip).lcRefuse j.q 0, true)
    else
      let f := s.fuses
      let f : Fuses := if j.target = 2 then { f with keyHash := f.keyHash ||| (left &&& j.hash) } else f
      (({ s with fuses := f } : Chip).lcRefuse j.q 3, false)

end Sys2Proof.Machine
end

