-- ==== Sys2Proof/Machine/Safe.lean ====
section
/-! DEFINITION. Safe state: entering it (R281, R282, Table 14.6) and leaving it by FAULT_RESUME (R288, R289, R292), as
spec/14_fault_handling.md gives them. -/

namespace Sys2Proof.Machine

/-! ## Entry (Table 14.6) -/

/-- A port goes down for safe state and is as before its wave (R270). -/
def Chip.portSafe (p : Nat) (s : Chip) : Chip :=
  let s := if s.role p = 0 then s else s.goDown p ltInactive
  s.modPort p (fun x => { x with waved := false, step := 0, downSince := none })

/-- Every test loop ends (R59). -/
def Chip.cellTestEnd (c : Nat) (s : Chip) : Chip :=
  (((s.set F.CEL_LINK_CFG.TEST_EN 0 c).set F.CEL_LINK_CFG.LOOP_MODE 0 c).endTest c).driveCsb c

/-- The output groups of Table 14.7. -/
def Chip.safeOutputs (s : Chip) : Chip :=
  let s : Chip := { s with waves := [] }
  foldl' (List.range numCells) Chip.cellTestEnd (s.driveFail.slotsSafe)

/-- Entry to safe state for a class F error of collector `c`. An error raised in safe state is only recorded. -/
def Chip.enterSafe (s : Chip) (c : Nat) : Chip :=
  if s.is F.FLT_SAFE_STS.SAFE then s
  else
    let s := ((s.set F.FLT_SAFE_STS.SAFE 1).set F.FLT_SAFE_STS.FIRST c).bump F.FLT_SAFE_STS.ENTRIES 1
    let s := (s.count (cntChip 4)).safeOutputs
    let s := s.testAbort.pwrSafe
    let s := s.abortWhere (fun _ => true) (fun _ => 9)
    let s := foldl' (List.range numCells) Chip.portSafe s
    (foldl' (List.range numCells) (fun p s => s.driveCsb p) s).safeEvent (s.fld F.FLT_SAFE_STS.FIRST)

/-! ## Leaving it (R288, R292) -/

/-- The lowest collector with an open record of class F. -/
def Chip.openF (s : Chip) : Option Nat :=
  (List.range 169).find? (fun c => s.is F.FLT_REC_STS.OPEN c && decide (s.fld F.FLT_REC_STS.CLASS c = clsF))

/-- The result of a FAULT_RESUME: its code and word 1; code 0 where it is accepted. -/
def Chip.resumeCheck (s : Chip) (mode : Nat) : Nat × Nat :=
  if !s.is F.FLT_SAFE_STS.SAFE then (1, 0)
  else match s.openF with
    | some c => (2, c)
    | none => if mode = 0 ∧ s.fld F.IMG_STS.STATE ≠ 1 then (3, 0) else (0, 0)

/-- Safe state is left in mode 0: healthy code, slot gates, waves from now. -/
def Chip.leaveSafe (s : Chip) : Chip :=
  let s : Chip := { s with dieLost := false }
  let s := (s.set F.FLT_SAFE_STS.SAFE 0).driveFail
  (s.slotsLeave.wakeTested.wavesFromNow).safeEvent chipCollector

/-- FAULT_RESUME: its reply, and whether a warm reset follows. -/
def Chip.resume (s : Chip) (mode : Nat) (q : ReqId) : Chip × Bool :=
  let (code, w1) := s.resumeCheck mode
  if code ≠ 0 then (s.reply q 0 [code, w1], false)
  else if mode = 0 then (s.leaveSafe.reply q 0 [0, 0], false)
  else (s.reply q 0 [0, 0], true)

end Sys2Proof.Machine
end

