-- ==== Sys2Proof/Machine/Eth.lean ====
section
/-! DEFINITION. The management ports: links (R228, R231), frames (R229, R230, R233), policers (R100), MACsec keys (R232), as
spec/12_management_plane.md and spec/05_service_classes_and_contracts.md give them. -/

namespace Sys2Proof.Machine

def Chip.ethx (s : Chip) (e : Nat) : EthX := s.eth.get {} e
def Chip.setEth (s : Chip) (e : Nat) (x : EthX) : Chip := { s with eth := s.eth.set {} e x }
def Chip.modEth (s : Chip) (e : Nat) (f : EthX → EthX) : Chip := s.setEth e (f (s.ethx e))

/-! ## Settings in force -/

/-- Domain of a port. -/
def ethDom (e : Nat) : Nat := 178 + e

def Chip.ethUp (s : Chip) (e : Nat) : Bool := s.is F.ETH_PORT_STS.LINK_UP e && s.domOn (ethDom e)

/-- IP MTU (R229). -/
def Chip.mtu (s : Chip) (e : Nat) : Nat := if bitAt (s.ethx e).cfg 15 then 9000 else 1500

/-- Most bytes of a KMP message (R234). -/
def Chip.kmpMax (s : Chip) (e : Nat) (ipv6 : Bool) : Nat := s.mtu e - (if ipv6 then 40 else 20) - 8

/-- MACsec is required (R233). -/
def Chip.macsecReq (s : Chip) (e : Nat) : Bool := decide (s.lc = 2) || bitAt (s.ethx e).cfg 14

def Chip.secured (s : Chip) (e : Nat) : Bool := s.is F.ETH_PORT_STS.SECURED e

/-- The port carries frames other than EAPOL. -/
def Chip.ethCarries (s : Chip) (e : Nat) : Bool := s.ethUp e && (!s.macsecReq e || s.secured e)

/-! ## Policers (R100) -/

/-- Unit of a bucket: 1/128000 byte, so that RATE in Mb/s is what one sixteenth of a nanosecond brings. -/
def ethUnit : Nat := 128000

def Chip.polCeil (s : Chip) (e i : Nat) : Nat := max 1 (s.fld F.QOS_EPOL_CFG.DEPTH e i) * 1024 * ethUnit

/-- The buckets of a port as they stand now. -/
def Chip.polRefill (s : Chip) (e : Nat) : Chip :=
  let dt := s.time - (s.ethx e).filledAt
  s.modEth e (fun x => { x with
    filledAt := s.time
    tokens := (List.range 8).foldl (fun (t : Tab Nat) i => t.modify 0 i (fun v => min (v + s.fld F.QOS_EPOL_CFG.RATE e i * dt) (s.polCeil e i))) x.tokens })

/-- A link that comes up fills the buckets. -/
def Chip.polFill (s : Chip) (e : Nat) : Chip :=
  s.modEth e (fun x => { x with
    filledAt := s.time, tokens := (List.range 8).foldl (fun (t : Tab Nat) i => t.set 0 i (s.polCeil e i)) x.tokens })

/-- A frame dropped by a policer. -/
def Chip.polDrop (s : Chip) (e i bytes : Nat) : Chip :=
  let n := (s.ethx e).rest.get 0 i + bytes
  let s := s.modEth e (fun x => { x with rest := x.rest.set 0 i (n % 1024) })
  ((s.bump F.QOS_EPOL_DROP.FRAMES 1 e i).bump F.QOS_EPOL_DROP_KB.KIB (n / 1024) e i).count (cntEth e 5)

/-- A frame of `wire` bytes meets policer `i`. -/
def Chip.police (s : Chip) (e i wire : Nat) : Chip :=
  let s := s.polRefill e
  let rate := s.fld F.QOS_EPOL_CFG.RATE e i
  let cost := (wire + 20) * ethUnit
  if rate = 0x1FFFF then s
  else if rate = 0 then s.polDrop e i (wire + 20)
  else
    let have_ := (s.ethx e).tokens.get 0 i
    if cost ≤ have_ then s.modEth e (fun x => { x with tokens := x.tokens.set 0 i (have_ - cost) })
    else s.polDrop e i (wire + 20)

/-- A write of QOS_EPOL_CFG: the bucket has filled at the old rate until now. -/
def polCfgWrite (e i : Nat) (v : W) (s : Chip) : Chip :=
  (s.polRefill e).wr .QOS_EPOL_CFG e i (w32 (v.toNat &&& readMask .QOS_EPOL_CFG))

/-- Opcodes of policer 3. -/
def bulkOpcode (o : Nat) : Bool := decide (o = 0x0110) || decide (o = 0x0111) || decide (o = 0x0120) || (decide (0x0700 ≤ o) && decide (o ≤ 0x0703))

/-- Policer of a frame (Table 5.5); `known` tells whether the header names a session established for its key. -/
def policerOf (known : Bool) : FrameClass → Nat
  | .arp => 0
  | .nd => 0
  | .eapol => 1
  | .kmp _ _ _ o => if !known then 2 else if bulkOpcode o then 3 else 4
  | .icmp => 5
  | .ip => 6
  | .other => 7

/-! ## ETH_FRAME_RECEIVE (R229, R233, R100) -/

/-- The MAC accepts the frame: its tag, its length. -/
def Chip.macTakes (s : Chip) (e : Nat) (f : FrameIn) : Bool :=
  let cfg := (s.ethx e).cfg
  let vlan := bitsOf cfg 16 12
  let top := if bitAt cfg 15 then 9018 else 1518
  decide (f.tags = if vlan = 0 then [] else [vlan]) && decide (f.len ≤ top + 4 * f.tags.length)

/-- A frame arrives. What a frame that passes asks for is the command of its own that follows. -/
def frameReceive (e : Nat) (known : Bool) (f : FrameIn) (s : Chip) : Chip :=
  if !s.ethUp e then s
  else if f.fcsBad then s.count (cntEth e 2)
  else
    let s := s.count (cntEth e 0)
    if f.pause || !s.macTakes e f then s
    else if f.cls ≠ .eapol ∧ ((s.macsecReq e ∧ s.secured e = false) ∨ (s.secured e ∧ f.macsec = 0)) then
      (s.bump F.ETH_UNSEC_DROP.FRAMES 1 e).count (cntEth e 4)
    else if f.macsec = 2 ∨ (f.macsec = 1 ∧ s.secured e = false) then (s.bump F.ETH_MACSEC_DROP.FRAMES 1 e).count (cntEth e 3)
    else s.police e (policerOf known f.cls) f.wire

/-! ## Links (R228, R231) -/

/-- A PHY and a FEC that Table 12.1 lets a mode resolve to. -/
def phyOk (cfg phy fec : Nat) : Bool :=
  let m := bitsOf cfg 0 3
  let adv := match phy with
    | 1 => bitAt cfg 12
    | 2 => bitAt cfg 11
    | 4 => bitAt cfg 10
    | 5 => bitAt cfg 9
    | 6 => bitAt cfg 8
    | _ => false
  (if m = 0 ∨ m = 7 then adv else decide (phy = m)) &&
    (match phy with
      | 1 | 2 => decide (fec = 1)
      | 3 => decide (fec = 0)
      | 5 => decide (fec = 0) || decide (fec = 2) || decide (fec = 3)
      | _ => decide (fec = 0) || decide (fec = 3))

/-- ETH_LINK_UP: the settings of ETH_PORT_CFG are in force from here. -/
def ethLinkUp (e phy fec : Nat) (s : Chip) : Chip :=
  let cfg := (s.rd .ETH_PORT_CFG e).toNat
  if s.ethUp e || !s.domOn (ethDom e) || s.pw.dormant || decide (s.boot = 0) || !bitAt cfg 13 || !phyOk cfg phy fec then s
  else
    let s := s.modEth e (fun x => { x with cfg := cfg, server := false, saks := 0 })
    let s := (s.set F.ETH_PORT_STS.LINK_UP 1 e).set F.ETH_PORT_STS.PHY phy e
    (s.set F.ETH_PORT_STS.FEC fec e).polFill e

/-- A link goes down: its sessions end, its secure association too. -/
def ethLinkDown (e : Nat) (s : Chip) : Chip :=
  if !s.is F.ETH_PORT_STS.LINK_UP e then s
  else
    let s := foldl' [F.ETH_PORT_STS.LINK_UP, F.ETH_PORT_STS.PHY, F.ETH_PORT_STS.FEC, F.ETH_PORT_STS.SECURED] (fun f s => s.set f 0 e) s
    let s := (s.bump F.ETH_PORT_STS.LINK_DOWNS 1 e).count (cntEth e 14)
    (s.modEth e (fun x => { x with server := false, saks := 0 })).post (.endPort e)

/-- A write of ETH_PORT_CFG: in force at the next link restart, and EN = 0 takes the link down. -/
def ethCfgWrite (e : Nat) (v : W) (s : Chip) : Chip :=
  let s := s.wr .ETH_PORT_CFG e 0 (w32 (accessWrite .ETH_PORT_CFG false (s.rd .ETH_PORT_CFG e).toNat v.toNat))
  if bitAt v.toNat 13 then s else ethLinkDown e s

/-! ## Addresses (R230, R264) -/

/-- The link-local address of a MAC address: modified EUI-64. -/
def linkLocal (mac : List Byte) : Nat :=
  0xFE80 * 2 ^ 112 + beNat ((mac.take 1).map (· ^^^ 2) ++ (mac.drop 1).take 2 ++ [0xFF, 0xFE] ++ mac.drop 3)

def Chip.ownsIp6 (s : Chip) (e ip : Nat) : Bool :=
  (decide ((s.ethx e).ip6 ≠ 0) && decide (ip = (s.ethx e).ip6)) || decide (ip = linkLocal (s.ethx e).mac)
def Chip.ownsIp4 (s : Chip) (e ip : Nat) : Bool := decide ((s.ethx e).ip4 ≠ 0) && decide (ip = (s.ethx e).ip4)

/-- A frame of the port's own leaves it. -/
def Chip.ethSend (s : Chip) (e : Nat) (o : Output) : Chip := if s.ethCarries e then (s.out o).count (cntEth e 1) else s

/-- ARP_REQUEST and NEIGHBOUR_SOLICITATION for an address, ICMP_ECHO_REQUEST to an address with its payload. -/
def arpRequest (e ip : Nat) (s : Chip) : Chip :=
  if s.ethCarries e && s.ownsIp4 e ip then s.ethSend e (.ethReply e 0 (s.ethx e).mac) else s
def neighbourSol (e ip : Nat) (s : Chip) : Chip :=
  if s.ethCarries e && s.ownsIp6 e ip then s.ethSend e (.ethReply e 1 (s.ethx e).mac) else s
def icmpEcho (e : Nat) (v6 : Bool) (ip : Nat) (data : List Byte) (s : Chip) : Chip :=
  if s.ethCarries e && (if v6 then s.ownsIp6 e ip else s.ownsIp4 e ip) then s.ethSend e (.ethReply e (if v6 then 3 else 2) data) else s

/-- The fused MAC address of a port. -/
def Fuses.mac (f : Fuses) (e : Nat) : List Byte := if e = 0 then f.macA else f.macB

/-- A port takes its fused identity: no addresses but link-local, no MKA. -/
def Chip.fusedIdentity (s : Chip) (e : Nat) : Chip :=
  s.modEth e (fun x => { x with mac := s.fuses.mac e, ip4 := 0, ip4Len := 0, ip6 := 0, ip6Len := 0, ckn := [], cak := [], prio := 0 })

/-- A port takes a record of Table 13.6. -/
def Chip.identity (s : Chip) (e : Nat) (d : List Byte) : Chip :=
  let n := beAt d 32 1
  s.modEth e (fun x => { x with
    mac := if beAt d 0 6 = 0 then s.fuses.mac e else d.take 6
    ip4 := beAt d 8 4, ip4Len := beAt d 12 1, ip6Len := beAt d 13 1, ip6 := beAt d 16 16
    ckn := if n ≤ 32 then (d.drop 36).take n else [], cak := if n = 0 then [] else (d.drop 68).take 32, prio := beAt d 33 1 })

/-! ## MACsec keys (R232) -/

/-- A frame of the key agreement is sent: 0 without, 1 with a new SAK. -/
def Chip.eapolSend (s : Chip) (e what : Nat) : Chip := (s.out (.eapol e what)).count (cntEth e 1)

/-- MKA_FRAME. A live peer of the configured CKN whose check passes takes part; the key server distributes the SAK, and the
association is in use once both have it. -/
def mkaFrame (e : Nat) (m : MkaIn) (s : Chip) : Chip :=
  let x := s.ethx e
  if !s.ethUp e || x.ckn.isEmpty || decide (m.ckn ≠ x.ckn) || !m.good then s
  else if !m.live then s.eapolSend e 0
  else
    let server := decide (x.prio < m.priority) || (decide (x.prio = m.priority) && !m.wins)
    let s := s.modEth e (fun x => { x with server := server })
    if server then
      if x.saks = 0 then (s.modEth e (fun x => { x with saks := 1 })).eapolSend e 1
      else if m.inUse then s.set F.ETH_PORT_STS.SECURED 1 e
      else s.eapolSend e 1
    else if m.sak then (s.set F.ETH_PORT_STS.SECURED 1 e).eapolSend e 0
    else s

/-- SAK_REKEY: the transmit packet number `pn` has passed 2^62 and the TH512 is the key server. -/
def sakRekey (e pn : Nat) (s : Chip) : Chip :=
  if s.ethUp e && s.secured e && (s.ethx e).server && decide (2 ^ 62 < pn) then
    (s.modEth e (fun x => { x with saks := x.saks + 1 })).eapolSend e 1
  else s

end Sys2Proof.Machine
end

