-- ==== Sys2Proof/Machine/Mas.lean ====
section
/-! DEFINITION. The management address space (spec/20_register_map.md): its map (R380, R381), what a read returns and what a
write does (R4, R5, R382 to R386), and the accesses of its initiators under the MPU (R141 to R147, R383). -/

namespace Sys2Proof.Machine

/-! ## The map (R380, R381) -/

/-- What lies at an address; for a register, its key and the number of the block instance that the address names. -/
inductive MasAt where
  | sram
  | rom
  | reg (g : Reg) (inst : Nat)
  | unmapped
  deriving DecidableEq, Repr

/-- The register of name `n` at an offset of its block's instance. -/
def RName.atOffset (n : RName) (inst off : Nat) : Option Reg :=
  let p := n.place
  if off < p.base then none
  else
    let d := off - p.base
    let (i, d) := if p.ci ≤ 1 then (0, d) else (d / p.si, d % p.si)
    let (j, d) := if p.cj ≤ 1 then (0, d) else (d / p.sj, d % p.sj)
    if i < p.ci ∧ j < p.cj ∧ d = 0 then some ⟨n, inst * p.mult + i, j⟩ else none

/-- The register at an offset of a block. -/
def RBlock.find (b : RBlock) (inst off : Nat) : Option Reg := (b.names).findSome? (fun n => n.atOffset inst off)

/-- Blocks that share a window, each with its instance. -/
def findIn (inst off : Nat) (l : List (RBlock × Nat)) : MasAt :=
  match l.findSome? (fun b => b.1.find b.2 off) with
  | some g => .reg g inst
  | none => .unmapped

/-- Offset in the window of region `r` (Table 20.3). -/
def regionAt (r off : Nat) : MasAt :=
  let o := off % 0x01000000
  match off / 0x01000000 with
  | 0 => if o < 0x10000 then findIn r o [(.rgn, r)] else findIn r (o - 0x10000) [(.flt, regionCollector r)]
  | 8 => findIn r o [(.buf, r)]
  | 9 => findIn r o [(.dec, r)]
  | 10 => findIn r o [(.grv, r)]
  | 11 => findIn r o [(.ert, r)]
  | 12 => findIn r o [(.noc, r)]
  | 13 => findIn r o [(.ecc, r)]
  | b + 1 =>
    if b ≥ 4 then .unmapped
    else
      let o' := o % 0x00100000
      match o / 0x00100000 with
      | 0 => findIn r o' [(.flt, blockCollector (4 * r + b))]
      | c + 1 =>
        if c ≥ 4 then .unmapped
        else
          let n := 16 * r + 4 * b + c
          findIn n o' [(.flt, n), (.cell, n)]

/-- Offset in the CHP_ window (Table 20.2). -/
def chpAt (off : Nat) : MasAt :=
  let o := off % 0x00100000
  match off / 0x00100000 with
  | 0 => findIn 0 o [(.chp, 0)]
  | 1 => findIn 0 o [(.vcs, 0)]
  | 2 => findIn 8 o [(.noc, 8), (.nochub, 0)]
  | 3 => findIn 8 o [(.ecc, 8), (.ecchub, 0)]
  | _ => .unmapped

/-- What lies at an address (Table 20.1). -/
def masAt (a : Nat) : MasAt :=
  if a < 0x00400000 then .sram
  else if 0x04000000 ≤ a ∧ a < 0x04040000 then .rom
  else if a < 0x100000000 then
    let o := a % 0x10000000
    match a / 0x10000000 with
    | 1 => chpAt o
    | 2 => findIn 0 o [(.flt, chipCollector), (.fltchip, 0)]
    | 3 => findIn 0 o [(.pwr, 0)]
    | 4 => findIn 0 o [(.tmb, 0)]
    | 5 => findIn 0 o [(.slt, 0)]
    | 6 => findIn 0 o [(.eth, 0)]
    | 7 => findIn 0 o [(.mov, 0)]
    | 8 => findIn 0 o [(.cnt, 0)]
    | 9 => findIn 0 o [(.bst, 0)]
    | 10 => findIn 0 o [(.img, 0)]
    | 11 => findIn 0 o [(.mpu, 0)]
    | _ => .unmapped
  else if a < 0x180000000 then regionAt ((a - 0x100000000) / 0x10000000) ((a - 0x100000000) % 0x10000000)
  else .unmapped

/-- The address of a register (R380, R381): the base of its block, and its place there. -/
def blockBase (b : RBlock) (inst : Nat) : Nat :=
  let region (o : Nat) : Nat := 0x100000000 + 0x10000000 * inst + o
  match b with
  | .cell => 0x100000000 + 0x10000000 * (inst / 16) + 0x01000000 * (inst / 4 % 4 + 1) + 0x00100000 * (inst % 4 + 1)
  | .flt =>
    if inst < 128 then 0x100000000 + 0x10000000 * (inst / 16) + 0x01000000 * (inst / 4 % 4 + 1) + 0x00100000 * (inst % 4 + 1)
    else if inst < 160 then 0x100000000 + 0x10000000 * ((inst - 128) / 4) + 0x01000000 * ((inst - 128) % 4 + 1)
    else if inst < 168 then 0x100000000 + 0x10000000 * (inst - 160) + 0x10000
    else 0x20000000
  | .fltchip => 0x20000000
  | .rgn => region 0
  | .buf => region 0x08000000
  | .dec => region 0x09000000
  | .grv => region 0x0A000000
  | .ert => region 0x0B000000
  | .noc => if inst < 8 then region 0x0C000000 else 0x10200000
  | .ecc => if inst < 8 then region 0x0D000000 else 0x10300000
  | .nochub => 0x10200000
  | .ecchub => 0x10300000
  | .chp => 0x10000000
  | .vcs => 0x10100000
  | .pwr => 0x30000000
  | .tmb => 0x40000000
  | .slt => 0x50000000
  | .eth => 0x60000000
  | .mov => 0x70000000
  | .cnt => 0x80000000
  | .bst => 0x90000000
  | .img => 0xA0000000
  | .mpu => 0xB0000000

/-- Register `(i, j)` of instance `inst` of its block. -/
def RName.address (n : RName) (inst i j : Nat) : Nat :=
  blockBase n.place.block inst + n.place.base + n.place.si * i + n.place.sj * j

/-! ## Power domains (R384) -/

/-- Domain of a register that an address names, and whether an access wakes it. -/
def masDomain (g : Reg) (inst : Nat) : Option (Nat × Bool) :=
  match g.name.place.block with
  | .cell => some (inst, false)
  | .buf | .dec | .ert | .rgn => some (regionDom inst, true)
  | .grv => if g.name.place.mult = 1 then some (homeDom inst, false) else some (regionDom inst, true)
  | .ecc => if inst < 8 then some (regionDom inst, true) else some (176, true)
  | .ecchub | .mpu | .cnt | .bst => some (176, true)
  | .mov => some (177, true)
  | .img => some (180, true)
  | .eth => match g.name with
    | .KMP_CFG | .KMP_TIMING | .KMP_SESS_STS | .KMP_SESS_EVT => none
    | _ => some (ethDom g.i, false)
  | _ => none

/-- The boundary that an access of a domain passes: its region's, or its own (R218). -/
def domBnd (d : Nat) : Option (Nat × Nat) :=
  match domRegion d with
  | some r => some (r, 0)
  | none => bndOf d

/-- An access reaches a domain: as a packet at the boundary in front of it (R22, R219), which wakes it if it can; whether the domain
is on. -/
def Chip.masReach (s : Chip) (d : Option (Nat × Bool)) : Chip × Bool :=
  match d with
  | none => (s, true)
  | some (d, wakes) =>
    match domBnd d with
    | none => (s, s.domOn d)
    | some (n, h) =>
      if (s.domOn d && decide (s.fld F.NOC_BND_STS.STATE n h = 0)) || (!s.domOn d && !wakes) then (s, s.domOn d)
      else let s := s.accessWakes n h; (s, s.domOn d)

/-- Flits of a packet on network `net` from `node` to `dest`, at every router that forwards it (R19, R222). -/
def carry (net dest : Nat) : Nat → Nat → Chip → Chip
  | 0, _, s => s
  | k + 1, node, s =>
    let s := s.count (cntNode node net)
    if node = dest then s
    else match neighbour node (s.route node s.routeEpoch net dest) with
      | some n => carry net dest k n s
      | none => s

/-- An access to the window of a region crosses the interior network (R19, R214): its request from the hub on REQ, its response on
RSP, on the management channel. Both pass within the command: DESIGN CHOICE (log entry 138). -/
def Chip.masPackets (s : Chip) (a : Nat) : Chip :=
  if 0x100000000 ≤ a ∧ a < 0x180000000 then
    let r := (a - 0x100000000) / 0x10000000
    carry 1 hubNode 9 r (carry 0 r 9 hubNode s)
  else s

/-! ## What a read returns -/

/-- A register of a port that is not the lowest cell of one (spec/04, spec/05): `c` the cell. -/
def Chip.notLowest (s : Chip) (c : Nat) : Bool :=
  match s.coverOf c with
  | some p => decide (p ≠ c)
  | none => false

/-- Virtual bridges not Unbound of an instance. -/
def Chip.boundCount (s : Chip) (n : Nat) : Nat :=
  ((List.range 64).filter (fun v => decide (s.fld F.VCS_VPPB_STS.STATE n v ≠ 0))).length

/-- A fault log entry with an uncorrectable word (Table 15.3). -/
def Chip.logBad (s : Chip) (i : Nat) : Bool := (List.range 4).any (fun j => s.badWords.contains (4, 4 * i + j))

/-- LNK_PRBS_BITS of a lane, with the bits compared since it was last brought up to date (R61); it saturates. -/
def Chip.prbsBits (s : Chip) (c lane : Nat) : Nat :=
  min (2 ^ F.LNK_PRBS_BITS.BITS.width - 1) (s.fld F.LNK_PRBS_BITS.BITS c lane + s.prbsSpan c lane / prbsUnit)

/-- Stored value of a register as a read returns it. -/
def Chip.stored (s : Chip) (g : Reg) : Nat := (s.rd g.name g.i g.j).toNat &&& readMask g.name

/-- What a read returns of a register that shows the chip's state, or its stored value. `sess` gives KMP_SESS_STS and KMP_SESS_EVT
of the eight sessions. -/
def Chip.view (s : Chip) (sess : List (Nat × Nat)) (ini : Nat) (g : Reg) : Nat :=
  let v := s.stored g
  let i := g.i
  let j := g.j
  match g.name with
  | .LNK_PRBS_BITS => s.prbsBits i j
  | .CEL_LINK_STS => putBits v 16 3 (min 3 (s.within secT (s.port i).requal).length)
  | .BUF_POOL => s.sharedPool i * 2 ^ 16 + s.free i
  | .BUF_RSV => s.totalRsv i
  | .BUF_MC_STS =>
    let l := s.msgs.filter (fun m => decide (m.loc = .residue i))
    min 65535 ((l.map (fun m => (m.refs.filter (·.waiting)).length)).sum) * 2 ^ 16 + (l.map (fun m => m.shared + m.rsv)).sum % 2 ^ 15
  | .BUF_ICRED =>
    if s.role i = 0 then 0
    else putBits v 11 15 (((s.msgs.filter (inIngress i j)).map (fun m => m.shared + m.rsv)).sum)
  | .BUF_EQ =>
    if s.role i = 0 then 0 else putBits (putBits v 15 1 (b2n (!s.egOpen i j))) 0 15 (s.egHeld i j)
  | .QOS_CLASS | .QOS_WEIGHT0 | .QOS_WEIGHT1 | .QOS_CON_CFG | .QOS_CON_MIN | .QOS_CON_CAP => if s.notLowest i then 0 else v
  | .QOS_CON_STS =>
    if s.notLowest i then 0
    else
      let n := (s.msgs.filter (fun m => decide (m.loc = .ingress i) && m.metered && !m.released)).length
      putBits (putBits (putBits v 31 1 (b2n (decide (n ≠ 0)))) 30 1 (b2n (s.contracted i && decide (0 ≤ s.minNow i)))) 0 16
        (min n 65535)
  | .QOS_EGR_STS =>
    if s.notLowest i then 0
    else putBits v 0 12 (if s.role i = 0 then 0 else maskOf ((List.range 12).filter (fun sc => s.egPressed i sc)))
  | .VCS_POOL => min 2048 s.vppbAlloc * 2 ^ 16 + ((List.range 64).map s.boundCount).sum
  | .VCS_INST_STS =>
    putBits (putBits v 0 7 (s.boundCount i)) 28 1 (b2n (bitAt v 28 && decide (s.adm (s.usp i) = admIn)))
  | .VCS_VPPB_BIND | .VCS_VPPB_STS => if s.vppbCount i ≤ j then 0 else v
  | .DEC_WIN_EPOCH => (s.wins.get {} i).epoch
  | .DEC_WIN_BASE => (s.wins.get {} i).base.toNat
  | .DEC_WIN_SIZE => (s.wins.get {} i).size.toNat
  | .DEC_WIN_CFG => (s.wins.get {} i).cfg.toNat
  | .DEC_WIN_TGT_A => wordAt (s.wins.get {} i).ta j
  | .DEC_WIN_TGT_B => wordAt (s.wins.get {} i).tb j
  | .ACC_STS => putBits (putBits v 30 1 (b2n s.epochWait)) 0 4 (s.epLive i)
  | .GRV_SLICE_STS => (s.homeQueue i).length % 2 ^ 13 * 2 ^ 16 + s.locks i % 2 ^ 14
  | .GRV_STS =>
    putBits (putBits (putBits v 16 5 (s.gwins i).length) 8 7 (popCount (s.members i))) 0 7 (popCount (s.joined i))
  | .GRV_FELL => putBits v 27 1 (b2n (decide (s.writesOpen i ≠ 0)))
  | .GRV_SNOOP_TRACK => putBits v 0 13 ((s.snooped.filter (fun x => decide (x.1 / 16 = i))).length)
  | .SNF_STS => s.snfValid i
  | .ERT_STS =>
    let l := s.ert.filter (fun e => decide (e.key.port / 16 = i))
    (l.filter Ert.active).length * 2 ^ 24 + l.length
  | .NOC_BND_STS =>
    putBits v 0 16 (min 65535 ((s.msgs.filter (fun m => decide (m.toNode = i) && decide (m.boundary = j))).map
      (fun m => (m.parts.filter (fun p => p.atB && !p.landed)).length)).sum)
  | .ETH_PORT_STS => putBits v 24 1 (b2n (s.macsecReq i))
  | .KMP_SESS_STS => (sess.getD i (0, 0)).1
  | .KMP_SESS_EVT => (sess.getD i (0, 0)).2
  | .FLT_REC_STS => putBits v 27 1 (b2n (decide (s.liveBits i ≠ 0)))
  | .FLT_REC_LIVE => s.liveBits i
  | .FLT_LOG => if s.logBad i then (if j = 0 then 0xFF else 0) else v
  | .IMG_STS | .IMG_SEQ_LO | .IMG_SEQ_HI | .IMG_CORR | .IMG_SLOT_STS | .IMG_ENTRY_CNT | .IMG_ENTRY_FIRST | .IMG_RB =>
    if s.pw.loaderLost then 0 else v
  | .ECC_CL_ERR | .ECC_CL_ADDR | .ECC_SCRUB_CTRL | .ECC_SCRUB_END | .ECC_SCRUB_RES | .ECC_SCRUB_CNT | .ECC_SCRUB_FIRST
  | .ECC_SCRUB_LAST | .ECC_SCRUB_TIME | .ECC_REPAIR | .ECC_MP_WAIT | .ECC_MP_STS => if clusterWords (i / 16) (i % 16) = 0 then 0 else v
  | .PWR_DOM_STS => s.domWord i
  | .TMB_NOW_HI => (s.latch ini latTmb).getD 0 0
  | .TMB_NOW_FRAC => (s.latch ini latTmb).getD 1 0
  | .SLT_MEAS_V => if s.slOn i then (s.latch ini (latSlot i)).getD 0 0 else 0
  | .SLT_MEAS_VF => if s.slOn i then (s.latch ini (latSlot i)).getD 1 0 else 0
  | .SLT_MEAS_P => if s.slOn i then (s.latch ini (latSlot i)).getD 2 0 else 0
  | .SLT_MEAS_TEMP => if s.slOn i then (s.latch ini (latSlot i)).getD 3 0 else 0
  | .SLT_ENERGY_LO => if s.slOn i then (s.latch ini (latSlot i)).getD 4 0 else 0
  | .SLT_ENERGY_HI => if s.slOn i then (s.latch ini (latSlot i)).getD 5 0 else 0
  | .CNT_VAL_HI => (s.latch ini (latCnt i)).getD 0 0
  | .CNT_HIST_HI => putBits v 0 16 ((s.latch ini (latBin i j)).getD 0 0)
  | _ => v

/-- A read of a register: the four latching registers latch for the initiator (R386). -/
def Chip.regRead (s : Chip) (sess : List (Nat × Nat)) (ini : Nat) (g : Reg) : Chip × Nat :=
  match g.name with
  | .CNT_VAL_LO => s.readCounter ini g.i
  | .CNT_HIST_LO => s.readBin ini g.i g.j
  | .TMB_NOW_LO => s.readTime ini
  | .SLT_MEAS_I => s.readMeas ini g.i
  | _ => (s, s.view sess ini g % 2 ^ 32)

/-! ## What a write does -/

/-- A count that any 1 written clears. -/
def Chip.clearAny (s : Chip) (f : Fld) (v : W) (i j : Nat) : Chip :=
  if bitsOf v.toNat f.lo f.width ≠ 0 then s.set f 0 i j else s

/-- A write by access types; a locked RWL field is found (R6). -/
def Chip.plainWrite (s : Chip) (g : Reg) (v : W) : Chip :=
  s.wr g.name g.i g.j (w32 (accessWrite g.name false (s.rd g.name g.i g.j).toNat v.toNat))

/-- A write of a register: its own chapter's behaviour, or its access types. -/
def Chip.regWrite (s : Chip) (ini a : Nat) (g : Reg) (v : W) : Chip :=
  let i := g.i
  let j := g.j
  match g.name with
  | .CEL_PORT_CFG => portCfgWrite i v s
  | .CEL_LINK_CFG => linkCfgWrite i v s
  | .LNK_PRBS => prbsWrite i j v s
  | .LNK_MARGIN => marginWrite i j v s
  | .LNK_EQ => (s.plainWrite g v).eqWritten i
  | .BUF_POOL_MIN => if bitAt v.toNat 31 then s.set F.BUF_POOL_MIN.LOWEST (s.free i) i else s
  | .BUF_EQ => if bitAt v.toNat 31 then s.set F.BUF_EQ.PEAK (s.egHeld i j) i j else s
  | .QOS_CON_CFG => conCfgWrite i v.toNat s
  | .QOS_CON_MIN | .QOS_CON_CAP => (s.refills i).plainWrite g v
  | .QOS_EPOL_CFG => polCfgWrite i j v s
  | .VCS_INST_CFG => instCfgWrite i v s
  | .VCS_PORT_ADM => s.clearAny F.VCS_PORT_ADM.QUAR_DISCARDS v i j
  | .DEC_STG_CTRL => windowCommit i v s
  | .ACC_DENY_CNT => s.clearAny F.ACC_DENY_CNT.COUNT v i j
  | .MPU_CFG =>
    if s.is F.MPU_CFG.LOCK then s.recordErr 0 ini true a else s.plainWrite g v
  | .MPU_BASE => mpuBaseWrite ini i v s
  | .MPU_ATTR => mpuAttrWrite ini i v s
  | .GRV_SLICE_PEAK => if bitAt v.toNat 31 then s.set F.GRV_SLICE_PEAK.LOCKS_PEAK (s.locks i) i else s
  | .SNF_EVICT => s.clearAny F.SNF_EVICT.COUNT v i j
  | .SNF_PROBE_ADDR_HI => snfProbe i v .clean s
  | .GRV_SET_WAIT => s.clearAny F.GRV_SET_WAIT.COUNT v i j
  | .GRV_STRAY => s.clearAny F.GRV_STRAY.COUNT v i j
  | .GRV_CONFLICT => s.clearAny F.GRV_CONFLICT.COUNT v i j
  | .SNF_ERR => if bitAt v.toNat 31 then s.wr .SNF_ERR i j 0 else s
  | .ERT_PROBE_SRC => ertProbe i v s
  | .MOV_CH_STS => if bitAt v.toNat 28 then channelHaltClear i s else s
  | .NOC_BND_WAKES => s.clearAny F.NOC_BND_WAKES.COUNT v i j
  | .NOC_ERR => if bitAt v.toNat 31 then s.wr .NOC_ERR i j 0 else s
  | .NOC_ROUTE => routeTableWrite i j v s
  | .NOC_ROUTE_CTRL => routeCtrlWrite v s
  | .NOC_STAT_CTRL => statCtrlWrite v s
  | .ETH_PORT_CFG => ethCfgWrite i v s
  | .ETH_PORT_STS => s.clearAny F.ETH_PORT_STS.LINK_DOWNS v i j
  | .ETH_MACSEC_DROP => s.clearAny F.ETH_MACSEC_DROP.FRAMES v i j
  | .ETH_UNSEC_DROP => s.clearAny F.ETH_UNSEC_DROP.FRAMES v i j
  | .KMP_CFG => (s.plainWrite g v).post .endAll
  | .FLT_REC_CTRL => if bitAt v.toNat 31 then recClear i s else s
  | .FLT_CFG => fltCfgWrite v s
  | .ECC_CL_ERR => if bitAt v.toNat 31 then s.wr .ECC_CL_ERR i j 0 else s
  | .ECC_SCRUB_CTRL => if clusterWords (i / 16) (i % 16) = 0 then s else scrubCtrlWrite (i / 16) (i % 16) v s
  | .ECC_MP_STS =>
    if bitAt v.toNat 31 then
      foldl' (List.range 5) (fun k s => s.wr .ECC_MP_WAIT i k 0) (s.set F.ECC_MP_STS.RESTARTS 0 i)
    else s
  | .ECC_DMA_STS => dmaHaltClear v s
  | .PWR_CMD => pwrCmdWrite v s
  | .PWR_DROOP_CFG => droopCfgWrite v s
  | .PWR_DROOP_STS => droopStsWrite i v s
  | .SLT_CTRL => slotCtrlWrite i v s
  | .SLT_CFG => slotCfgWrite i false v s
  | .SLT_SHUNT => slotCfgWrite i true v s
  | .SLT_LIMIT => slotLimitWrite i v s
  | .SLT_EVT => if v.toNat ≠ 0 then s.wr .SLT_EVT i j 0 else s
  | .CNT_SAMP_CFG => sampCfgWrite i v s
  | .CNT_SAMP_STS => sampStsWrite i v s
  | .CNT_HIST_CTRL => histCtrlWrite v s
  | .CNT_HIST_SEL => histSelWrite i v s
  | .VCS_VPPB_STS => if s.vppbCount i ≤ j then s else s.plainWrite g v
  | _ => s.plainWrite g v

/-! ## Permitted accesses (R382 to R384) -/

/-- How an access ends. -/
inductive MasRes where
  | ok (v : Nat)
  | denied
  | misaligned
  deriving DecidableEq, Repr

/-- An initiator: its number, its level (0 machine, 1 supervisor, 2 user, 3 agent), and whether the MPU checks it. -/
structure Master where
  ini : Nat
  level : Nat
  mpu : Bool := true
  deriving DecidableEq, Repr

def dmaMaster (e : Nat) : Master := { ini := 152 + e, level := 3 }
def loaderMaster : Master := { ini := 0xFF, level := 0, mpu := false }
def debugMaster : Master := { ini := 155, level := 0 }

/-- The bytes that an uncorrectable word of management SRAM gives (Table 15.3): counted; what the initiator gets is free. -/
def Chip.lostRead (s : Chip) (w n : Nat) : Chip × Nat :=
  ((s.eccUncorr 8 0 w).useFree, Config.lostWord s.freeCtr % 2 ^ (8 * n))

/-- A permitted, aligned read of `n` bytes of management SRAM or of boot ROM. -/
def Chip.memRead (s : Chip) (rom : Bool) (a n : Nat) : Chip × Nat :=
  if rom then (s, natOfBytes ((rangeFrom a n).map (fun x => Config.bootRom (x - 0x04000000))))
  else
    let (s, l, bad) := s.bufRead false a n
    if bad then s.lostRead (a / 8) n else (s, natOfBytes l)

/-- A permitted, aligned read of one 32-bit word (Table 20.4). -/
def Chip.wordRead (s : Chip) (sess : List (Nat × Nat)) (ini a : Nat) : Chip × Nat :=
  match masAt a with
  | .unmapped => (s.recordErr 1 ini false a, 0)
  | .sram =>
    let (s, on) := s.masReach (some (176, true))
    if on then s.memRead false a 4 else (s.recordErr 2 ini false a, 0)
  | .rom =>
    let (s, on) := s.masReach (some (176, true))
    if on then s.memRead true a 4 else (s.recordErr 2 ini false a, 0)
  | .reg g inst =>
    let (s, on) := (s.masPackets a).masReach (masDomain g inst)
    if on then s.regRead sess ini g else (s.recordErr 2 ini false a, 0)

/-- ACC_CFG and GRV_CFG hold chip-wide fields that are writable in region 0 only (spec/07, spec/08): in the other regions a write
is ignored. -/
def regionZeroOnly (n : RName) : Bool := decide (n = .ACC_CFG) || decide (n = .GRV_CFG)

/-- A permitted, aligned write of `n` bytes: 4 bytes to a register, narrower ones are recorded, 8 bytes are two writes. -/
def Chip.wordWrite (s : Chip) (ini a n : Nat) (v : Nat) : Chip :=
  match masAt a with
  | .unmapped => s.recordErr 1 ini true a
  | .rom => (s.masReach (some (176, true))).1
  | .sram =>
    let (s, on) := s.masReach (some (176, true))
    if on then s.bufWrite false a (bytesOfNat n v) else s.recordErr 2 ini true a
  | .reg g inst =>
    let (s, on) := (s.masPackets a).masReach (masDomain g inst)
    if !on then s.recordErr 2 ini true a
    else if n < 4 then s.recordErr 3 ini true a
    else if regionZeroOnly g.name && decide (inst ≠ 0) then s
    else s.regWrite ini a g (w32 v)

/-- The MPU check of an access (R383), and its record where it denies. -/
def Chip.masAllows (s : Chip) (m : Master) (acc a n : Nat) : Bool := !m.mpu || s.mpuOk s.lc m.ini m.level acc a n

/-- A read of one 32-bit word by an initiator. -/
def Chip.masRead (s : Chip) (sess : List (Nat × Nat)) (m : Master) (a : Nat) : Chip × MasRes :=
  if !s.masAllows m 0 a 4 then (s.mpuDeny m.ini m.level 0 a, .denied)
  else if a % 4 ≠ 0 then (s, .misaligned)
  else let (s, v) := s.wordRead sess m.ini a; (s, .ok v)

/-- A write of one 32-bit word by an initiator. -/
def Chip.masWrite (s : Chip) (m : Master) (a : Nat) (v : W) : Chip × MasRes :=
  if !s.masAllows m 1 a 4 then (s.mpuDeny m.ini m.level 1 a, .denied)
  else if a % 4 ≠ 0 then (s, .misaligned)
  else (s.wordWrite m.ini a 4 v.toNat, .ok 0)

/-! ## REGISTER_WRITE (R4, R382, R383) -/

/-- Traps of the management complex, and the error response on JTAG (R146, R382). -/
def trapDenied : Nat := 16
def trapMisaligned : Nat := 17

/-- The initiator of a command's access: the level is the management complex's own, agent for the others, and none for the debug
master, which R147 governs (R141). -/
def masterOf (ini level : Nat) : Master := if ini = 155 then debugMaster else { ini := ini, level := if ini = 154 then level else 3 }

/-- A page-mover channel or an Ethernet DMA engine halts with status; the graft of a channel aborts with cause 8 (R146, Table 10.4). -/
def Chip.haltMaster (s : Chip) (ini : Nat) : Chip :=
  if 136 ≤ ini ∧ ini < 152 then
    let c := ini - 136
    let s := match s.graftOf c with
      | some e => s.graftAbort e 8
      | none => s
    (s.set F.MOV_CH_STS.HALTED 1 c).set F.MOV_CH_STS.STATE 4 c
  else if ini = 152 then s.set F.ECC_DMA_STS.HALT_A 1
  else if ini = 153 then s.set F.ECC_DMA_STS.HALT_B 1
  else s

/-- What the initiator of a denied or misaligned access receives (R146, R382): a trap, an error on JTAG, a halt. -/
def Chip.accessFails (s : Chip) (ini trap : Nat) : Chip :=
  if ini = 154 then s.out (.irq trap)
  else if ini = 155 then s.out (.jtag 0 true)
  else if ini < 152 ∨ trap = trapDenied then s.haltMaster ini
  else s

/-- A write of 1, 2, 4 or 8 bytes by initiator `ini`, at `level` for the management complex; any other size is none of R382's. -/
def registerWrite (ini level a size : Nat) (v : Nat) (s : Chip) : Chip :=
  let m := masterOf ini level
  if size ≠ 1 ∧ size ≠ 2 ∧ size ≠ 4 ∧ size ≠ 8 then s
  else if !s.masAllows m 1 a size then (s.mpuDeny ini m.level 1 a).accessFails ini trapDenied
  else if a % size ≠ 0 then s.accessFails ini trapMisaligned
  else if size = 8 ∧ masAt a ≠ .sram then
    (s.wordWrite ini a 4 (v % 2 ^ 32)).wordWrite ini (a + 4) 4 (v / 2 ^ 32 % 2 ^ 32)
  else s.wordWrite ini a size (v % 2 ^ (8 * size))

/-! ## JTAG (R377 to R379, Table 19.7) -/

/-- IDCODE: stepping A0 = 0, part number, manufacturer, 1. -/
def idcode : Nat := 0x0512 * 2 ^ 12 + Config.jtagMaker % 2 ^ 11 * 2 + 1

/-- Instructions that take the boundary cells. -/
def scans : JtagInstr → Bool
  | .extest | .clamp | .highz | .extestPulse | .extestTrain => true
  | _ => false

/-- JTAG_INSTRUCTION_LOAD: while the boundary cells drive the outputs the partners lose their links, which retrain when the
instruction is replaced. -/
def jtagLoad (i : JtagInstr) (s : Chip) : Chip :=
  let s : Chip := if scans i && s.scanLinks.isEmpty then { s with scanLinks := (List.range numCells).filter (fun p => (s.port p).up) } else s
  let lost := if scans i then [] else s.scanLinks
  let s : Chip := { s with jtag := i, scanLinks := if scans i then s.scanLinks else [] }
  let s := foldl' lost (fun p s => s.goDown p ltDetect) s
  if i = .idcode then s.out (.jtag idcode false) else s

/-- JTAG_DEBUG_ACCESS: a read, or a write of `v`, of one word by the debug master, under Table 7.6. In Field DEBUG selects the
bypass register. -/
def jtagAccess (sess : List (Nat × Nat)) (a : Nat) (v : Option W) (s : Chip) : Chip :=
  if s.jtag ≠ .debug ∨ s.lc = 2 then s
  else
    let (s, r) := match v with
      | some v => s.masWrite debugMaster a v
      | none => s.masRead sess debugMaster a
    match r with
    | .ok x => s.out (.jtag x false)
    | _ => s.out (.jtag 0 true)

end Sys2Proof.Machine
end

