-- ==== Sys2Proof/Machine/Startup.lean ====
section
/-! DEFINITION. Cold and warm reset (R3, R276, R322, R335, R354), the start-up of Table 13.9 (R268, R306, R307, R367), choosing
and applying the image (R259 to R265), the rollback advance (R260) and the image commands (R271). -/

namespace Sys2Proof.Machine

/-! ## Resets (R3) -/

/-- Pins of a port's cell: levels from outside, and the slot power-good that the power die holds. -/
def pinsOnly (pg : Bool) (x : PortX) : PortX := { perst := x.perst, csbLow := x.csbLow, pgSince := if pg then x.pgSince else none }

def keepPins (pg : Bool) (t : Tab PortX) : Tab PortX := t.foldl (fun (a : Tab PortX) e => a.set {} e.1 (pinsOnly pg e.2)) []

/-- COLD_RESET and AO_BROWNOUT: every field at its reset value. The fuses, the flash, the rails and what stands at pins are not
fields; the JTAG port has its own reset. -/
def Chip.coldReset (s : Chip) (brownout : Bool) : Chip :=
  let c : Chip := {}
  let c : Chip := { c with
    fuses := s.fuses, flash := s.flash, ports := keepPins false s.ports, pw := { rails := s.pw.rails }
    jtag := s.jtag, vinSnsBad := s.vinSnsBad, outbox := s.outbox, mail := [.endAll], nextId := s.nextId, freeCtr := s.freeCtr }
  let c := (c.set F.PWR_RESET_CAUSE.PWRON (b2n !brownout)).set F.PWR_RESET_CAUSE.AO_BROWNOUT (b2n brownout)
  c.decodeLc

/-- COLD_RESET: PWRON_N low for `lowNs` ns. -/
def coldReset (lowNs : Nat) (s : Chip) : Chip := if lowNs < 5000 then s else s.coldReset false

/-- AO_BROWNOUT; `biasHeld` tells whether the bias latch has survived. -/
def aoBrownout (biasHeld : Bool) (s : Chip) : Chip := s.coldReset biasHeld

/-- Registers whose fields a warm reset keeps: fault records and log, counters, SLT_ registers, retired ways (R179). -/
def keptWarm : RName → Bool
  | .FLT_REC_STS | .FLT_REC_SRC | .FLT_REC_TIME_LO | .FLT_REC_TIME_HI | .FLT_LOG_PTR | .FLT_LOG | .FLT_SLOT_SRC => true
  | .SNF_RETIRE | .PWR_RESET_CAUSE => true
  | .CNT_HIST_CTRL | .CNT_HIST_LO | .CNT_HIST_HI => false
  | n => decide (n.place.block = .slt) || decide (n.place.block = .cnt)

/-- The main die is reset while the always-on domain stays powered. -/
def Chip.warmReset (s : Chip) : Chip :=
  let c : Chip := {}
  let c : Chip := { c with
    regs := s.regs.filter (fun e => keptWarm e.1.name)
    time := s.time, cnt := s.cnt, ports := keepPins true s.ports
    snf := retiredOnly s.snf
    unpassed := s.unpassed, slots := s.slots, vinSnsBad := s.vinSnsBad, slotHold := s.slotHold, failTest := s.failTest
    badWords := s.badWords.filter (fun x => decide (x.1 = 3) || decide (x.1 = 4))
    fuses := s.fuses, flash := s.flash, edges := s.edges, samp := s.samp, sampIrq := s.sampIrq
    latches := s.latches.filter (fun x => decide (x.1 % 65536 < 8192) || decide (latSlot 0 ≤ x.1 % 65536))
    pw := { ao := s.pw.ao, rails := s.pw.rails }
    jtag := s.jtag, resetAt := s.time, outbox := s.outbox, mail := s.mail ++ [.endAll], nextId := s.nextId, freeCtr := s.freeCtr }
  let c := c.set F.FLT_SAFE_STS.ENTRIES (s.fld F.FLT_SAFE_STS.ENTRIES)
  let c := (c.set F.TMB_CFG.SRC (s.fld F.TMB_CFG.SRC)).set F.IMG_RB.ADVANCED (s.fld F.IMG_RB.ADVANCED)
  let c := foldl' ((s.regs.filter (fun e => decide (e.1.name = .ECC_REPAIR))).map (·.1.i)) (fun i c =>
    c.set F.ECC_REPAIR.SOFT (s.fld F.ECC_REPAIR.SOFT i) i) c
  (c.set F.PWR_RESET_CAUSE.WARM 1).decodeLc.driveFail

/-! ## Slot selection (R259, R265) -/

/-- A slot's outcome (IMG_SLOT_STS). -/
def Chip.slotSts (s : Chip) (area cause : Nat) (passed : Bool) : Chip :=
  ((s.set F.IMG_SLOT_STS.TRIED 1 area).set F.IMG_SLOT_STS.CAUSE cause area).set F.IMG_SLOT_STS.PASSED (b2n passed) area

/-- A candidate (R259): slot, header and the data bytes of page 0. -/
structure Candidate where
  slot : Nat
  h : Header
  page0 : List Byte
  deriving DecidableEq, Repr

/-- Page 0 of a slot is read: the slot is a candidate if it passes. -/
def Chip.tryHeader (s : Chip) (slot : Nat) : Chip × Option Candidate :=
  let (p, cause, h) := s.readHeader slot
  let s := (s.noteRead slot (b2n p.decoded) p.fixed).slotSts slot cause false
  (s, h.map (fun h => { slot := slot, h := h, page0 := p.data }))

/-- A candidate is checked fully: the state, and its cause. -/
def Chip.tryCandidate (s : Chip) (c : Candidate) : Chip × Nat :=
  let r := s.checkSlot c.slot c.h c.page0 true
  let s := (s.noteRead c.slot r.decoded r.fixed).slotSts c.slot r.cause (decide (r.cause = 0))
  if r.cause ≠ 0 then (s, r.cause)
  else
    let s := (s.set F.IMG_STS.SLOT c.slot).set F.IMG_STS.UNSIGNED (b2n r.unsigned)
    let s := (s.wr .IMG_SEQ_LO 0 0 (w32 c.h.seq)).wr .IMG_SEQ_HI 0 0 (w32 (c.h.seq / 2 ^ 32))
    ((s.set F.IMG_RB.IMAGE c.h.rollback : Chip), 0)

/-- The rescue block (R265): its identity page, if the block is valid. -/
def Chip.rescue (s : Chip) : Chip × Option (List Byte) :=
  let b := areaBase 2
  let p := readPage b (s.page b) none
  let s := s.noteRead 2 (b2n p.decoded) p.fixed
  if p.cause ≠ 0 then (s.slotSts 2 p.cause false, none)
  else
    let g := readPage (b + 1) (s.page (b + 1)) (some p.version)
    let s := s.noteRead 2 (b2n g.decoded) g.fixed
    if g.cause ≠ 0 then (s.slotSts 2 g.cause false, none)
    else if s.fuses.unsigned s.lc || s.fuses.signed g.data p.data then (s.slotSts 2 0 true, some p.data)
    else (s.slotSts 2 7 false, none)

/-- Both ports take the records of 256 bytes of data. -/
def Chip.identities (s : Chip) (d : List Byte) : Chip := (s.identity 0 (d.take 128)).identity 1 ((d.drop 128).take 128)

/-- The image is invalid (R265): the rescue block gives the ports their identity; safe state follows. -/
def Chip.imageInvalid (s : Chip) (cause : Nat) (flashOk : Bool) : Chip :=
  let (s, id) := if flashOk then s.rescue else (s, none)
  let s : Chip := { s with boot := 2 }
  let s := s.set F.IMG_STS.CAUSE cause
  let s := match id with
    | some d => (s.identities d).set F.IMG_STS.STATE 2
    | none => s.set F.IMG_STS.STATE 3
  s.chipFault 2 clsF

/-- The first candidate that passes is loaded. -/
def Chip.chooseSlot (s : Chip) : Chip :=
  let (s, a) := s.tryHeader 0
  let (s, b) := s.tryHeader 1
  let order := match a, b with
    | some x, some y => if x.h.seq < y.h.seq then [y, x] else [x, y]
    | some x, none => [x]
    | none, some y => [y]
    | none, none => []
  match order with
  | [] => s.imageInvalid (s.fld F.IMG_SLOT_STS.CAUSE 1) true
  | c :: rest =>
    let (s, k) := s.tryCandidate c
    if k = 0 then { s with boot := 1 }
    else match rest with
      | [] => s.imageInvalid k true
      | d :: _ =>
        let (s, k) := s.tryCandidate d
        let s := s.set F.IMG_STS.FALLBACK 1
        if k = 0 then { s with boot := 1 } else s.imageInvalid k true

/-! ## START_UP: steps 1 to 4 of Table 13.9 -/

/-- Step 1: fuses, repair map, trimmed setpoint. -/
def Chip.step1 (s : Chip) : Chip :=
  let s := s.decodeLc
  let s := ((s.avsWrite (s.setpoint 0)).out (.avsSram 800)).set F.IMG_RB.FUSED s.fuses.rollback
  foldl' s.fuses.repairs (fun e s => (s.set F.ECC_REPAIR.ROWS (e.2 / 256) e.1).set F.ECC_REPAIR.COLS (e.2 % 256) e.1) s

/-- Step 2: checker self-test, memory BIST with soft repairs (R306, R307, R367). -/
def Chip.step2 (s : Chip) (x : StartIn) : Chip :=
  let s := foldl' x.chkFail (fun f s =>
    s.wr .ECC_CHK_STS f.1 0 (w32 (setBit (s.rd .ECC_CHK_STS f.1).toNat f.2))) s
  let s := s.set F.BST_START_STS.CHK_FAIL (maskOf (x.chkFail.map (·.1)))
  let s := s.set F.BST_START_STS.MEM_FAIL x.memFail
  foldl' x.soft (fun f s => s.bump F.ECC_REPAIR.SOFT f.2.2 (16 * f.1 + f.2.1)) s

/-- START_UP: the release of PWRON_N with every rail in its window (R391), or what follows a warm reset. -/
def startUp (x : StartIn) (s : Chip) : Chip :=
  let warm := s.is F.PWR_RESET_CAUSE.WARM
  if s.boot ≠ 0 ∨ (warm = false ∧ s.pw.rails ≠ []) then s
  else
    let s : Chip := if warm then s else
      let p := s.pw
      { s with time := 0, resetAt := 0, pw := { p with ao := 0 } }
    let s := foldl' x.pages (fun p (s : Chip) => s.setPage p.1 (p.2 ++ List.replicate (4096 - p.2.length) 0xFF)) s
    let s := (s.step1.step2 x)
    let s := (s.fusedIdentity 0).fusedIdentity 1
    if x.flash = 0 then s.chooseSlot else s.imageInvalid (min x.flash 2) false

/-! ## IMAGE_DONE: step 5 (R261) -/

/-- The loaded slot's header and section stream. -/
def Chip.loaded (s : Chip) : Option (Header × List Byte) :=
  let (p, _, h) := s.readHeader (s.fld F.IMG_STS.SLOT)
  h.map (fun h => (h, (s.checkSlot (s.fld F.IMG_STS.SLOT) h p.data true).stream))

/-- A refused entry of section type `t`. -/
def Chip.refuseEntry (s : Chip) (t index result : Nat) : Chip :=
  let s := if s.fld F.IMG_ENTRY_CNT.COUNT = 0 then
      ((s.set F.IMG_ENTRY_CNT.INDEX index).set F.IMG_ENTRY_FIRST.TYPE t).set F.IMG_ENTRY_FIRST.RESULT result
    else s
  s.bump F.IMG_ENTRY_CNT.COUNT 1

/-- What an entry that the binding engine took leads to, with no request open: its epoch commits at once (R138). -/
def Chip.engineNow (s : Chip) : Chip := (epochCommit s.engine).engine

/-- An engine command of the image, with the result that its check gives. -/
def Chip.imageOp (s : Chip) (t index code : Nat) (o : EngOp) : Chip :=
  let s := ({ s with engCmd := s.engCmd ++ [o] } : Chip).engineNow
  if code = 0 then s else s.refuseEntry t index code

/-- A REGISTERS entry, written by the loader. -/
def Chip.imageReg (s : Chip) (index : Nat) (hi lo v : W) : Chip :=
  let a := hi.toNat % 256 * 2 ^ 32 + lo.toNat
  if a / 0x10000000 = 9 ∨ a / 0x10000000 = 10 ∨ a % 4 ≠ 0 then s.refuseEntry 3 index 1
  else (s.wordWrite loaderMaster.ini a 4 v.toNat).engineNow

def Chip.imageRegs (s : Chip) (index : Nat) : List W → Chip
  | hi :: lo :: v :: ws => (s.imageReg index hi lo v).imageRegs (index + 1) ws
  | _ => s

/-- A BINDINGS entry. -/
def Chip.imageBind (s : Chip) (index : Nat) (w t : W) : Chip :=
  let n := bitsOf w.toNat 16 6
  let v := bitsOf w.toNat 0 6
  let s : Chip := { s with imgBinds := s.imgBinds ++ [(n, v, t)] }
  s.imageOp 4 index (s.bindStatus n v t) (.bind n v t true none)

def Chip.imageBinds (s : Chip) (index : Nat) : List W → Chip
  | w :: t :: ws => (s.imageBind index w t).imageBinds (index + 1) ws
  | _ => s

/-- A GROVES entry. -/
def Chip.imageGrove (s : Chip) (index : Nat) (ws : List W) : Chip :=
  if ws.length ≠ groveWords ws then s.refuseEntry 5 index 0xFE
  else
    let l := ws.map (·.toNat)
    let g := l.getD 0 0 % 32
    let code := s.createCode g (l.getD 1 0 + l.getD 2 0 * 2 ^ 32) (gwinDefs (bitsOf (l.getD 0 0) 16 4 + 1) (l.drop 3)).1
    let s := ((s.groveCreate l none).count (cntChip 6)).engineNow
    if code = 0 then s else s.refuseEntry 5 index code

/-- A window of WINDOW_SET words 1 to 35. -/
def winWords (ws : List W) : Win :=
  let t := (ws.drop 4).take 32
  winOf (ws.getD 1 0) (ws.getD 2 0) (ws.getD 3 0) ((List.range 16).map (fun i => t.getD (2 * i) 0)) ((List.range 16).map (fun i => t.getD (2 * i + 1) 0))

/-- A WINDOWS entry. -/
def Chip.imageWindow (s : Chip) (index : Nat) (ws : List W) : Chip :=
  let n := bitsOf (wordAt ws 0) 16 6
  let w := bitsOf (wordAt ws 0) 0 5
  let c := winWords ws
  s.imageOp 6 index (s.windowCode n w c false) (.window n w c .image)

def Chip.imageWindows : Nat → Nat → List W → Chip → Chip
  | 0, _, _, s => s
  | k + 1, index, ws, s => Chip.imageWindows k (index + 1) (ws.drop 36) (s.imageWindow index (ws.take 36))

/-- A START section (Table 13.10), bytes it does not have read 0. -/
def startOf (d : List Byte) : StartCfg :=
  let d := d ++ List.replicate 24 0
  { firstMs := beAt d 0 2, gapMs := beAt d 2 1, opPoint := beAt d 3 1
    map := (List.range 32).map (fun b => let v := beAt d (4 + b / 2) 1; if b % 2 = 0 then v / 16 else v % 16) }

/-- One section, applied. -/
def Chip.applySection (s : Chip) (x : Section) (stream : List Byte) : Chip :=
  let d := x.bytes stream
  let ws := beWords d
  match x.type with
  | 1 => { s with start := startOf d }
  | 2 => s.identities (d ++ List.replicate 256 0)
  | 3 => s.imageRegs 0 ws
  | 4 => s.imageBinds 0 ws
  | 5 => ((groveEntries ws.length ws).getD []).zipIdx.foldl (fun s e => s.imageGrove e.2 e.1) s
  | 6 => Chip.imageWindows (ws.length / 36) 0 ws s
  | _ => s

/-- Sections of one type, in table order. -/
def Chip.applyType (s : Chip) (h : Header) (stream : List Byte) (t : Nat) : Chip :=
  (h.sections.filter (fun x => decide (x.type = t))).foldl (fun s x => s.applySection x stream) s

/-- The hub reference named by SRC is taken (R330). -/
def Chip.takeRef (s : Chip) : Chip :=
  let x := s.pw
  let r := s.fld F.TMB_CFG.SRC
  if x.hubRef = r then s
  else
    let s : Chip := { s with pw := { x with hubRef := r } }
    s.set F.TMB_STS.SRC_LOST (b2n !(if r = 0 then s.is F.PWR_CLK_STS.ECLK else s.is F.PWR_CLK_STS.PCLK0))

/-- Settings of a management port come into force. -/
def Chip.takeEth (s : Chip) (e : Nat) : Chip := s.modEth e (fun x => { x with cfg := (s.rd .ETH_PORT_CFG e).toNat })

/-- Time of wave 0 (R269). -/
def Chip.firstWave (s : Chip) : Nat := max s.time (s.resetAt + max s.start.firstMs 120 * msT)

/-- IMAGE_DONE. -/
def imageDone (s : Chip) : Chip :=
  if s.boot ≠ 1 then s
  else match s.loaded with
    | none => s
    | some (h, stream) =>
      let s := (((s.applyType h stream 1).applyType h stream 2).applyType h stream 3).takeRef
      let s := ((s.applyType h stream 4).applyType h stream 5).applyType h stream 6
      let s := (s.takeEth 0).takeEth 1
      let s : Chip := { s with imgInsts := ((List.range 64).filter (fun n => s.is F.VCS_INST_CFG.EN n)).map (fun n => (n, s.usp n)) }
      let s := s.loadPrograms (h.programs stream)
      let safe := s.is F.FLT_SAFE_STS.SAFE
      let s : Chip := { s with boot := 2, started := true, waves := if safe then [] else List.range 8, waveZero := s.firstWave }
      let s := ((s.set F.IMG_STS.STATE 1).set F.IMG_STS.LEVEL h.level).driveFail
      let s := if safe then s else s.slotsLeave
      if s.start.opPoint % 4 = 0 then s else s.pwrSubmit { src := .image, action := 4, op := s.start.opPoint % 4 }

/-! ## Rollback (R260) -/

/-- ROLLBACK_ADVANCE: step 8, 1 s after the release or the reset. -/
def rollbackAdvance (s : Chip) : Chip :=
  let n := s.fld F.IMG_RB.IMAGE
  if s.fld F.IMG_STS.STATE ≠ 1 ∨ s.time < s.resetAt + secT ∨ n ≤ s.fuses.rollback then s
  else match s.loaded with
    | none => s
    | some (h, _) =>
      if h.advance then
        let f := s.fuses
        let s : Chip := { s with fuses := { f with rollback := n } }
        (s.set F.IMG_RB.FUSED n).set F.IMG_RB.ADVANCED 1
      else s

/-! ## Image commands (R271, Table 13.11): the state and the words of the reply -/

/-- The loaded slot may not be changed. -/
def Chip.areaActive (s : Chip) (area : Nat) : Bool := decide (s.fld F.IMG_STS.STATE = 1) && decide (area = s.fld F.IMG_STS.SLOT)

def imageErase (ws : List W) (flashError : Bool) (s : Chip) : Chip × List Nat :=
  let area := bitsOf (wordAt ws 0) 0 2
  let first := wordAt ws 1
  let n := wordAt ws 2
  if areaPages area < first + n ∨ area = 3 then (s, [1])
  else if s.areaActive area then (s, [2])
  else if flashError then (s, [4])
  else (foldl' (rangeFrom (areaBase area + first) n) (fun p (s : Chip) => s.setPage p blankPage) s, [0])

/-- Bytes of the flash, and programming some of them: a bit programmed is a bit cleared. -/
def Chip.flashBytes (s : Chip) (a n : Nat) : List Byte := (rangeFrom a n).map (fun x => (s.page (x / 4096)).getD (x % 4096) 0xFF)
def Chip.flashProgram (s : Chip) (a : Nat) (d : List Byte) : Chip :=
  d.zipIdx.foldl (fun (s : Chip) x =>
    let p := (a + x.2) / 4096
    s.setPage p ((s.page p).modify ((a + x.2) % 4096) (· &&& x.1))) s

def imageWrite (ws : List W) (flashError : Bool) (s : Chip) : Chip × List Nat :=
  let area := bitsOf (wordAt ws 0) 0 2
  let off := bitsOf (wordAt ws 2) 0 12
  let d := bytesOfWords (ws.drop 3)
  let a := 4096 * wordAt ws 1 + off
  if area = 3 ∨ 4096 * areaPages area < a + d.length then (s, [1])
  else if s.areaActive area then (s, [2])
  else if off % 256 ≠ 0 then (s, [3])
  else if flashError then (s, [4])
  else (s.flashProgram (4096 * areaBase area + a) d, [0])

def imageRead (ws : List W) (flashError : Bool) (s : Chip) : List Nat :=
  let area := bitsOf (wordAt ws 0) 0 2
  let a := 4096 * wordAt ws 1 + wordAt ws 2
  let n := wordAt ws 3
  if area = 3 ∨ 4096 * areaPages area < a + n then [1]
  else if wordAt ws 2 % 4 ≠ 0 ∨ n % 4 ≠ 0 ∨ n < 4 ∨ 4096 < n then [3]
  else if flashError then [4]
  else 0 :: wordsOfBytes (s.flashBytes (4096 * areaBase area + a) n)

def imageVerify (ws : List W) (flashError : Bool) (s : Chip) : Chip × List Nat :=
  let slot := wordAt ws 0
  if slot ≥ 2 then (s, [1, 0, 0, 0, 0, 0])
  else if flashError then (s, [4, 0, 0, 0, 0, 0])
  else
    let (p, cause, h) := s.readHeader slot
    let s := s.noteRead slot (b2n p.decoded) p.fixed
    match h with
    | none => (s, [5, cause, b2n p.decoded, p.fixed, 0, 0])
    | some h =>
      let r := s.checkSlot slot h p.data true
      let s := s.noteRead slot r.decoded r.fixed
      (s, [if r.cause = 0 then 0 else 5, r.cause, b2n p.decoded + r.decoded, p.fixed + r.fixed, h.seq / 2 ^ 32, h.seq % 2 ^ 32])

end Sys2Proof.Machine
end

