-- ==== Sys2Proof/Machine/Mailbox.lean ====
section
/-! DEFINITION. The instance mailbox (R123 to R126), its relay to the fabric manager (R247) and the tunnelled Fabric Manager API
(R248), as spec/06_virtual_switches_and_binding.md and spec/12_management_plane.md give them. Opcodes, return codes and the message
header of the CCI are those of the CXL Specification (PRESUMED, log entry 20). -/

namespace Sys2Proof.Machine

/-- Return codes of the CCI. -/
def cciSuccess : Nat := 0
def cciInvalid : Nat := 2
def cciUnsupported : Nat := 3
def cciRetry : Nat := 5

/-- A mailbox command ends: return code and payload go to the host. -/
def Chip.mbxDone (s : Chip) (n code : Nat) (payload : List Byte) : Chip :=
  let s := s.setVsw n { s.vsw n with mbx := none }
  (s.set F.VCS_MBX_STS.RELAY_PENDING 0 n).out (.mailbox n code payload)

/-- VCS_MBX_CFG.RELAY_TO in the time base. -/
def Chip.relayTo (s : Chip) : Nat := clampTo 10 60000 (s.fld F.VCS_MBX_CFG.RELAY_TO) * msT

/-! ## Relayed commands (R125, R247) -/

/-- Payload of MAILBOX_RELAY. -/
def relayWords (n : Nat) (x : Mbx) : List W :=
  [w32 (n * 2 ^ 16 + x.opcode % 2 ^ 16), w32 x.tag, w32 x.payload.length] ++ (wordsOfBytes x.payload).map w32

/-- The command in progress of instance `n` is sent to the holder of the relay role, or completes without one. -/
def Chip.relaySend (s : Chip) (n : Nat) (x : Mbx) : Chip :=
  match s.relay with
  | none => (s.set F.VCS_MBX_STS.NO_MANAGER 1 n).mbxDone n cciUnsupported []
  | some (_, e, ipv6) =>
    let ws := relayWords n x
    if s.kmpMax e ipv6 < 16 + 4 * ws.length then s.mbxDone n cciUnsupported []
    else (s.set F.VCS_MBX_STS.RELAY_PENDING 1 n).post (.relay ws)

/-- Relayed commands that are pending. -/
def Chip.relayPending (s : Chip) : List (Nat × Mbx) :=
  (List.range 64).filterMap (fun n => (s.vsw n).mbx.map (fun x => (n, x)))

/-- A session takes the relay role: pending commands are sent to it. -/
def Chip.relayTake (s : Chip) (num e : Nat) (ipv6 : Bool) : Chip :=
  let again := match s.relay with
    | some (k, _, _) => decide (k ≠ num)
    | none => false
  let s : Chip := { s with relay := some (num, e, ipv6) }
  if again then foldl' s.relayPending (fun x s => s.relaySend x.1 x.2) s else s

/-- The relay role is released: pending commands complete with Retry Required. -/
def Chip.relayDrop (s : Chip) : Chip :=
  let s : Chip := { s with relay := none }
  foldl' s.relayPending (fun x s => s.mbxDone x.1 cciRetry []) s

/-- A session holds the relay role. -/
def Chip.holdsRelay (s : Chip) (num : Nat) : Bool :=
  match s.relay with
  | some (k, _, _) => decide (k = num)
  | none => false

/-- MAILBOX_REPLY: the status of the KMP reply (R126, R247). -/
def Chip.mailboxReply (s : Chip) (num : Nat) (ws : List W) : Chip × Nat :=
  let n := bitsOf (wordAt ws 0) 16 6
  if !s.holdsRelay num then (s, 0x0D)
  else match (s.vsw n).mbx with
    | some x =>
      if x.tag = wordAt ws 1 then (s.mbxDone n (wordAt ws 2 % 2 ^ 16) ((bytesOfWords (ws.drop 4)).take (wordAt ws 3)), 0)
      else (s, 0x07)
    | none => (s, 0x07)

/-- MAILBOX_RELAY_TIMEOUT (R126). -/
def relayTimeout (n : Nat) (s : Chip) : Chip :=
  match (s.vsw n).mbx with
  | some x => if s.time < x.since + s.relayTo then s else (s.set F.VCS_MBX_STS.TIMED_OUT 1 n).mbxDone n cciRetry []
  | none => s

/-! ## Local answers (R124, Table 6.10) -/

/-- Ports that a local answer of instance `n` describes. -/
def Chip.mbxPorts (s : Chip) (n : Nat) : List Nat :=
  s.fld F.VCS_INST_CFG.USP n :: ((List.range (s.vppbCount n)).filterMap (fun v =>
    let t := s.bound n v
    if t.type = 1 ∨ t.type = 2 then some t.port else none))

/-- Bytes of a payload as numbers. -/
def byteAt (l : List Byte) (i : Nat) : Nat := (l.getD i 0).toNat

/-- Bridges of an instance: state and binding of each. -/
def Chip.bridgeValues (s : Chip) (n : Nat) : List Nat :=
  n :: s.vppbCount n :: (List.range (s.vppbCount n)).flatMap (fun v =>
    [s.fld F.VCS_VPPB_STS.STATE n v, (s.bound n v).word, s.fld F.VCS_VPPB_STS.PRESENT n v, s.fld F.VCS_VPPB_STS.LINK_ACTIVE n v])

/-- A port: role, link state, width, rate, protocols and flits, from CEL_PORT_STS. -/
def Chip.portValues (s : Chip) (p : Nat) : List Nat := [p, s.role p, s.ltssm p, (s.rd .CEL_PORT_STS p).toNat]

/-- What an answer says (Table 6.10), for instances `ns` and ports `ps`: no operation in progress; the ports, instances and bridges of
the switch; the state of the ports that `d` names; the bridges of the instances that it names. -/
def Chip.answerValues (s : Chip) (opcode : Nat) (d : List Byte) (ns ps : List Nat) : List Nat :=
  match opcode with
  | 0x0001 => [Config.vendorId]
  | 0x5100 => ps.length :: ps ++ [ns.length, (ns.map s.vppbCount).sum]
  | 0x5101 => ((d.drop 1).take (byteAt d 0)).flatMap (fun p => s.portValues p.toNat)
  | 0x5200 => ((d.drop 3).take (byteAt d 2)).flatMap (fun n => s.bridgeValues n.toNat)
  | _ => []

/-- An answer: spec/ gives what it says, and not how it is laid out. -/
def Chip.openAnswer (s : Chip) (opcode : Nat) (l : List Nat) : Chip × List Byte := (s.useFree, Config.cciAnswer opcode l s.freeCtr)

/-- Get Contract: six 4-byte fields. -/
def Chip.contractAnswer (s : Chip) (p : Nat) : List Byte :=
  [s.fld F.QOS_CON_CFG.EN p, s.fld F.QOS_CON_CFG.READ_CHARGE p, s.fld F.QOS_CON_CFG.OVH p, s.fld F.QOS_CON_CFG.DEPTH p,
    s.fld F.QOS_CON_MIN.RATE p, s.fld F.QOS_CON_CAP.RATE p].flatMap (bytesOfNat 4)

/-- A command that the TH512 answers itself: none for one that it relays. -/
def Chip.mbxLocal (s : Chip) (n opcode : Nat) (d : List Byte) : Option (Chip × Nat × List Byte) :=
  let free : Option (Chip × Nat × List Byte) :=
    let (s, a) := s.openAnswer opcode (s.answerValues opcode d [n] (s.mbxPorts n))
    some (s, cciSuccess, a)
  let bad : Option (Chip × Nat × List Byte) := some (s, cciInvalid, [])
  match opcode with
  | 0x0001 | 0x0002 | 0x0400 | 0x0401 | 0x5100 => free
  | 0x0003 => some (s, cciSuccess, [BitVec.ofNat 8 (s.vsw n).limit])
  | 0x0004 =>
    let l := clampTo 8 12 (byteAt d 0)
    some (s.setVsw n { s.vsw n with limit := l }, cciSuccess, [BitVec.ofNat 8 l])
  | 0x5101 => if ((d.drop 1).take (byteAt d 0)).all (fun p => (s.mbxPorts n).contains p.toNat) then free else bad
  | 0x5200 => if ((d.drop 3).take (byteAt d 2)).all (fun k => decide (k.toNat = n)) then free else bad
  | 0xC000 => some (s, cciSuccess, s.contractAnswer (s.fld F.VCS_INST_CFG.USP n))
  | _ => none

/-- MAILBOX_DOORBELL (R124, R125): one command at a time, with a payload of at most 4 KiB. The write of a host in quarantine is
discarded and counted (R120), that of a host that is not attached discarded (R415). -/
def mailboxDoorbell (n opcode : Nat) (d : List Byte) (s : Chip) : Chip :=
  let p := s.usp n
  if !s.is F.VCS_INST_CFG.EN n || !(s.port p).up || s.pw.dormant then s
  else if s.inQuarantine p then (s.bump F.VCS_PORT_ADM.QUAR_DISCARDS 1 p).count (cntCell p 13)
  else if !s.is F.VCS_INST_STS.ATTACHED n || (s.vsw n).mbx.isSome then s
  else
    let d := d.take 4096
    let opcode := opcode % 2 ^ 16
    let s := s.set F.VCS_MBX_STS.LAST_OPCODE opcode n
    match s.mbxLocal n opcode d with
    | some (s, code, a) => s.out (.mailbox n code a)
    | none =>
      let x : Mbx := { opcode := opcode, payload := d, tag := s.nextId % 2 ^ 32, since := s.time }
      ((s.fresh).setVsw n { s.vsw n with mbx := some x }).relaySend n x

/-! ## FMAPI_TUNNEL (R248) -/

/-- A CCI response message: header of 12 bytes with category 1, the request's tag and opcode, then the payload. -/
def cciResponse (req : List Byte) (code : Nat) (d : List Byte) : List Byte :=
  [1#8, req.getD 1 0, 0#8] ++ (req.drop 3).take 2 ++ bytesOfNat 3 d.length ++ bytesOfNat 2 code ++ [0#8, 0#8] ++ d

/-- Query commands that the TH512 answers itself. -/
def fmQuery (opcode : Nat) : Bool := [0x0001, 0x0002, 0x0003, 0x5100, 0x5101, 0x5200].contains opcode

/-- Configure PID Assignment, of the PBR Switch command set (R32): the opcode is PRESUMED, its layout DESIGN CHOICE (log entry 132): the
number of entries, then for each an identifier and the port that it leads to, 255 to remove it. -/
def fmAssign : Nat := 0x5704
def assignments : Nat → List Byte → List (Nat × Nat)
  | 0, _ => []
  | n + 1, d => (natOfBytes (d.take 2), byteAt d 2) :: assignments n (d.drop 4)

/-- An entry names a port of the chip, or none. -/
def Chip.assignOk (s : Chip) (x : Nat × Nat) : Bool := decide (x.1 < 4096) && (decide (x.2 = 255) || decide (s.role x.2 ≠ 0))

/-- The routing table takes an entry. -/
def Chip.assign (s : Chip) (x : Nat × Nat) : Chip := { s with pbr := s.pbr.set 0 x.1 (if x.2 = 255 then 0 else x.2 + 1) }

/-- Bridges bound to devices behind trunks report again (R117). -/
def Chip.refreshTrunks (s : Chip) : Chip :=
  foldl' (s.allBridges.filter (fun x => decide ((s.bound x.1 x.2).type = 3) && decide (s.fld F.VCS_VPPB_STS.STATE x.1 x.2 ≠ 0)))
    (fun x s => s.report x.1 x.2 (s.presentOf (s.bound x.1 x.2)) (s.activeOf (s.bound x.1 x.2))) s

/-- The response to a tunnelled request; `device` is what the named port's device answers, none where nothing arrives in time. -/
def Chip.fmapi (s : Chip) (req : List Byte) (device : Option (List Byte)) : Chip × List Byte :=
  let opcode := natOfBytes ((req.drop 3).take 2)
  let d := req.drop 12
  if fmQuery opcode then
    let (s, a) := s.openAnswer opcode (s.answerValues opcode d ((List.range 64).filter (s.is F.VCS_INST_CFG.EN ·))
      ((List.range numCells).filter (fun p => decide (s.role p ≠ 0))))
    (s, cciResponse req cciSuccess a)
  else if opcode = fmAssign then
    let l := assignments (natOfBytes (d.take 2)) (d.drop 4)
    if l.all s.assignOk then ((foldl' l (fun x s => s.assign x) s).refreshTrunks, cciResponse req cciSuccess [])
    else (s, cciResponse req cciInvalid [])
  else if opcode = 0x5300 then
    if !(s.port (byteAt d 0)).up then (s, cciResponse req cciRetry [])
    else
      let s := s.out (.tunnel (byteAt d 0) 0xFFFF (d.drop 4))
      match device with
      | some r => (s, cciResponse req cciSuccess (bytesOfNat 2 r.length ++ [0#8, 0#8] ++ r))
      | none => (s, cciResponse req cciRetry [])
  else (s, cciResponse req cciUnsupported [])

/-- Words of a tunnelled answer: its length, then its bytes. -/
def tunnelWords (a : List Byte) : List Nat := a.length :: wordsOfBytes a

end Sys2Proof.Machine
end

