-- ==== Sys2Proof/Machine/Serve.lean ====
section
/-! DEFINITION. What each KMP request does (R245 to R249, Table 12.5), as spec/12_management_plane.md and the chapters it names give
it. Every reply is posted, and the KMP layer sends it. -/

namespace Sys2Proof.Machine

/-- A request that has started: the number of its session, its identity, its datagram, and what KMP_SESS_STS and KMP_SESS_EVT of
the eight sessions read. -/
structure Started where
  num : Nat
  q : ReqId
  r : KmpReq
  view : List (Nat × Nat)
  deriving DecidableEq, Repr

def Started.ws (e : Started) : List W := e.r.words
def Started.w (e : Started) (i : Nat) : Nat := wordAt e.r.words i
def Started.len (e : Started) : Nat := e.r.words.length
def Started.inst (e : Started) : Nat := bitsOf (e.w 0) 16 6

/-- A reply of whole words, and the reply BAD_LENGTH. -/
def Chip.answer (s : Chip) (e : Started) (status : Nat) (ws : List Nat) : Chip := s.reply e.q status ws
def Chip.badLength (s : Chip) (e : Started) : Chip := s.answer e 2 []

/-- A request of a fixed length. -/
def sized (n : Nat) (e : Started) (f : Chip → Chip) (s : Chip) : Chip := if e.len = n then f s else s.badLength e

/-- A command of the binding engine: it enters the queue (R242). -/
def queued (o : EngOp) (s : Chip) : Chip := { s with engCmd := s.engCmd ++ [o] }

/-! ## Sessions and checks -/

def serveBye (e : Started) (s : Chip) : Chip := sized 0 e (fun s => (s.answer e 0 []).post (.endOne e.q.uid)) s
def serveEcho (e : Started) (s : Chip) : Chip := s.post (.reply e.q 0 [e.ws])
def serveRelayClaim (e : Started) (s : Chip) : Chip :=
  sized 1 e (fun s =>
    let s := if bitAt (e.w 0) 0 then s.relayTake e.num e.r.eth e.r.ipv6
      else if s.holdsRelay e.num then s.relayDrop else s
    s.answer e 0 []) s

/-! ## Register accesses (R245) -/

/-- MAS address of an address pair. -/
def pairAddr (hi lo : Nat) : Nat := hi % 256 * 2 ^ 32 + lo

/-- Addresses of a list of address pairs. -/
def pairs : List W → List Nat
  | a :: b :: t => pairAddr a.toNat b.toNat :: pairs t
  | _ => []

/-- Addresses and values of a list of address pairs with a value each. -/
def triples : List W → List (Nat × W)
  | a :: b :: v :: t => (pairAddr a.toNat b.toNat, v) :: triples t
  | _ => []

/-- Status of an access that ends a list. -/
def stopStatus : MasRes → Nat
  | .ok _ => 0
  | .denied => 0x06
  | .misaligned => 0x10

/-- Reads in order until one is denied or misaligned: the state, the values, the status. -/
def readAll (view : List (Nat × Nat)) (m : Master) : List Nat → Chip → Chip × List Nat × Nat
  | [], s => (s, [], 0)
  | a :: t, s =>
    match s.masRead view m a with
    | (s, .ok v) => let (s, l, st) := readAll view m t s; (s, v :: l, st)
    | (s, r) => (s, [], stopStatus r)

/-- Writes in order until one is denied or misaligned: the state, the number done, the status. -/
def writeAll (m : Master) : List (Nat × W) → Chip → Chip × Nat × Nat
  | [], s => (s, 0, 0)
  | (a, v) :: t, s =>
    match s.masWrite m a v with
    | (s, .ok _) => let (s, n, st) := writeAll m t s; (s, n + 1, st)
    | (s, r) => (s, 0, stopStatus r)

def serveReads (e : Started) (l : List Nat) (s : Chip) : Chip :=
  let (s, vs, st) := readAll e.view (dmaMaster e.r.eth) l s
  s.answer e st (vs.length :: vs)

/-- A request that wrote through the merge buffer flushes it as it completes (R297). -/
def serveWrites (e : Started) (l : List (Nat × W)) (s : Chip) : Chip :=
  let (s, n, st) := writeAll (dmaMaster e.r.eth) l s
  (s.flushAll false).answer e st [n]

def serveRegRead (e : Started) (s : Chip) : Chip :=
  if e.len % 2 = 0 ∧ 0 < e.len ∧ e.len ≤ 128 then serveReads e (pairs e.ws) s else s.badLength e
def serveRegWrite (e : Started) (s : Chip) : Chip :=
  if e.len % 3 = 0 ∧ 0 < e.len ∧ e.len ≤ 192 then serveWrites e (triples e.ws) s else s.badLength e

/-- REG_RMW: a read and a write of one register. -/
def serveRegRmw (e : Started) (s : Chip) : Chip :=
  sized 4 e (fun s =>
    let a := pairAddr (e.w 0) (e.w 1)
    let m := dmaMaster e.r.eth
    match s.masRead e.view m a with
    | (s, .ok old) =>
      let new := (w32 old &&& ~~~(w32 (e.w 2))) ||| (w32 (e.w 3) &&& w32 (e.w 2))
      (match s.masWrite m a new with
        | (s, .ok _) => (s.flushAll false).answer e 0 [2, old]
        | (s, r) => s.answer e (stopStatus r) [1, old])
    | (s, r) => s.answer e (stopStatus r) [0]) s

def serveBulkRead (e : Started) (s : Chip) : Chip :=
  sized 3 e (fun s =>
    if 1 ≤ e.w 2 ∧ e.w 2 ≤ 2048 then
      serveReads e ((List.range (e.w 2)).map (fun i => pairAddr (e.w 0) (e.w 1) + 4 * i)) s
    else s.badLength e) s
def serveBulkWrite (e : Started) (s : Chip) : Chip :=
  if 3 ≤ e.len ∧ e.len ≤ 2050 then
    serveWrites e ((e.ws.drop 2).zipIdx.map (fun x => (pairAddr (e.w 0) (e.w 1) + 4 * x.2, x.1))) s
  else s.badLength e

/-! ## COUNTER_SWEEP (R246, R359) -/

/-- Most counters of a transfer. -/
def sweepUnit : Nat := 16

/-- The MPU lets the agent read the CNT_VAL_ registers of a counter; the address of its first register. -/
def cntAddr (n : Nat) : Nat := RName.CNT_VAL_LO.address 0 n 0
def Chip.sweepOk (s : Chip) (m : Master) (n : Nat) : Bool :=
  s.masAllows m 0 (cntAddr n) 4 && s.masAllows m 0 (RName.CNT_VAL_HI.address 0 n 0) 4

/-- Nanoseconds after `k` hub core cycles. -/
def Chip.nsAfter (s : Chip) (k : Nat) : Nat :=
  (s.time * 9 + k * [64, 80, 120, 240].getD (s.fld F.PWR_OP_STS.CUR) 64) / 144

/-- The entry of one counter. -/
def Chip.sweepEntry (s : Chip) (n k : Nat) : Chip × List Nat :=
  let s := s.freshCount n
  let v := s.counter n
  (s, [n * 2 ^ 16 + v / 2 ^ 32, v % 2 ^ 32, s.nsAfter k / 2 ^ 32, s.nsAfter k % 2 ^ 32])

def sweepEntries (first : Nat) : List Nat → Chip → Chip × List (List Nat)
  | [], s => (s, [])
  | n :: t, s =>
    let (s, x) := s.sweepEntry n (n - first)
    let (s, l) := sweepEntries first t s
    (s, x :: l)

/-- Transfers until one is denied: the state, the entries, the status. -/
def sweepAll (m : Master) (first : Nat) : Nat → List Nat → Chip → Chip × List (List Nat) × Nat
  | 0, _, s => (s, [], 0)
  | k + 1, l, s =>
    let now := l.take sweepUnit
    if now.isEmpty then (s, [], 0)
    else match now.find? (fun n => !s.sweepOk m n) with
      | some n => (s.mpuDeny m.ini m.level 0 (cntAddr n), [], 0x06)
      | none =>
        let (s, x) := sweepEntries first now s
        let (s, y, st) := sweepAll m first k (l.drop sweepUnit) s
        (s, x ++ y, st)

/-- Replies of at most `n` entries each, each led by its number. -/
def sweepParts (n : Nat) : Nat → Nat → List (List Nat) → List (List W)
  | 0, _, _ => []
  | k + 1, i, l =>
    (w32 i :: (l.take n).flatten.map w32) :: (if l.length ≤ n then [] else sweepParts n k (i + 1) (l.drop n))

def serveSweep (e : Started) (s : Chip) : Chip :=
  sized 1 e (fun s =>
    let first := bitsOf (e.w 0) 16 12
    let n := bitsOf (e.w 0) 0 13
    if n = 0 ∨ 4096 < n then s.badLength e
    else
      let l := rangeFrom first (min n (4096 - first))
      let (s, x, st) := sweepAll (dmaMaster e.r.eth) first (l.length + 1) l s
      s.post (.reply e.q st (sweepParts ((s.kmpMax e.r.eth e.r.ipv6 - 20) / 16) (x.length + 1) 0 x))) s

/-! ## Commands of the binding engine -/

def serveBind (e : Started) (s : Chip) : Chip :=
  sized 2 e (queued (.bind e.inst (bitsOf (e.w 0) 0 6) (w32 (e.w 1)) false (some e.q))) s
def serveUnbind (e : Started) (s : Chip) : Chip :=
  sized 2 e (queued (.unbind e.inst (bitsOf (e.w 0) 0 6) (bitAt (e.w 0) 31) (some e.q))) s
def servePortRemove (e : Started) (s : Chip) : Chip := sized 1 e (queued (.portRemove (bitsOf (e.w 0) 0 7) e.q)) s
def servePortAdmit (e : Started) (s : Chip) : Chip := sized 1 e (queued (.portAdmit (bitsOf (e.w 0) 0 7) e.q)) s
def serveAttach (e : Started) (s : Chip) : Chip := sized 1 e (queued (.attach e.inst none (some e.q))) s
def serveWindow (e : Started) (s : Chip) : Chip :=
  let tgt (k : Nat) : List W := (List.range 16).map (fun t => w32 (e.w (4 + 2 * t + k)))
  sized 36 e (queued (.window e.inst (bitsOf (e.w 0) 0 5)
    (winOf (w32 (e.w 1)) (w32 (e.w 2)) (w32 (e.w 3)) (tgt 0) (tgt 1)) (.kmp e.q))) s
def serveGroveCreate (e : Started) (s : Chip) : Chip := sized (groveWords e.ws) e (queued (.groveCreate e.ws e.q)) s
def serveGroveAdd (e : Started) (s : Chip) : Chip := sized 1 e (queued (.groveAdd (bitsOf (e.w 0) 0 5) e.inst e.q)) s
def serveGroveRemove (e : Started) (s : Chip) : Chip := sized 1 e (queued (.groveRemove (bitsOf (e.w 0) 0 5) e.inst e.q)) s
def serveGroveDissolve (e : Started) (s : Chip) : Chip := sized 1 e (queued (.groveDissolve (bitsOf (e.w 0) 0 5) e.q)) s
def serveGraftCreate (e : Started) (s : Chip) : Chip := sized 5 e (queued (.graftCreate e.ws e.q)) s
def serveGraftAbort (e : Started) (s : Chip) : Chip := sized 2 e (queued (.graftAbort e.ws e.q)) s
def serveGraftRelease (e : Started) (s : Chip) : Chip := sized 3 e (queued (.graftRelease e.ws e.q)) s
def serveGraftSettle (e : Started) (s : Chip) : Chip := sized 3 e (queued (.graftSettle e.ws e.q)) s

/-! ## FABRIC_ATOMIC (R163) -/

/-- The operation and operand size that the first word names, where PCI Express has them. -/
def atomForm (w0 : Nat) : Option (AtomOp × Nat) :=
  match bitsOf w0 28 4, bitsOf w0 24 4 with
  | 0, 2 => some (.fetchAdd, 4)
  | 0, 3 => some (.fetchAdd, 8)
  | 1, 2 => some (.swap, 4)
  | 1, 3 => some (.swap, 8)
  | 2, 2 => some (.cas, 4)
  | 2, 3 => some (.cas, 8)
  | 2, 4 => some (.cas, 16)
  | _, _ => none

/-- Operands of an operation. -/
def arity : AtomOp → Nat
  | .cas => 2
  | _ => 1

/-- The message that carries a fabric atomic to the agent cache of its line's home region, in the class QOS_HUB.MGMT (R163) of that
region: DESIGN CHOICE (log entry 123). -/
def Chip.atomicMsg (s : Chip) (e : Started) (op : AtomOp) (size g gw ga : Nat) : Msg :=
  let h := homeOf ga
  { id := s.nextId, kind := .ioAtomic op size, src := 152 + e.r.eth, iport := none, region := h, inst := 64, addr := ga
    data := bytesOfWords (e.ws.drop 3), sc := s.scMgmt h, loc := .home h, q := some e.q
    grove := some (g, gw), toHome := true }

def serveAtomic (e : Started) (s : Chip) : Chip :=
  let g := bitsOf (e.w 0) 0 5
  let ga := e.w 1 % 2 ^ 14 * 2 ^ 32 + e.w 2
  match atomForm (e.w 0) with
  | none => s.useFree.answer e (Config.atomicStatus s.freeCtr % 256) []
  | some (op, size) =>
    if e.len ≠ 3 + arity op * size / 4 then s.badLength e
    else if s.gFell g then s.answer e 8 []
    else
      let own := match s.groveAt ga with
        | some (k, gw) => if k = g then some gw else none
        | none => none
      match own with
      | some gw =>
        if s.gst g = gStanding ∧ ga % size = 0 then
          ({ s with msgs := s.msgs ++ [s.atomicMsg e op size g gw ga] } : Chip).fresh
        else s.useFree.answer e (Config.atomicStatus s.freeCtr % 256) []
      | none => s.useFree.answer e (Config.atomicStatus s.freeCtr % 256) []

/-! ## Mailbox and tunnel -/

def serveMailboxReply (e : Started) (s : Chip) : Chip :=
  if e.len < 4 ∨ 4096 < e.w 3 ∨ e.len ≠ 4 + (e.w 3 + 3) / 4 then s.badLength e
  else
    let (s, st) := s.mailboxReply e.num e.ws
    s.answer e st []

def serveTunnel (e : Started) (s : Chip) : Chip :=
  if e.w 0 < 12 ∨ e.len ≠ 1 + (e.w 0 + 3) / 4 then s.badLength e
  else
    let (s, a) := s.fmapi ((bytesOfWords (e.ws.drop 1)).take (e.w 0)) e.r.response
    s.answer e 0 (tunnelWords a)

/-! ## Power, faults, reset, tests -/

/-- POWER_STATE (R313). -/
def servePower (e : Started) (s : Chip) : Chip :=
  let a := bitsOf (e.w 0) 28 4
  if e.len ≠ (if a = 1 ∨ a = 2 then 7 else 1) then s.badLength e
  else if a = 0 then s.powerQuery e.q
  else s.pwrSubmit { src := .kmp e.q e.r.eth, action := a, op := bitsOf (e.w 0) 0 2
                     named := if a = 1 ∨ a = 2 then maskDoms ((List.range 6).map (fun i => e.w (1 + i))) else [] }

/-- FAULT_CLEAR (R292). -/
def serveFaultClear (e : Started) (s : Chip) : Chip :=
  sized 1 e (fun s => let (s, ws) := s.faultClear (bitsOf (e.w 0) 0 8); s.answer e 0 ws) s

/-- FAULT_RESUME (R288, R292). -/
def serveFaultResume (e : Started) (s : Chip) : Chip :=
  sized 1 e (fun s => let (s, warm) := s.resume (bitsOf (e.w 0) 0 1) e.q; if warm then s.post .reset else s) s

/-- CHIP_RESET: the reply, then a warm reset (R3). -/
def serveChipReset (e : Started) (s : Chip) : Chip := sized 0 e (fun s => (s.answer e 0 []).post .reset) s

/-- Words of a SELF_TEST request (R370). -/
def testWords (kind : Nat) : Nat := if kind = 3 then 17 else if kind = 4 then 5 else if kind = 5 then 2 else 1

def serveSelfTest (e : Started) (s : Chip) : Chip :=
  let kind := bitsOf (e.w 0) 28 4
  sized (testWords kind) e (selfTest kind e.q e.ws) s

/-! ## Image and life cycle -/

def serveImageErase (e : Started) (s : Chip) : Chip :=
  sized 3 e (fun s => let (s, ws) := imageErase e.ws e.r.flashError s; s.answer e 0 ws) s
def serveImageWrite (e : Started) (s : Chip) : Chip :=
  if 67 ≤ e.len ∧ e.len ≤ 1027 then let (s, ws) := imageWrite e.ws e.r.flashError s; s.answer e 0 ws else s.badLength e
def serveImageRead (e : Started) (s : Chip) : Chip := sized 4 e (fun s => s.answer e 0 (imageRead e.ws e.r.flashError s)) s
def serveImageVerify (e : Started) (s : Chip) : Chip :=
  sized 1 e (fun s => let (s, ws) := imageVerify e.ws e.r.flashError s; s.answer e 0 ws) s

def serveLcState (e : Started) (s : Chip) : Chip := sized 0 e (fun s => s.answer e 0 [s.lc]) s
def serveLcReturn (e : Started) (s : Chip) : Chip :=
  if bitAt (e.w 0) 0 then sized 55 e (lcToken e.q e.ws) s else sized 1 e (lcChallenge e.q) s
def serveLcAdvance (e : Started) (s : Chip) : Chip :=
  sized (if e.w 0 % 8 = 2 then 13 else 1) e (lcAdvance e.q e.ws) s

/-- LC_FUSE_PROGRAM_DONE: after SUCCESS a warm reset follows the reply (R373). -/
def lcFusesDone (ok : Bool) (left : Nat) (s : Chip) : Chip :=
  let (s, warm) := s.lcEnd ok left
  if warm then s.post .reset else s

/-! ## What is accepted (R240, R249, Table 19.6) -/

/-- Opcodes that a life-cycle state accepts (Table 19.6). -/
def lcAccepts (opcode lc : Nat) : Bool :=
  if [0x0001, 0x0002, 0x0003, 0x0620, 0x0710].contains opcode then true
  else if opcode = 0x0711 then decide (lc = 2)
  else if opcode = 0x0712 then decide (lc = 0) || decide (lc = 1) || decide (lc = 3)
  else decide (lc ≠ 4)

/-- Opcodes that are answered where the image is invalid (R240). -/
def invalidAccepts (opcode : Nat) : Bool :=
  [0x0001, 0x0002, 0x0003, 0x0620, 0x0710, 0x0700, 0x0701, 0x0702, 0x0703].contains opcode

/-- Requests that a halted Ethernet DMA engine loses (R300). -/
def dmaServed (opcode : Nat) : Bool :=
  [0x0100, 0x0101, 0x0102, 0x0110, 0x0111, 0x0120, 0x0700, 0x0701, 0x0702, 0x0703].contains opcode

/-- Requests whose replies are not kept (R243). -/
def repeatable (opcode : Nat) : Bool := [0x0100, 0x0110, 0x0120, 0x0003, 0x0710, 0x0702].contains opcode

/-- The meaning of each opcode of Table 12.5. -/
def serveOpcode (e : Started) (s : Chip) : Chip :=
  match e.q.opcode with
  | 0x0002 => serveBye e s
  | 0x0003 => serveEcho e s
  | 0x0004 => serveRelayClaim e s
  | 0x0100 => serveRegRead e s
  | 0x0101 => serveRegWrite e s
  | 0x0102 => serveRegRmw e s
  | 0x0110 => serveBulkRead e s
  | 0x0111 => serveBulkWrite e s
  | 0x0120 => serveSweep e s
  | 0x0200 => serveBind e s
  | 0x0201 => serveUnbind e s
  | 0x0202 => servePortRemove e s
  | 0x0203 => servePortAdmit e s
  | 0x0204 => serveAttach e s
  | 0x0210 => serveWindow e s
  | 0x0300 => serveGroveCreate e s
  | 0x0301 => serveGroveAdd e s
  | 0x0302 => serveGroveRemove e s
  | 0x0303 => serveGroveDissolve e s
  | 0x0310 => serveAtomic e s
  | 0x0400 => serveGraftCreate e s
  | 0x0401 => serveGraftAbort e s
  | 0x0402 => serveGraftRelease e s
  | 0x0403 => serveGraftSettle e s
  | 0x0500 => serveMailboxReply e s
  | 0x0510 => serveTunnel e s
  | 0x0600 => servePower e s
  | 0x0610 => serveFaultClear e s
  | 0x0611 => serveFaultResume e s
  | 0x0620 => serveChipReset e s
  | 0x0630 => serveSelfTest e s
  | 0x0700 => serveImageErase e s
  | 0x0701 => serveImageWrite e s
  | 0x0702 => serveImageRead e s
  | 0x0703 => serveImageVerify e s
  | 0x0710 => serveLcState e s
  | 0x0711 => serveLcReturn e s
  | 0x0712 => serveLcAdvance e s
  | _ => s.answer e 1 []

/-- A request that has started: LIFECYCLE, then NOT_READY, then its meaning. -/
def serve (e : Started) (s : Chip) : Chip :=
  if !lcAccepts e.q.opcode s.lc then s.answer e 0x0B []
  else if s.fld F.IMG_STS.STATE ≠ 1 ∧ invalidAccepts e.q.opcode = false then s.answer e 5 []
  else serveOpcode e s

end Sys2Proof.Machine
end

