-- ==== Sys2Proof/Machine/Kmp.lean ====
section
/-! DEFINITION. The Kuken Management Protocol: sessions (R236 to R239), sequencing and retry (R240 to R243), events (R244), and the
end of every command, as spec/12_management_plane.md gives them. -/

namespace Sys2Proof.Machine

/-! ## Settings -/

/-- KMP_CFG.UDP_PORT. -/
def Chip.kmpPort (c : Chip) : Nat := if c.fld F.KMP_CFG.UDP_PORT = 0 then 50517 else c.fld F.KMP_CFG.UDP_PORT
/-- KMP_TIMING in the time base, and sends of one event. -/
def Chip.gapTime (c : Chip) : Nat := max 10 (c.fld F.KMP_TIMING.GAP_MS) * msT
def Chip.evtRetry (c : Chip) : Nat := max 1 (c.fld F.KMP_TIMING.EVT_RETRY) * msT
def Chip.evtTries (c : Chip) : Nat := max 1 (c.fld F.KMP_TIMING.EVT_TRIES)
/-- KMP over the IP version of a datagram is enabled. -/
def Chip.kmpOver (c : Chip) (ipv6 : Bool) : Bool := if ipv6 then c.is F.KMP_CFG.IPV6_EN else c.is F.KMP_CFG.IPV4_EN

/-- Limits of R238, R241, R243 and R244. -/
def maxSessions : Nat := 8
def maxProg : Nat := 16
def maxKept : Nat := 64
def maxUnacked : Nat := 32
def maxQueued : Nat := 256

/-! ## Sessions -/

/-- The session of an identity, and of a number. -/
def Kmp.find (k : Kmp) (uid : Nat) : Option Sess := k.sess.find? (fun x => decide (x.uid = uid))
def Kmp.numbered (k : Kmp) (num : Nat) : Option Sess := k.sess.find? (fun x => decide (x.num = num))

/-- A session is replaced by what it has become. -/
def Kmp.put (k : Kmp) (x : Sess) : Kmp := { k with sess := k.sess.map (fun y => if y.uid = x.uid then x else y) }

/-- A datagram comes from a session's key (R238). -/
def Sess.keyed (x : Sess) (r : KmpReq) : Bool := decide (x.eth = r.eth) && decide (x.ip = r.ip) && decide (x.udp = r.udp)

/-- The session that a datagram names, from its key. -/
def Kmp.named (k : Kmp) (r : KmpReq) : Option Sess := (k.numbered r.session).filter (fun x => x.keyed r)

/-- KMP_SESS_STS and KMP_SESS_EVT of session `num`. -/
def State.sessWords (s : State) (num : Nat) : Nat × Nat :=
  match s.kmp.numbered num with
  | none => (0, 0)
  | some x =>
    (2 ^ 31 + x.eth % 2 * 2 ^ 30 + b2n (s.chip.holdsRelay num) * 2 ^ 29 + b2n x.ipv6 * 2 ^ 28 + x.major % 256 * 2 ^ 16
        + x.keepalive % 2 ^ 16,
      x.unacked.length % 256 * 2 ^ 24 + min maxQueued x.queue.length)
def State.view (s : State) : List (Nat × Nat) := (rangeFrom 1 maxSessions).map s.sessWords

def State.withChip (s : State) (c : Chip) : State := { s with chip := c }
def State.putSess (s : State) (x : Sess) : State := { s with kmp := s.kmp.put x }

/-! ## Datagrams -/

/-- A datagram to a session's peer, where the port carries it. -/
def Chip.kmpSend (c : Chip) (x : Sess) (opcode flags seq session : Nat) (ws : List W) : Chip :=
  if c.ethCarries x.eth then
    (c.out (.kmp { eth := x.eth, mac := x.mac, ip := x.ip, udp := x.udp, sport := c.kmpPort, major := x.major, minor := 0
                   opcode := opcode, flags := flags, seq := seq, session := session, words := ws })).count (cntEth x.eth 1)
  else c

def flagReply : Nat := 0x8000
def flagEvent : Nat := 0x4000
def flagMore : Nat := 0x1000

/-- The datagrams of a reply: every one but the last has MORE, the last has the status. -/
def Chip.sendParts (c : Chip) (x : Sess) (opcode seq session status : Nat) : List (List W) → Chip
  | [] => c
  | [ws] => c.kmpSend x opcode (flagReply + status % 256) seq session ws
  | ws :: t => (c.kmpSend x opcode (flagReply + flagMore) seq session ws).sendParts x opcode seq session status t

/-- A reply that exceeds the message size becomes TOO_BIG (R234). -/
def Chip.fitted (c : Chip) (x : Sess) (status : Nat) (parts : List (List W)) : Nat × List (List W) :=
  if parts.any (fun ws => decide (c.kmpMax x.eth x.ipv6 < 16 + 4 * ws.length)) then (0x0A, [[]]) else (status, parts)

/-- A peer without a session, for replies that have none. -/
def strangerOf (r : KmpReq) (major : Nat) : Sess :=
  { num := 0, uid := 0, eth := r.eth, mac := r.mac, ip := r.ip, udp := r.udp, ipv6 := r.ipv6, major := major, keepalive := 0
    heard := 0, expect := 0 }

/-- A reply outside a session. -/
def Chip.replyBare (c : Chip) (r : KmpReq) (opcode session status : Nat) (ws : List Nat) : Chip :=
  c.sendParts (strangerOf r 1) opcode r.seq session status [ws.map w32]

/-! ## Events (R244) -/

/-- Queued events are sent while fewer than 32 are unacknowledged. -/
def pump : Nat → Chip → Sess → Chip × Sess
  | 0, c, x => (c, x)
  | n + 1, c, x =>
    match x.queue with
    | [] => (c, x)
    | (code, ws) :: rest =>
      if maxUnacked ≤ x.unacked.length then (c, x)
      else
        let c := (c.kmpSend x code flagEvent x.evtNext x.num ws).count (cntEth x.eth 11)
        let u : Unacked := { seq := x.evtNext, code := code, words := ws, sends := 1, last := c.time }
        pump n c { x with queue := rest, evtNext := (x.evtNext + 1) % 2 ^ 32, unacked := x.unacked ++ [u] }

/-- Room has returned: EVENTS_LOST carries the count of the events discarded. -/
def Sess.noteLost (x : Sess) : Sess :=
  if x.lost ≠ 0 ∧ x.queue.length < maxQueued then { x with queue := x.queue ++ [(0x0840, [w32 x.lost])], lost := 0 } else x

def Chip.flow (c : Chip) (x : Sess) : Chip × Sess :=
  let (c, x) := pump (x.queue.length + 1) c x
  let x := x.noteLost
  pump (x.queue.length + 1) c x

/-- A new event for a session. -/
def Chip.pushEvent (c : Chip) (x : Sess) (code : Nat) (ws : List W) : Chip × Sess :=
  if x.queue.length < maxQueued then c.flow { x with queue := x.queue ++ [(code, ws)] }
  else (c.count (cntEth x.eth 13), { x with lost := x.lost + 1 })

/-- A MAILBOX_RELAY for the holder of the role: one waits for each instance. -/
def Chip.pushRelay (c : Chip) (x : Sess) (ws : List W) : Chip × Sess :=
  let same (e : Nat × List W) : Bool := decide (e.1 = 0x0820) && decide (wordAt e.2 0 / 2 ^ 16 = wordAt ws 0 / 2 ^ 16)
  c.flow { x with queue := x.queue.filter (fun e => !same e) ++ [(0x0820, ws)] }

/-! ## End of a session (R239) -/

/-- A session ends: its queued events go, and its relay role is released. -/
def State.endSess (s : State) (x : Sess) : State :=
  let c := if s.chip.holdsRelay x.num then s.chip.relayDrop else s.chip
  { s with chip := c, kmp := { s.kmp with sess := s.kmp.sess.filter (fun y => decide (y.uid ≠ x.uid)) } }

def State.endWhere (s : State) (f : Sess → Bool) : State := foldl' (s.kmp.sess.filter f) (fun x s => s.endSess x) s

/-! ## Delivery of what a command has posted -/

/-- The latest 64 requests started keep their replies (R243). -/
def Sess.keep (x : Sess) (k : Kept) : Sess :=
  let l := x.kept.filter (fun y => decide (y.seq ≠ k.seq) && decide ((x.expect + 2 ^ 32 - y.seq) % 2 ^ 32 ≤ maxKept)) ++ [k]
  { x with kept := l.drop (l.length - maxKept) }

/-- A request completes: its reply goes out, and is kept where R243 keeps it. -/
def State.deliverReply (s : State) (q : ReqId) (status : Nat) (parts : List (List W)) : State :=
  match s.kmp.find q.uid with
  | none => s
  | some x =>
    let (status, parts) := s.chip.fitted x status parts
    let y := if x.prog.contains q then
        let z := { x with prog := x.prog.filter (fun p => decide (p ≠ q)) }
        if repeatable q.opcode then z else z.keep { seq := q.seq, opcode := q.opcode, status := status, parts := parts }
      else x
    (s.withChip (s.chip.sendParts x q.opcode q.seq x.num status parts)).putSess y

/-- One posted notice. -/
def State.deliver (s : State) : Mail → State
  | .reply q status parts => s.deliverReply q status parts
  | .event code ws => foldl' (s.kmp.sess.map (·.uid)) (fun uid s =>
      match s.kmp.find uid with
      | some x => let (c, x) := s.chip.pushEvent x code ws; (s.withChip c).putSess x
      | none => s) s
  | .relay ws =>
    (match s.chip.relay with
      | some (num, _, _) => (match s.kmp.numbered num with
          | some x => let (c, x) := s.chip.pushRelay x ws; (s.withChip c).putSess x
          | none => s)
      | none => s)
  | .endAll => s.endWhere (fun _ => true)
  | .dark => (s.withChip (ethLinkDown 1 (ethLinkDown 0 s.chip))).endWhere (fun _ => true)
  | .endPort e => s.endWhere (fun x => decide (x.eth = e))
  | .endOne uid => s.endWhere (fun x => decide (x.uid = uid))
  | .reset => s.withChip s.chip.warmReset

/-! ## The end of a command -/

/-- What follows by itself: safe state for a class F error, the binding engine, groves freed, slots under test, power commands. -/
def Chip.enterFatal (c : Chip) : Chip :=
  match c.fatal with
  | some k => { c.enterSafe k with fatal := none }
  | none => c
def Chip.tidy (c : Chip) : Chip :=
  let c := c.enterFatal.engine
  let c := foldl' ((c.gholds.filter (·.writes)).map (·.grove)) (fun g c => c.releaseFelled g) c
  c.testSlots.pwrPump.enterFatal

/-- Notices are delivered until none is left. -/
def settleN : Nat → State → State
  | 0, s => s
  | n + 1, s =>
    let c := s.chip.tidy
    match c.mail with
    | [] => s.withChip c
    | l => settleN n (foldl' l (fun m s => s.deliver m) (s.withChip { c with mail := [] }))

def State.settle (s : State) : State := settleN 4 s

/-! ## HELLO (R236 to R238) -/

/-- The lowest free session number. -/
def Kmp.freeNum (k : Kmp) : Nat := ((rangeFrom 1 maxSessions).find? (fun n => (k.numbered n).isNone)).getD maxSessions

/-- What HELLO tells of the chip: stepping A0, behaviour level, life-cycle state; image done, image invalid. -/
def Chip.helloWords (c : Chip) (keepalive : Nat) (relay : Bool) : List Nat :=
  let st := c.fld F.IMG_STS.STATE
  [2 ^ 24 + keepalive, b2n relay, (if st = 1 then c.fld F.IMG_STS.LEVEL else 0) * 2 ^ 16 + c.lc,
    b2n (decide (st = 1)) + 2 * b2n (decide (2 ≤ st))]

/-- A session opens. -/
def State.openSess (s : State) (r : KmpReq) : State :=
  let ka := clampTo 100 60000 (wordAt r.words 0 % 2 ^ 16)
  let relay := bitAt (wordAt r.words 1) 0
  let x : Sess := { num := s.kmp.freeNum, uid := s.kmp.nextUid, eth := r.eth, mac := r.mac, ip := r.ip, udp := r.udp
                    ipv6 := r.ipv6, major := 1, keepalive := ka, heard := s.chip.time, expect := (r.seq + 1) % 2 ^ 32 }
  let s : State := { s with kmp := { sess := s.kmp.sess ++ [x], nextUid := s.kmp.nextUid + 1 } }
  let c := if relay then s.chip.relayTake x.num x.eth x.ipv6 else s.chip
  s.withChip (c.sendParts x 0x0001 r.seq x.num 0 [(c.helloWords ka relay).map w32])

def State.hello (s : State) (r : KmpReq) : State :=
  let w0 := wordAt r.words 0
  if r.words.length ≠ 2 then s.withChip (s.chip.replyBare r 0x0001 0 2 [])
  else if ¬(w0 / 2 ^ 24 ≤ 1 ∧ 1 ≤ w0 / 2 ^ 16 % 256) then s.withChip (s.chip.replyBare r 0x0001 0 4 [0x01010000])
  else
    let s := s.endWhere (fun x => x.keyed r)
    if maxSessions ≤ s.kmp.sess.length then s.withChip (s.chip.replyBare r 0x0001 0 0x0E [])
    else s.openSess r

/-! ## Requests of a session (R240 to R243) -/

/-- The request that a session expects starts, or returns BUSY; whether it has started. -/
def State.start (s : State) (x : Sess) (opcode : Nat) (r : KmpReq) : State :=
  if maxProg ≤ x.prog.length then s.withChip ((s.chip.count (cntEth x.eth 9)).sendParts x opcode r.seq x.num 9 [[]])
  else
    let q : ReqId := { uid := x.uid, seq := r.seq, opcode := opcode }
    let s := s.putSess { x with expect := (x.expect + 1) % 2 ^ 32, started := x.started + 1, prog := x.prog ++ [q] }
    (s.withChip (serve { num := x.num, q := q, r := r, view := s.view } (s.chip.count (cntEth x.eth 7)))).settle

/-- Held requests that have become next in turn start in order. -/
def startHeld : Nat → Nat → State → State
  | 0, _, s => s
  | n + 1, uid, s =>
    match s.kmp.find uid with
    | none => s
    | some x =>
      match x.held.find? (fun h => decide (h.q.seq = x.expect)) with
      | none => s
      | some h =>
        let x := { x with held := x.held.filter (fun y => decide (y.q.seq ≠ x.expect)) }
        startHeld n uid ((s.putSess x).start x h.opcode h.q)

/-- A retransmission of a request that started `age` requests ago (R241, R243). -/
def State.again (s : State) (x : Sess) (opcode : Nat) (r : KmpReq) (age : Nat) : State :=
  let c := s.chip
  if x.prog.any (fun p => decide (p.seq = r.seq)) then s.withChip (c.sendParts x opcode r.seq x.num 0x0F [[]])
  else if x.started < age then
    s.withChip ((c.count (cntEth x.eth 10)).sendParts x opcode r.seq x.num 0x0C [[w32 x.expect]])
  else match x.kept.find? (fun k => decide (k.seq = r.seq)) with
    | some k => s.withChip ((c.count (cntEth x.eth 8)).sendParts x k.opcode r.seq x.num k.status k.parts)
    | none =>
      if repeatable opcode then
        let q : ReqId := { uid := x.uid, seq := r.seq, opcode := opcode }
        (s.withChip (serve { num := x.num, q := q, r := r, view := s.view } (c.count (cntEth x.eth 8)))).settle
      else s

/-- A request of session `x`, by its sequence number (R241). -/
def State.sequence (s : State) (x : Sess) (opcode : Nat) (r : KmpReq) : State :=
  let d := (r.seq + 2 ^ 32 - x.expect) % 2 ^ 32
  if d = 0 then startHeld 16 x.uid (s.start x opcode r)
  else if d ≤ 15 then
    if x.held.any (fun h => decide (h.q.seq = r.seq)) then s
    else s.putSess { x with held := x.held ++ [{ opcode := opcode, q := r, since := s.chip.time }] }
  else if 2 ^ 32 - 64 ≤ d then s.again x opcode r (2 ^ 32 - d)
  else s.withChip ((s.chip.count (cntEth x.eth 10)).sendParts x opcode r.seq x.num 0x0C [[w32 x.expect]])

/-- A KMP request arrives (R234, R238, R240, R300). -/
def State.request (s : State) (opcode : Nat) (r : KmpReq) : State :=
  let c := s.chip
  if !c.ethCarries r.eth || !c.kmpOver r.ipv6 then s
  else if opcode = 0x0001 then s.hello r
  else
    let loading := decide (c.fld F.IMG_STS.STATE = 0)
    match s.kmp.named r with
    | none => if loading then s else s.withChip (c.replyBare r opcode 0 3 [])
    | some x =>
      if r.major ≠ x.major then
        if loading then s else s.withChip (c.sendParts x opcode r.seq x.num 4 [[]])
      else
        let x := { x with heard := c.time, mac := r.mac }
        let s := s.putSess x
        if loading ∨ (dmaServed opcode ∧ c.dmaHalted r.eth) then s
        else s.sequence x opcode r

/-- The first word of a request, with bits `lo` to `lo + w - 1` as the command's row says. -/
def force (r : KmpReq) (lo w v : Nat) : KmpReq :=
  match r.words with
  | [] => r
  | a :: t => { r with words := w32 (putBits a.toNat lo w v) :: t }

/-! ## Acknowledgements and timers -/

/-- EVENT_ACK (R244): an acknowledgement with the event's opcode and sequence number. -/
def State.eventAck (s : State) (r : KmpReq) (code : Nat) : State :=
  if !s.chip.ethCarries r.eth || !s.chip.kmpOver r.ipv6 then s
  else match s.kmp.named r with
    | none => s
    | some x =>
      if r.major ≠ x.major then s
      else
        let x := { x with heard := s.chip.time, mac := r.mac
                          unacked := x.unacked.filter (fun u => !(decide (u.seq = r.seq) && decide (u.code = code))) }
        let (c, x) := s.chip.flow x
        (s.withChip c).putSess x

/-- EVENT_RETRY (R244): the event numbered `seq` of session `num` has waited EVT_RETRY. -/
def State.eventRetry (s : State) (num seq : Nat) : State :=
  match s.kmp.numbered num with
  | none => s
  | some x =>
    match x.unacked.find? (fun u => decide (u.seq = seq)) with
    | none => s
    | some u =>
      if s.chip.time < u.last + s.chip.evtRetry then s
      else if s.chip.evtTries ≤ u.sends then s.endSess x
      else
        let c := (s.chip.kmpSend x u.code flagEvent u.seq x.num u.words).count (cntEth x.eth 12)
        (s.withChip c).putSess { x with
          unacked := x.unacked.map (fun v => if v.seq = seq then { v with sends := v.sends + 1, last := c.time } else v) }

/-- SESSION_KEEPALIVE_EXPIRE (R239). -/
def State.keepaliveExpire (s : State) (num : Nat) : State :=
  match s.kmp.numbered num with
  | none => s
  | some x => if s.chip.time < x.heard + x.keepalive * msT then s else s.endSess x

/-- SEQUENCE_GAP_EXPIRE (R241). -/
def State.gapExpire (s : State) (num : Nat) : State :=
  match s.kmp.numbered num with
  | none => s
  | some x =>
    if x.held.any (fun h => decide (h.since + s.chip.gapTime ≤ s.chip.time)) then s.putSess { x with held := [] } else s

/-- KMP_DATAGRAM_DISCARD (R234). -/
def datagramDiscard (e : Nat) (c : Chip) : Chip := if c.ethCarries e then c.count (cntEth e 6) else c

/-- KMP_CFG_WRITE (R239). -/
def kmpCfgWrite (v : W) (c : Chip) : Chip := (c.plainWrite ⟨.KMP_CFG, 0, 0⟩ v).post .endAll

end Sys2Proof.Machine
end

