-- ==== Sys2Proof/Machine/Run.lean ====
section
/-! DEFINITION. How every command runs: on the chip, or on the chip with its sessions, and then what follows by itself. -/

namespace Sys2Proof.Machine

/-- A command: `ok` tells whether its operands name parts that the TH512 has. What the chip sends is shown until the next command. -/
def run (ok : Bool) (f : State → State) (s : State) : Host.Outcome State Fault Refusal :=
  if ok then .next (f (s.withChip { s.chip with outbox := [] })).settle else .fault .noSuchPart

/-- A command that acts on the chip. -/
def onChip (ok : Bool) (f : Chip → Chip) : State → Host.Outcome State Fault Refusal :=
  run ok (fun s => s.withChip (f s.chip))

/-- A KMP request. -/
def kmp (ok : Bool) (opcode : Nat) (r : KmpReq) : State → Host.Outcome State Fault Refusal :=
  run ok (fun s => s.request opcode r)

/-- A frame's KMP header names a session established for its key (R100). -/
def State.knows (s : State) (e : Nat) : FrameClass → Bool
  | .kmp ip udp num _ => s.kmp.sess.any (fun x => decide (x.num = num) && decide (x.eth = e) && decide (x.ip = ip) && decide (x.udp = udp))
  | _ => false

end Sys2Proof.Machine
end

