-- ==== Sys2Proof/WellFormed.lean ====
section
/-! DEFINITION. Well-formed commands: every operand names a part that the TH512 has, and every field of a datagram fits its width. -/

namespace Sys2Proof

/-- A KMP request whose fields fit their widths (Tables 12.2 and 5.5). -/
def KmpReq.wf (q : KmpReq) : Bool :=
  decide (q.eth < 2) && decide (q.udp < 2 ^ 16) && decide (q.major < 256) && decide (q.seq < 2 ^ 32) && decide (q.session < 2 ^ 16) &&
    decide (q.words.length < 2 ^ 16)

/-- The way that a snoop-filter error names is one of the sixteen of a set (R154). -/
def HomeErr.wayOk : HomeErr → Bool
  | .sfUncorrectable w => decide (w < 16)
  | .sfStuck w => decide (w < 16)
  | _ => true

/-- A command that can reach the TH512. -/
def Instr.wf : Instr → Bool
  | .coldReset _ => true
  | .aoBrownout _ => true
  | .startUp x => x.pages.all (fun y => decide (y.1 < 32768) && decide (y.2.length = 4096))
  | .imageDone => true
  | .waveBegin w => decide (w < 8)
  | .rollbackAdvance => true
  | .hello q => q.wf
  | .bye q => q.wf
  | .echo q => q.wf
  | .relayClaim q => q.wf
  | .regRead q => q.wf
  | .regWrite q => q.wf
  | .regRmw q => q.wf
  | .bulkRead q => q.wf
  | .bulkWrite q => q.wf
  | .counterSweep q => q.wf
  | .bindVppb q => q.wf
  | .unbindDrain q => q.wf
  | .unbindSquash q => q.wf
  | .portRemove q => q.wf
  | .portAdmit q => q.wf
  | .instAttach q => q.wf
  | .windowSet q => q.wf
  | .groveCreate q => q.wf
  | .groveMemberAdd q => q.wf
  | .groveMemberRemove q => q.wf
  | .groveDissolve q => q.wf
  | .fabricAtomic q => q.wf
  | .graftCreate q => q.wf
  | .graftAbort q => q.wf
  | .graftReleaseChecked q => q.wf
  | .graftReleaseForced q => q.wf
  | .graftSettle q => q.wf
  | .mailboxReply q => q.wf
  | .fmapiTunnel q => q.wf
  | .powerQuery q => q.wf
  | .powerOff q => q.wf
  | .powerOn q => q.wf
  | .enterDormant q => q.wf
  | .setOperatingPoint q => q.wf
  | .faultClear q => q.wf
  | .faultResumeRestart q => q.wf
  | .faultResumeWarm q => q.wf
  | .chipReset q => q.wf
  | .selfTestMemory q => q.wf
  | .selfTestFullBist q => q.wf
  | .selfTestLogicBist q => q.wf
  | .selfTestLane q => q.wf
  | .selfTestSlotConverter q => q.wf
  | .selfTestDroop q => q.wf
  | .selfTestTemperature q => q.wf
  | .testSectionTimeout u c n => decide (u < 9) && decide (c < 6) && decide (n < 8192)
  | .testSectionRetry u c n => decide (u < 9) && decide (c < 6) && decide (n < 8192)
  | .selfTestEnd failed _ _ => decide (failed < 2 ^ 128)
  | .imageErase q => q.wf
  | .imageWrite q => q.wf
  | .imageRead q => q.wf
  | .imageVerify q => q.wf
  | .lcState q => q.wf
  | .lcReturnChallenge q => q.wf
  | .lcReturnToken q => q.wf
  | .lcChallengeExpire => true
  | .lcAdvance q => q.wf
  | .lcFuseProgramDone _ _ => true
  | .eventAck q code => q.wf && decide (code < 65536)
  | .eventRetry num _ => decide (0 < num) && decide (num < 9)
  | .sessionKeepaliveExpire num => decide (0 < num) && decide (num < 9)
  | .sequenceGapExpire num => decide (0 < num) && decide (num < 9)
  | .kmpDatagramDiscard e => decide (e < 2)
  | .kmpCfgWrite _ => true
  | .ethFrameReceive e _ => decide (e < 2)
  | .arpRequest e _ => decide (e < 2)
  | .neighbourSolicitation e _ => decide (e < 2)
  | .icmpEchoRequest e _ _ _ => decide (e < 2)
  | .mkaFrame e _ => decide (e < 2)
  | .sakRekey e _ => decide (e < 2)
  | .ethLinkUp e phy fec => decide (e < 2) && decide (phy < 8) && decide (fec < 4)
  | .ethLinkDown e => decide (e < 2)
  | .celPortCfgWrite c _ => decide (c < 128)
  | .partnerDetected p => decide (p < 128)
  | .receiverDetectRepeat p => decide (p < 128)
  | .trainingStepComplete p _ => decide (p < 128)
  | .trainingStepFail p => decide (p < 128)
  | .linkUp p lds _ _ => decide (p < 128) && decide (lds < 17)
  | .linkFlitReceive p lane _ => decide (p < 128) && decide (lane < 16)
  | .messageTailCrcFail p _ => decide (p < 128)
  | .reEqualization p => decide (p < 128)
  | .linkProtocolViolation p => decide (p < 128)
  | .perstNAssert p _ => decide (p < 128)
  | .perstNRelease p => decide (p < 128)
  | .upstreamHotReset p => decide (p < 128)
  | .dpcTrigger p => decide (p < 128)
  | .partnerLaneMargining c lane _ _ => decide (c < 128) && decide (lane < 4)
  | .marginScanStart c lane _ => decide (c < 128) && decide (lane < 4)
  | .marginScanDone c lane _ => decide (c < 128) && decide (lane < 4)
  | .testEnable c _ => decide (c < 128)
  | .testDisable c _ => decide (c < 128)
  | .loopModeSet c _ => decide (c < 128)
  | .remoteLoopbackTimeout c => decide (c < 128)
  | .prbsClear c lane _ => decide (c < 128) && decide (lane < 4)
  | .prbsCheckerLock c lane => decide (c < 128) && decide (lane < 4)
  | .prbsCheckerUnlock c lane _ _ => decide (c < 128) && decide (lane < 4)
  | .ingressMessageArrival p m => decide (p < 128) && decide (m.vb < 256) && decide (m.data.length ≤ 4096)
  | .contractBucketRefill p => decide (p < 128)
  | .contractEnable p => decide (p < 128)
  | .committedWaitTimeout p => decide (p < 128)
  | .ingressToEgressMove _ ecc => decide (ecc < 5)
  | .meshInject _ => true
  | .meshPacketArrive _ net header => decide (net < 4) && decide (header < 4)
  | .landingMove _ => true
  | .multicastCopyLand _ => true
  | .egressQueueReopen p sc => decide (p < 128) && decide (sc < 12)
  | .queueStateBroadcast r => decide (r < 8)
  | .egressTransmit p => decide (p < 128)
  | .linkCreditReturn p mc _ _ => decide (p < 128) && decide (mc < 12)
  | .transactionEnd _ => true
  | .portDown p _ => decide (p < 128)
  | .flushDone p => decide (p < 128)
  | .instCfgWrite n _ => decide (n < 64)
  | .secondaryBusResetSet n v => decide (n < 64) && decide (v < 64)
  | .secondaryBusResetClear n v => decide (n < 64) && decide (v < 64)
  | .drainDone n v => decide (n < 64) && decide (v < 64)
  | .drainTimeout n v => decide (n < 64) && decide (v < 64)
  | .squashDone n v => decide (n < 64) && decide (v < 64)
  | .downLimitExpire p => decide (p < 128)
  | .loopCheckDone p _ => decide (p < 128)
  | .loopCheckTimeout p => decide (p < 128)
  | .mailboxDoorbell n _ _ => decide (n < 64)
  | .mailboxRelayTimeout n => decide (n < 64)
  | .windowCommit r _ => decide (r < 8)
  | .epochCommit => true
  | .epochStall _ => true
  | .mpuAttrWrite ini e _ => decide (ini < 256) && decide (e < 32)
  | .mpuBaseWrite ini e _ => decide (ini < 256) && decide (e < 32)
  | .registerWrite ini level addr _ _ => decide (136 ≤ ini) && decide (ini < 156) && decide (level < 3) && decide (addr < 2 ^ 40)
  | .homeRequest _ e => e.wayOk
  | .birspArrival _ => true
  | .homeDeviceResponse _ => true
  | .biconflict _ => true
  | .birspTimeout _ n => decide (n < 64)
  | .groveFellingComplete g => decide (g < 32)
  | .deviceViral p => decide (p < 128)
  | .groveTargetsUp g => decide (g < 32)
  | .removalWalkDone g => decide (g < 32)
  | .agentAtomic _ e => e.wayOk
  | .snfProbeStart r _ e => decide (r < 8) && e.wayOk
  | .ertProbeStart r _ => decide (r < 8)
  | .graftArmedDrained c => decide (c < 16)
  | .chunkReadIssue c _ => decide (c < 16)
  | .chunkLineReturn _ => true
  | .mirroredWriteComplete _ => true
  | .graftCopyDone c => decide (c < 16)
  | .graftSwitch c => decide (c < 16)
  | .graftXferTimeout c => decide (c < 16)
  | .graftFlipTimeout c => decide (c < 16)
  | .channelHaltClear c => decide (c < 16)
  | .boundaryPacketArrive _ net => decide (net < 4)
  | .domainEntryAnswer d => decide (d < 182)
  | .entryLimitExpire => true
  | .regionDrained r => decide (r < 8)
  | .retentionSaveDone => true
  | .domainReady node h _ => decide (node < 9) && decide (h < 8)
  | .nocRouteFlip _ => true
  | .epochMarkerArrive src dst net vc plane => decide (src < 9) && decide (dst < 9) && decide (net < 4) && decide (vc < 4) && decide (plane < 2)
  | .routeTableWrite node t _ => decide (node < 9) && decide (t < 8)
  | .statSnapshot _ => true
  | .statClear => true
  | .faultRecordPropagate c => decide (c < 169)
  | .fltRecClear c => decide (c < 169)
  | .failTest => true
  | .failTestEnd => true
  | .heartbeatLoss => true
  | .heartbeatReturn => true
  | .temperatureSample _ => true
  | .supplyOutOfWindow rail => decide (rail < 7)
  | .droopWarning r _ => decide (r < 8)
  | .droopRelease r => decide (r < 8)
  | .droopReset r _ => decide (r < 8)
  | .droopCfgWrite _ => true
  | .avsSettled _ => true
  | .avsSettleTimeout => true
  | .alarmFire _ => true
  | .refclkLoss which => decide (which < 3)
  | .xtalStable => true
  | .xtalFail => true
  | .timeBaseRead ini => decide (ini < 256)
  | .sramNarrowWrite _ a data => decide (a < 2 ^ 22) && decide (data.length < 9)
  | .mergeBufferFlush _ w _ => decide (w < 524288)
  | .scrubStart blk c _ => decide (blk < 9) && decide (c < 6-blk/8)
  | .scrubWord blk c err _ _ => decide (blk < 9) && decide (c < 6-blk/8) && decide (err < 4)
  | .scrubEnd blk c => decide (blk < 9) && decide (c < 6-blk/8)
  | .dmaHaltClear _ => true
  | .slotEnable k _ => decide (k < 32)
  | .slotDisable k _ => decide (k < 32)
  | .slotLimitWrite k _ => decide (k < 32)
  | .slotCfgWrite k _ _ => decide (k < 32)
  | .slotPresenceAsserted k => decide (k < 32)
  | .slotPresenceLost k => decide (k < 32)
  | .slotVinLeaveWindow k _ _ => decide (k < 32)
  | .slotVinEnterWindow k _ _ => decide (k < 32)
  | .slotInsertionDelayExpire k => decide (k < 32)
  | .slotFullEnhancement k => decide (k < 32)
  | .slotRampTimeout k => decide (k < 32)
  | .slotPgQualified k _ => decide (k < 32)
  | .slotLimitAct k _ => decide (k < 32)
  | .slotFaultTimerExpire k => decide (k < 32)
  | .slotFastTrip k => decide (k < 32)
  | .slotTempTrip k => decide (k < 32)
  | .slotTempBelowTjmax k => decide (k < 32)
  | .slotDiodeFault k => decide (k < 32)
  | .slotVoutLost k => decide (k < 32)
  | .slotRetryExpire k => decide (k < 32)
  | .slotPowered60s k => decide (k < 32)
  | .slotClear k _ => decide (k < 32)
  | .slotPassFault k => decide (k < 32)
  | .slotFeedReverse k _ _ => decide (k < 32)
  | .slotEnergyClear k => decide (k < 32)
  | .slotMeasRead ini k _ => decide (ini < 256) && decide (k < 32)
  | .vinSnsOutOfRange _ => true
  | .vinSnsRecover _ => true
  | .counterWrap n _ => decide (n < 4096)
  | .counterRead ini n => decide (ini < 256) && decide (n < 4096)
  | .samplingArm u _ => decide (u < 4)
  | .samplingPeriodReached u => decide (u < 4)
  | .samplingInterruptTaken u _ => decide (u < 4)
  | .histEdgeCommit _ => true
  | .histFreeze _ => true
  | .histSelWrite w _ => decide (w < 10)
  | .histRead ini i b => decide (ini < 256) && decide (i < 156) && decide (b < 32)
  | .jtagInstructionLoad _ => true
  | .jtagDebugAccess addr _ => decide (addr < 2 ^ 40)
  | .powerGoodHoldExpire p => decide (p < 128)
  | .refclkReturn which => decide (which < 3)
  | .supplyBackInWindow rail => decide (rail < 7)
  | .trunkCsbChange p _ => decide (p < 128)
  | .slotFaultTimerZero k => decide (k < 32)
  | .aspmL1Entry x => decide (x.port < 128)
  | .aspmL1Exit p => decide (p < 128)

end Sys2Proof
end

