-- ==== Sys2Proof/Machine/Execs.lean ====
section
/-! DEFINITION. The meaning of each command, one definition for each row of spec/opcode_table.json: a call of the operation that
its rule describes. -/

namespace Sys2Proof.Machine

/-- COLD_RESET (R3). -/
def execColdReset (lowNs : Nat) (s : State) : Host.Outcome State Fault Refusal :=
  onChip (Instr.wf (.coldReset lowNs)) (coldReset lowNs) s

/-- AO_BROWNOUT (R322). -/
def execAoBrownout (biasHeld : Bool) (s : State) : Host.Outcome State Fault Refusal :=
  onChip (Instr.wf (.aoBrownout biasHeld)) (aoBrownout biasHeld) s

/-- START_UP (R268). -/
def execStartUp (x : StartIn) (s : State) : Host.Outcome State Fault Refusal :=
  onChip (Instr.wf (.startUp x)) (startUp x) s

/-- IMAGE_DONE (R261). -/
def execImageDone (s : State) : Host.Outcome State Fault Refusal :=
  onChip (Instr.wf .imageDone) imageDone s

/-- WAVE_BEGIN (R269). -/
def execWaveBegin (w : Nat) (s : State) : Host.Outcome State Fault Refusal :=
  onChip (Instr.wf (.waveBegin w)) (waveBegin w) s

/-- ROLLBACK_ADVANCE (R260). -/
def execRollbackAdvance (s : State) : Host.Outcome State Fault Refusal :=
  onChip (Instr.wf .rollbackAdvance) rollbackAdvance s

/-- HELLO (R236). -/
def execHello (q : KmpReq) (s : State) : Host.Outcome State Fault Refusal :=
  kmp (Instr.wf (.hello q)) 0x0001 q s

/-- BYE (R239). -/
def execBye (q : KmpReq) (s : State) : Host.Outcome State Fault Refusal :=
  kmp (Instr.wf (.bye q)) 0x0002 q s

/-- ECHO (R235). -/
def execEcho (q : KmpReq) (s : State) : Host.Outcome State Fault Refusal :=
  kmp (Instr.wf (.echo q)) 0x0003 q s

/-- RELAY_CLAIM (R247). -/
def execRelayClaim (q : KmpReq) (s : State) : Host.Outcome State Fault Refusal :=
  kmp (Instr.wf (.relayClaim q)) 0x0004 q s

/-- REG_READ (R245). -/
def execRegRead (q : KmpReq) (s : State) : Host.Outcome State Fault Refusal :=
  kmp (Instr.wf (.regRead q)) 0x0100 q s

/-- REG_WRITE (R245). -/
def execRegWrite (q : KmpReq) (s : State) : Host.Outcome State Fault Refusal :=
  kmp (Instr.wf (.regWrite q)) 0x0101 q s

/-- REG_RMW (R245). -/
def execRegRmw (q : KmpReq) (s : State) : Host.Outcome State Fault Refusal :=
  kmp (Instr.wf (.regRmw q)) 0x0102 q s

/-- BULK_READ (R245). -/
def execBulkRead (q : KmpReq) (s : State) : Host.Outcome State Fault Refusal :=
  kmp (Instr.wf (.bulkRead q)) 0x0110 q s

/-- BULK_WRITE (R245). -/
def execBulkWrite (q : KmpReq) (s : State) : Host.Outcome State Fault Refusal :=
  kmp (Instr.wf (.bulkWrite q)) 0x0111 q s

/-- COUNTER_SWEEP (R359). -/
def execCounterSweep (q : KmpReq) (s : State) : Host.Outcome State Fault Refusal :=
  kmp (Instr.wf (.counterSweep q)) 0x0120 q s

/-- BIND_VPPB (R108). -/
def execBindVppb (q : KmpReq) (s : State) : Host.Outcome State Fault Refusal :=
  kmp (Instr.wf (.bindVppb q)) 0x0200 q s

/-- UNBIND_DRAIN (R111). -/
def execUnbindDrain (q : KmpReq) (s : State) : Host.Outcome State Fault Refusal :=
  kmp (Instr.wf (.unbindDrain q)) 0x0201 (force q 31 1 0) s

/-- UNBIND_SQUASH (R112). -/
def execUnbindSquash (q : KmpReq) (s : State) : Host.Outcome State Fault Refusal :=
  kmp (Instr.wf (.unbindSquash q)) 0x0201 (force q 31 1 1) s

/-- PORT_REMOVE (R118). -/
def execPortRemove (q : KmpReq) (s : State) : Host.Outcome State Fault Refusal :=
  kmp (Instr.wf (.portRemove q)) 0x0202 q s

/-- PORT_ADMIT (R119). -/
def execPortAdmit (q : KmpReq) (s : State) : Host.Outcome State Fault Refusal :=
  kmp (Instr.wf (.portAdmit q)) 0x0203 q s

/-- INST_ATTACH (R119). -/
def execInstAttach (q : KmpReq) (s : State) : Host.Outcome State Fault Refusal :=
  kmp (Instr.wf (.instAttach q)) 0x0204 q s

/-- WINDOW_SET (R135). -/
def execWindowSet (q : KmpReq) (s : State) : Host.Outcome State Fault Refusal :=
  kmp (Instr.wf (.windowSet q)) 0x0210 q s

/-- GROVE_CREATE (R165). -/
def execGroveCreate (q : KmpReq) (s : State) : Host.Outcome State Fault Refusal :=
  kmp (Instr.wf (.groveCreate q)) 0x0300 q s

/-- GROVE_MEMBER_ADD (R167). -/
def execGroveMemberAdd (q : KmpReq) (s : State) : Host.Outcome State Fault Refusal :=
  kmp (Instr.wf (.groveMemberAdd q)) 0x0301 q s

/-- GROVE_MEMBER_REMOVE (R167). -/
def execGroveMemberRemove (q : KmpReq) (s : State) : Host.Outcome State Fault Refusal :=
  kmp (Instr.wf (.groveMemberRemove q)) 0x0302 q s

/-- GROVE_DISSOLVE (R168). -/
def execGroveDissolve (q : KmpReq) (s : State) : Host.Outcome State Fault Refusal :=
  kmp (Instr.wf (.groveDissolve q)) 0x0303 q s

/-- FABRIC_ATOMIC (R163). -/
def execFabricAtomic (q : KmpReq) (s : State) : Host.Outcome State Fault Refusal :=
  kmp (Instr.wf (.fabricAtomic q)) 0x0310 q s

/-- GRAFT_CREATE (R195). -/
def execGraftCreate (q : KmpReq) (s : State) : Host.Outcome State Fault Refusal :=
  kmp (Instr.wf (.graftCreate q)) 0x0400 q s

/-- GRAFT_ABORT (R202). -/
def execGraftAbort (q : KmpReq) (s : State) : Host.Outcome State Fault Refusal :=
  kmp (Instr.wf (.graftAbort q)) 0x0401 q s

/-- GRAFT_RELEASE_CHECKED (R201). -/
def execGraftReleaseChecked (q : KmpReq) (s : State) : Host.Outcome State Fault Refusal :=
  kmp (Instr.wf (.graftReleaseChecked q)) 0x0402 (force q 0 1 0) s

/-- GRAFT_RELEASE_FORCED (R201). -/
def execGraftReleaseForced (q : KmpReq) (s : State) : Host.Outcome State Fault Refusal :=
  kmp (Instr.wf (.graftReleaseForced q)) 0x0402 (force q 0 1 1) s

/-- GRAFT_SETTLE (R206). -/
def execGraftSettle (q : KmpReq) (s : State) : Host.Outcome State Fault Refusal :=
  kmp (Instr.wf (.graftSettle q)) 0x0403 q s

/-- MAILBOX_REPLY (R247). -/
def execMailboxReply (q : KmpReq) (s : State) : Host.Outcome State Fault Refusal :=
  kmp (Instr.wf (.mailboxReply q)) 0x0500 q s

/-- FMAPI_TUNNEL (R248). -/
def execFmapiTunnel (q : KmpReq) (s : State) : Host.Outcome State Fault Refusal :=
  kmp (Instr.wf (.fmapiTunnel q)) 0x0510 q s

/-- POWER_QUERY (R313). -/
def execPowerQuery (q : KmpReq) (s : State) : Host.Outcome State Fault Refusal :=
  kmp (Instr.wf (.powerQuery q)) 0x0600 (force q 28 4 0) s

/-- POWER_OFF (R314). -/
def execPowerOff (q : KmpReq) (s : State) : Host.Outcome State Fault Refusal :=
  kmp (Instr.wf (.powerOff q)) 0x0600 (force q 28 4 1) s

/-- POWER_ON (R314). -/
def execPowerOn (q : KmpReq) (s : State) : Host.Outcome State Fault Refusal :=
  kmp (Instr.wf (.powerOn q)) 0x0600 (force q 28 4 2) s

/-- ENTER_DORMANT (R320). -/
def execEnterDormant (q : KmpReq) (s : State) : Host.Outcome State Fault Refusal :=
  kmp (Instr.wf (.enterDormant q)) 0x0600 (force q 28 4 3) s

/-- SET_OPERATING_POINT (R324). -/
def execSetOperatingPoint (q : KmpReq) (s : State) : Host.Outcome State Fault Refusal :=
  kmp (Instr.wf (.setOperatingPoint q)) 0x0600 (force q 28 4 4) s

/-- FAULT_CLEAR (R292). -/
def execFaultClear (q : KmpReq) (s : State) : Host.Outcome State Fault Refusal :=
  kmp (Instr.wf (.faultClear q)) 0x0610 q s

/-- FAULT_RESUME_RESTART (R288). -/
def execFaultResumeRestart (q : KmpReq) (s : State) : Host.Outcome State Fault Refusal :=
  kmp (Instr.wf (.faultResumeRestart q)) 0x0611 (force q 0 1 0) s

/-- FAULT_RESUME_WARM (R288). -/
def execFaultResumeWarm (q : KmpReq) (s : State) : Host.Outcome State Fault Refusal :=
  kmp (Instr.wf (.faultResumeWarm q)) 0x0611 (force q 0 1 1) s

/-- CHIP_RESET (R3). -/
def execChipReset (q : KmpReq) (s : State) : Host.Outcome State Fault Refusal :=
  kmp (Instr.wf (.chipReset q)) 0x0620 q s

/-- SELF_TEST_MEMORY (R368). -/
def execSelfTestMemory (q : KmpReq) (s : State) : Host.Outcome State Fault Refusal :=
  kmp (Instr.wf (.selfTestMemory q)) 0x0630 (force q 28 4 1) s

/-- SELF_TEST_FULL_BIST (R369). -/
def execSelfTestFullBist (q : KmpReq) (s : State) : Host.Outcome State Fault Refusal :=
  kmp (Instr.wf (.selfTestFullBist q)) 0x0630 (force q 28 4 2) s

/-- SELF_TEST_LOGIC_BIST (R369). -/
def execSelfTestLogicBist (q : KmpReq) (s : State) : Host.Outcome State Fault Refusal :=
  kmp (Instr.wf (.selfTestLogicBist q)) 0x0630 (force q 28 4 3) s

/-- SELF_TEST_LANE (R368). -/
def execSelfTestLane (q : KmpReq) (s : State) : Host.Outcome State Fault Refusal :=
  kmp (Instr.wf (.selfTestLane q)) 0x0630 (force q 28 4 4) s

/-- SELF_TEST_SLOT_CONVERTER (R368). -/
def execSelfTestSlotConverter (q : KmpReq) (s : State) : Host.Outcome State Fault Refusal :=
  kmp (Instr.wf (.selfTestSlotConverter q)) 0x0630 (force q 28 4 5) s

/-- SELF_TEST_DROOP (R365). -/
def execSelfTestDroop (q : KmpReq) (s : State) : Host.Outcome State Fault Refusal :=
  kmp (Instr.wf (.selfTestDroop q)) 0x0630 (force q 28 4 6) s

/-- SELF_TEST_TEMPERATURE (R365). -/
def execSelfTestTemperature (q : KmpReq) (s : State) : Host.Outcome State Fault Refusal :=
  kmp (Instr.wf (.selfTestTemperature q)) 0x0630 (force q 28 4 7) s

/-- TEST_SECTION_TIMEOUT (R368). -/
def execTestSectionTimeout (u : Nat) (c : Nat) (n : Nat) (s : State) : Host.Outcome State Fault Refusal :=
  onChip (Instr.wf (.testSectionTimeout u c n)) (sectionTimeout u c n) s

/-- TEST_SECTION_RETRY (R368). -/
def execTestSectionRetry (u : Nat) (c : Nat) (n : Nat) (s : State) : Host.Outcome State Fault Refusal :=
  onChip (Instr.wf (.testSectionRetry u c n)) (sectionRetry u c n) s

/-- SELF_TEST_END (R370). -/
def execSelfTestEnd (failed : Nat) (sigs : List Nat) (bad : List (Nat × Nat × Nat)) (s : State) : Host.Outcome State Fault Refusal :=
  onChip (Instr.wf (.selfTestEnd failed sigs bad)) (selfTestEnd failed sigs bad) s

/-- IMAGE_ERASE (R271). -/
def execImageErase (q : KmpReq) (s : State) : Host.Outcome State Fault Refusal :=
  kmp (Instr.wf (.imageErase q)) 0x0700 q s

/-- IMAGE_WRITE (R271). -/
def execImageWrite (q : KmpReq) (s : State) : Host.Outcome State Fault Refusal :=
  kmp (Instr.wf (.imageWrite q)) 0x0701 q s

/-- IMAGE_READ (R271). -/
def execImageRead (q : KmpReq) (s : State) : Host.Outcome State Fault Refusal :=
  kmp (Instr.wf (.imageRead q)) 0x0702 q s

/-- IMAGE_VERIFY (R271). -/
def execImageVerify (q : KmpReq) (s : State) : Host.Outcome State Fault Refusal :=
  kmp (Instr.wf (.imageVerify q)) 0x0703 q s

/-- LC_STATE (R236). -/
def execLcState (q : KmpReq) (s : State) : Host.Outcome State Fault Refusal :=
  kmp (Instr.wf (.lcState q)) 0x0710 q s

/-- LC_RETURN_CHALLENGE (R374). -/
def execLcReturnChallenge (q : KmpReq) (s : State) : Host.Outcome State Fault Refusal :=
  kmp (Instr.wf (.lcReturnChallenge q)) 0x0711 (force q 0 1 0) s

/-- LC_RETURN_TOKEN (R374). -/
def execLcReturnToken (q : KmpReq) (s : State) : Host.Outcome State Fault Refusal :=
  kmp (Instr.wf (.lcReturnToken q)) 0x0711 (force q 0 1 1) s

/-- LC_CHALLENGE_EXPIRE (R374). -/
def execLcChallengeExpire (s : State) : Host.Outcome State Fault Refusal :=
  onChip (Instr.wf .lcChallengeExpire) challengeExpire s

/-- LC_ADVANCE (R373). -/
def execLcAdvance (q : KmpReq) (s : State) : Host.Outcome State Fault Refusal :=
  kmp (Instr.wf (.lcAdvance q)) 0x0712 q s

/-- LC_FUSE_PROGRAM_DONE (R373). -/
def execLcFuseProgramDone (ok : Bool) (left : Nat) (s : State) : Host.Outcome State Fault Refusal :=
  onChip (Instr.wf (.lcFuseProgramDone ok left)) (lcFusesDone ok left) s

/-- EVENT_ACK (R244). -/
def execEventAck (q : KmpReq) (code : Nat) (s : State) : Host.Outcome State Fault Refusal :=
  run (Instr.wf (.eventAck q code)) (fun s => s.eventAck q code) s

/-- EVENT_RETRY (R244). -/
def execEventRetry (num : Nat) (seq : Nat) (s : State) : Host.Outcome State Fault Refusal :=
  run (Instr.wf (.eventRetry num seq)) (fun s => s.eventRetry num seq) s

/-- SESSION_KEEPALIVE_EXPIRE (R239). -/
def execSessionKeepaliveExpire (num : Nat) (s : State) : Host.Outcome State Fault Refusal :=
  run (Instr.wf (.sessionKeepaliveExpire num)) (fun s => s.keepaliveExpire num) s

/-- SEQUENCE_GAP_EXPIRE (R241). -/
def execSequenceGapExpire (num : Nat) (s : State) : Host.Outcome State Fault Refusal :=
  run (Instr.wf (.sequenceGapExpire num)) (fun s => s.gapExpire num) s

/-- KMP_DATAGRAM_DISCARD (R234). -/
def execKmpDatagramDiscard (e : Nat) (s : State) : Host.Outcome State Fault Refusal :=
  onChip (Instr.wf (.kmpDatagramDiscard e)) (datagramDiscard e) s

/-- KMP_CFG_WRITE (R239). -/
def execKmpCfgWrite (v : W) (s : State) : Host.Outcome State Fault Refusal :=
  onChip (Instr.wf (.kmpCfgWrite v)) (kmpCfgWrite v) s

/-- ETH_FRAME_RECEIVE (R100). -/
def execEthFrameReceive (e : Nat) (f : FrameIn) (s : State) : Host.Outcome State Fault Refusal :=
  run (Instr.wf (.ethFrameReceive e f)) (fun s => s.withChip (frameReceive e (s.knows e f.cls) f s.chip)) s

/-- ARP_REQUEST (R230). -/
def execArpRequest (e : Nat) (ip : Nat) (s : State) : Host.Outcome State Fault Refusal :=
  onChip (Instr.wf (.arpRequest e ip)) (arpRequest e ip) s

/-- NEIGHBOUR_SOLICITATION (R230). -/
def execNeighbourSolicitation (e : Nat) (ip : Nat) (s : State) : Host.Outcome State Fault Refusal :=
  onChip (Instr.wf (.neighbourSolicitation e ip)) (neighbourSol e ip) s

/-- ICMP_ECHO_REQUEST (R230). -/
def execIcmpEchoRequest (e : Nat) (v6 : Bool) (ip : Nat) (data : List Byte) (s : State) : Host.Outcome State Fault Refusal :=
  onChip (Instr.wf (.icmpEchoRequest e v6 ip data)) (icmpEcho e v6 ip data) s

/-- MKA_FRAME (R232). -/
def execMkaFrame (e : Nat) (m : MkaIn) (s : State) : Host.Outcome State Fault Refusal :=
  onChip (Instr.wf (.mkaFrame e m)) (mkaFrame e m) s

/-- SAK_REKEY (R232). -/
def execSakRekey (e : Nat) (pn : Nat) (s : State) : Host.Outcome State Fault Refusal :=
  onChip (Instr.wf (.sakRekey e pn)) (sakRekey e pn) s

/-- ETH_LINK_UP (R228). -/
def execEthLinkUp (e : Nat) (phy : Nat) (fec : Nat) (s : State) : Host.Outcome State Fault Refusal :=
  onChip (Instr.wf (.ethLinkUp e phy fec)) (ethLinkUp e phy fec) s

/-- ETH_LINK_DOWN (R231). -/
def execEthLinkDown (e : Nat) (s : State) : Host.Outcome State Fault Refusal :=
  onChip (Instr.wf (.ethLinkDown e)) (ethLinkDown e) s

/-- CEL_PORT_CFG_WRITE (R26). -/
def execCelPortCfgWrite (c : Nat) (v : W) (s : State) : Host.Outcome State Fault Refusal :=
  onChip (Instr.wf (.celPortCfgWrite c v)) (portCfgWrite c v) s

/-- PARTNER_DETECTED (R49). -/
def execPartnerDetected (p : Nat) (s : State) : Host.Outcome State Fault Refusal :=
  onChip (Instr.wf (.partnerDetected p)) (partnerDetected p) s

/-- RECEIVER_DETECT_REPEAT (R51). -/
def execReceiverDetectRepeat (p : Nat) (s : State) : Host.Outcome State Fault Refusal :=
  onChip (Instr.wf (.receiverDetectRepeat p)) (detectRepeat p) s

/-- TRAINING_STEP_COMPLETE (R49). -/
def execTrainingStepComplete (p : Nat) (info : TrainInfo) (s : State) : Host.Outcome State Fault Refusal :=
  onChip (Instr.wf (.trainingStepComplete p info)) (trainingComplete p info) s

/-- TRAINING_STEP_FAIL (R49). -/
def execTrainingStepFail (p : Nat) (s : State) : Host.Outcome State Fault Refusal :=
  onChip (Instr.wf (.trainingStepFail p)) (trainingFail p) s

/-- LINK_UP (R49). -/
def execLinkUp (p : Nat) (lds : Nat) (hdr : List Nat) (dat : List Nat) (s : State) : Host.Outcome State Fault Refusal :=
  onChip (Instr.wf (.linkUp p lds hdr dat)) (linkUp p lds hdr dat) s

/-- LINK_FLIT_RECEIVE (R44). -/
def execLinkFlitReceive (p : Nat) (lane : Nat) (o : FlitOutcome) (s : State) : Host.Outcome State Fault Refusal :=
  onChip (Instr.wf (.linkFlitReceive p lane o)) (flitReceive p lane o) s

/-- MESSAGE_TAIL_CRC_FAIL (R74). -/
def execMessageTailCrcFail (p : Nat) (m : Nat) (s : State) : Host.Outcome State Fault Refusal :=
  onChip (Instr.wf (.messageTailCrcFail p m)) (tailFail p m) s

/-- RE_EQUALIZATION (R45). -/
def execReEqualization (p : Nat) (s : State) : Host.Outcome State Fault Refusal :=
  onChip (Instr.wf (.reEqualization p)) (reEqualize p) s

/-- LINK_PROTOCOL_VIOLATION (R37). -/
def execLinkProtocolViolation (p : Nat) (s : State) : Host.Outcome State Fault Refusal :=
  onChip (Instr.wf (.linkProtocolViolation p)) (protocolViolation p) s

/-- PERST_N_ASSERT (R38). -/
def execPerstNAssert (p : Nat) (lowNs : Nat) (s : State) : Host.Outcome State Fault Refusal :=
  onChip (Instr.wf (.perstNAssert p lowNs)) (perstAssert p lowNs) s

/-- PERST_N_RELEASE (R52). -/
def execPerstNRelease (p : Nat) (s : State) : Host.Outcome State Fault Refusal :=
  onChip (Instr.wf (.perstNRelease p)) (perstRelease p) s

/-- UPSTREAM_HOT_RESET (R113). -/
def execUpstreamHotReset (p : Nat) (s : State) : Host.Outcome State Fault Refusal :=
  onChip (Instr.wf (.upstreamHotReset p)) (upstreamHotReset p) s

/-- DPC_TRIGGER (R79). -/
def execDpcTrigger (p : Nat) (s : State) : Host.Outcome State Fault Refusal :=
  onChip (Instr.wf (.dpcTrigger p)) (dpcTrigger p) s

/-- PARTNER_LANE_MARGINING (R63). -/
def execPartnerLaneMargining (c : Nat) (lane : Nat) (on : Bool) (errors : Nat) (s : State) : Host.Outcome State Fault Refusal :=
  onChip (Instr.wf (.partnerLaneMargining c lane on errors)) (partnerMargining c lane on errors) s

/-- MARGIN_SCAN_START (R62). -/
def execMarginScanStart (c : Nat) (lane : Nat) (v : W) (s : State) : Host.Outcome State Fault Refusal :=
  onChip (Instr.wf (.marginScanStart c lane v)) (marginWrite c lane v) s

/-- MARGIN_SCAN_DONE (R62). -/
def execMarginScanDone (c : Nat) (lane : Nat) (errors : Nat) (s : State) : Host.Outcome State Fault Refusal :=
  onChip (Instr.wf (.marginScanDone c lane errors)) (marginDone c lane errors) s

/-- TEST_ENABLE (R58). -/
def execTestEnable (c : Nat) (v : W) (s : State) : Host.Outcome State Fault Refusal :=
  onChip (Instr.wf (.testEnable c v)) (testEnable c v) s

/-- TEST_DISABLE (R59). -/
def execTestDisable (c : Nat) (v : W) (s : State) : Host.Outcome State Fault Refusal :=
  onChip (Instr.wf (.testDisable c v)) (testDisable c v) s

/-- LOOP_MODE_SET (R57). -/
def execLoopModeSet (c : Nat) (v : W) (s : State) : Host.Outcome State Fault Refusal :=
  onChip (Instr.wf (.loopModeSet c v)) (loopModeSet c v) s

/-- REMOTE_LOOPBACK_TIMEOUT (R58). -/
def execRemoteLoopbackTimeout (c : Nat) (s : State) : Host.Outcome State Fault Refusal :=
  onChip (Instr.wf (.remoteLoopbackTimeout c)) (remoteLoopTimeout c) s

/-- PRBS_CLEAR (R61). -/
def execPrbsClear (c : Nat) (lane : Nat) (v : W) (s : State) : Host.Outcome State Fault Refusal :=
  onChip (Instr.wf (.prbsClear c lane v)) (prbsWrite c lane v) s

/-- PRBS_CHECKER_LOCK (R61). -/
def execPrbsCheckerLock (c : Nat) (lane : Nat) (s : State) : Host.Outcome State Fault Refusal :=
  onChip (Instr.wf (.prbsCheckerLock c lane)) (prbsLock c lane) s

/-- PRBS_CHECKER_UNLOCK (R61). -/
def execPrbsCheckerUnlock (c : Nat) (lane : Nat) (errors : Nat) (burst : Nat) (s : State) : Host.Outcome State Fault Refusal :=
  onChip (Instr.wf (.prbsCheckerUnlock c lane errors burst)) (prbsUnlock c lane errors burst) s

/-- INGRESS_MESSAGE_ARRIVAL (R69). -/
def execIngressMessageArrival (p : Nat) (m : MsgIn) (s : State) : Host.Outcome State Fault Refusal :=
  onChip (Instr.wf (.ingressMessageArrival p m)) (arrival p m) s

/-- CONTRACT_BUCKET_REFILL (R94). -/
def execContractBucketRefill (p : Nat) (s : State) : Host.Outcome State Fault Refusal :=
  onChip (Instr.wf (.contractBucketRefill p)) (contractRefill p) s

/-- CONTRACT_ENABLE (R94). -/
def execContractEnable (p : Nat) (s : State) : Host.Outcome State Fault Refusal :=
  onChip (Instr.wf (.contractEnable p)) (contractEnable p) s

/-- COMMITTED_WAIT_TIMEOUT (R99). -/
def execCommittedWaitTimeout (p : Nat) (s : State) : Host.Outcome State Fault Refusal :=
  onChip (Instr.wf (.committedWaitTimeout p)) (committedWait p) s

/-- INGRESS_TO_EGRESS_MOVE (R71). -/
def execIngressToEgressMove (m : Nat) (ecc : Nat) (s : State) : Host.Outcome State Fault Refusal :=
  onChip (Instr.wf (.ingressToEgressMove m ecc)) (ingressMoveEcc m ecc) s

/-- MESH_INJECT (R216). -/
def execMeshInject (m : Nat) (s : State) : Host.Outcome State Fault Refusal :=
  onChip (Instr.wf (.meshInject m)) (meshInject m) s

/-- MESH_PACKET_ARRIVE (R212). -/
def execMeshPacketArrive (m : Nat) (net : Nat) (header : Nat) (s : State) : Host.Outcome State Fault Refusal :=
  onChip (Instr.wf (.meshPacketArrive m net header)) (meshArrive m net header) s

/-- LANDING_MOVE (R72). -/
def execLandingMove (m : Nat) (s : State) : Host.Outcome State Fault Refusal :=
  onChip (Instr.wf (.landingMove m)) (landingMove m) s

/-- MULTICAST_COPY_LAND (R77). -/
def execMulticastCopyLand (m : Nat) (s : State) : Host.Outcome State Fault Refusal :=
  onChip (Instr.wf (.multicastCopyLand m)) (multicastLand m) s

/-- EGRESS_QUEUE_REOPEN (R78). -/
def execEgressQueueReopen (p : Nat) (sc : Nat) (s : State) : Host.Outcome State Fault Refusal :=
  onChip (Instr.wf (.egressQueueReopen p sc)) (egressReopen p sc) s

/-- QUEUE_STATE_BROADCAST (R72). -/
def execQueueStateBroadcast (r : Nat) (s : State) : Host.Outcome State Fault Refusal :=
  onChip (Instr.wf (.queueStateBroadcast r)) (queueBroadcast r) s

/-- EGRESS_TRANSMIT (R89). -/
def execEgressTransmit (p : Nat) (s : State) : Host.Outcome State Fault Refusal :=
  onChip (Instr.wf (.egressTransmit p)) (egressTransmit p) s

/-- LINK_CREDIT_RETURN (R73). -/
def execLinkCreditReturn (p : Nat) (mc : Nat) (hdr : Nat) (dat : Nat) (s : State) : Host.Outcome State Fault Refusal :=
  onChip (Instr.wf (.linkCreditReturn p mc hdr dat)) (linkCreditReturn p mc hdr dat) s

/-- TRANSACTION_END (R225). -/
def execTransactionEnd (t : Nat) (s : State) : Host.Outcome State Fault Refusal :=
  onChip (Instr.wf (.transactionEnd t)) (transactionEnd t) s

/-- PORT_DOWN (R79). -/
def execPortDown (p : Nat) (why : DownCause) (s : State) : Host.Outcome State Fault Refusal :=
  onChip (Instr.wf (.portDown p why)) (portDown p why) s

/-- FLUSH_DONE (R80). -/
def execFlushDone (p : Nat) (s : State) : Host.Outcome State Fault Refusal :=
  onChip (Instr.wf (.flushDone p)) (flushDone p) s

/-- INST_CFG_WRITE (R102). -/
def execInstCfgWrite (n : Nat) (v : W) (s : State) : Host.Outcome State Fault Refusal :=
  onChip (Instr.wf (.instCfgWrite n v)) (instCfgWrite n v) s

/-- SECONDARY_BUS_RESET_SET (R113). -/
def execSecondaryBusResetSet (n : Nat) (v : Nat) (s : State) : Host.Outcome State Fault Refusal :=
  onChip (Instr.wf (.secondaryBusResetSet n v)) (sbrSet n v) s

/-- SECONDARY_BUS_RESET_CLEAR (R107). -/
def execSecondaryBusResetClear (n : Nat) (v : Nat) (s : State) : Host.Outcome State Fault Refusal :=
  onChip (Instr.wf (.secondaryBusResetClear n v)) (sbrClear n v) s

/-- DRAIN_DONE (R111). -/
def execDrainDone (n : Nat) (v : Nat) (s : State) : Host.Outcome State Fault Refusal :=
  onChip (Instr.wf (.drainDone n v)) (drainDone n v) s

/-- DRAIN_TIMEOUT (R111). -/
def execDrainTimeout (n : Nat) (v : Nat) (s : State) : Host.Outcome State Fault Refusal :=
  onChip (Instr.wf (.drainTimeout n v)) (drainTimeout n v) s

/-- SQUASH_DONE (R112). -/
def execSquashDone (n : Nat) (v : Nat) (s : State) : Host.Outcome State Fault Refusal :=
  onChip (Instr.wf (.squashDone n v)) (squashDone n v) s

/-- DOWN_LIMIT_EXPIRE (R118). -/
def execDownLimitExpire (p : Nat) (s : State) : Host.Outcome State Fault Refusal :=
  onChip (Instr.wf (.downLimitExpire p)) (downLimitExpire p) s

/-- LOOP_CHECK_DONE (R121). -/
def execLoopCheckDone (p : Nat) (lanes : List LoopLane) (s : State) : Host.Outcome State Fault Refusal :=
  onChip (Instr.wf (.loopCheckDone p lanes)) (loopCheckDone p lanes) s

/-- LOOP_CHECK_TIMEOUT (R119). -/
def execLoopCheckTimeout (p : Nat) (s : State) : Host.Outcome State Fault Refusal :=
  onChip (Instr.wf (.loopCheckTimeout p)) (loopCheckTimeout p) s

/-- MAILBOX_DOORBELL (R124). -/
def execMailboxDoorbell (n : Nat) (opcode : Nat) (payload : List Byte) (s : State) : Host.Outcome State Fault Refusal :=
  onChip (Instr.wf (.mailboxDoorbell n opcode payload)) (mailboxDoorbell n opcode payload) s

/-- MAILBOX_RELAY_TIMEOUT (R126). -/
def execMailboxRelayTimeout (n : Nat) (s : State) : Host.Outcome State Fault Refusal :=
  onChip (Instr.wf (.mailboxRelayTimeout n)) (relayTimeout n) s

/-- WINDOW_COMMIT (R135). -/
def execWindowCommit (r : Nat) (v : W) (s : State) : Host.Outcome State Fault Refusal :=
  onChip (Instr.wf (.windowCommit r v)) (windowCommit r v) s

/-- EPOCH_COMMIT (R138). -/
def execEpochCommit (s : State) : Host.Outcome State Fault Refusal :=
  onChip (Instr.wf .epochCommit) epochCommit s

/-- EPOCH_STALL (R140). -/
def execEpochStall (e : Nat) (s : State) : Host.Outcome State Fault Refusal :=
  onChip (Instr.wf (.epochStall e)) (epochStall e) s

/-- MPU_ATTR_WRITE (R143). -/
def execMpuAttrWrite (ini : Nat) (e : Nat) (v : W) (s : State) : Host.Outcome State Fault Refusal :=
  onChip (Instr.wf (.mpuAttrWrite ini e v)) (mpuAttrWrite ini e v) s

/-- MPU_BASE_WRITE (R143). -/
def execMpuBaseWrite (ini : Nat) (e : Nat) (v : W) (s : State) : Host.Outcome State Fault Refusal :=
  onChip (Instr.wf (.mpuBaseWrite ini e v)) (mpuBaseWrite ini e v) s

/-- REGISTER_WRITE (R4). -/
def execRegisterWrite (ini : Nat) (level : Nat) (addr : Nat) (size : Nat) (v : Nat) (s : State) : Host.Outcome State Fault Refusal :=
  onChip (Instr.wf (.registerWrite ini level addr size v)) (registerWrite ini level addr size v) s

/-- HOME_REQUEST (R158). -/
def execHomeRequest (m : Nat) (err : HomeErr) (s : State) : Host.Outcome State Fault Refusal :=
  onChip (Instr.wf (.homeRequest m err)) (homeRequest m err) s

/-- BIRSP_ARRIVAL (R178). -/
def execBirspArrival (m : Nat) (s : State) : Host.Outcome State Fault Refusal :=
  onChip (Instr.wf (.birspArrival m)) (birspArrival m) s

/-- HOME_DEVICE_RESPONSE (R161). -/
def execHomeDeviceResponse (m : Nat) (s : State) : Host.Outcome State Fault Refusal :=
  onChip (Instr.wf (.homeDeviceResponse m)) (homeDeviceResponse m) s

/-- BICONFLICT (R172). -/
def execBiconflict (m : Nat) (s : State) : Host.Outcome State Fault Refusal :=
  onChip (Instr.wf (.biconflict m)) (biConflict m) s

/-- BIRSP_TIMEOUT (R177). -/
def execBirspTimeout (t : Nat) (n : Nat) (s : State) : Host.Outcome State Fault Refusal :=
  onChip (Instr.wf (.birspTimeout t n)) (birspTimeout t n) s

/-- GROVE_FELLING_COMPLETE (R185). -/
def execGroveFellingComplete (g : Nat) (s : State) : Host.Outcome State Fault Refusal :=
  onChip (Instr.wf (.groveFellingComplete g)) (grovFellDone g) s

/-- DEVICE_VIRAL (R182). -/
def execDeviceViral (p : Nat) (s : State) : Host.Outcome State Fault Refusal :=
  onChip (Instr.wf (.deviceViral p)) (deviceViral p) s

/-- GROVE_TARGETS_UP (R166). -/
def execGroveTargetsUp (g : Nat) (s : State) : Host.Outcome State Fault Refusal :=
  onChip (Instr.wf (.groveTargetsUp g)) (groveTargetsUp g) s

/-- REMOVAL_WALK_DONE (R167). -/
def execRemovalWalkDone (g : Nat) (s : State) : Host.Outcome State Fault Refusal :=
  onChip (Instr.wf (.removalWalkDone g)) (removalWalkDone g) s

/-- AGENT_ATOMIC (R163). -/
def execAgentAtomic (m : Nat) (err : HomeErr) (s : State) : Host.Outcome State Fault Refusal :=
  onChip (Instr.wf (.agentAtomic m err)) (agentAtomic m err) s

/-- SNF_PROBE_START (R169). -/
def execSnfProbeStart (r : Nat) (v : W) (err : HomeErr) (s : State) : Host.Outcome State Fault Refusal :=
  onChip (Instr.wf (.snfProbeStart r v err)) (snfProbe r v err) s

/-- ERT_PROBE_START (R208). -/
def execErtProbeStart (r : Nat) (v : W) (s : State) : Host.Outcome State Fault Refusal :=
  onChip (Instr.wf (.ertProbeStart r v)) (ertProbe r v) s

/-- GRAFT_ARMED_DRAINED (R196). -/
def execGraftArmedDrained (c : Nat) (s : State) : Host.Outcome State Fault Refusal :=
  onChip (Instr.wf (.graftArmedDrained c)) (graftArmedDrained c) s

/-- CHUNK_READ_ISSUE (R198). -/
def execChunkReadIssue (c : Nat) (k : Nat) (s : State) : Host.Outcome State Fault Refusal :=
  onChip (Instr.wf (.chunkReadIssue c k)) (chunkReadIssue c k) s

/-- CHUNK_LINE_RETURN (R198). -/
def execChunkLineReturn (x : LineBack) (s : State) : Host.Outcome State Fault Refusal :=
  onChip (Instr.wf (.chunkLineReturn x)) (chunkLineReturn x) s

/-- MIRRORED_WRITE_COMPLETE (R197). -/
def execMirroredWriteComplete (k : Nat) (s : State) : Host.Outcome State Fault Refusal :=
  onChip (Instr.wf (.mirroredWriteComplete k)) (mirroredWriteComplete k) s

/-- GRAFT_COPY_DONE (R196). -/
def execGraftCopyDone (c : Nat) (s : State) : Host.Outcome State Fault Refusal :=
  onChip (Instr.wf (.graftCopyDone c)) (graftCopyDone c) s

/-- GRAFT_SWITCH (R200). -/
def execGraftSwitch (c : Nat) (s : State) : Host.Outcome State Fault Refusal :=
  onChip (Instr.wf (.graftSwitch c)) (graftSwitch c) s

/-- GRAFT_XFER_TIMEOUT (R202). -/
def execGraftXferTimeout (c : Nat) (s : State) : Host.Outcome State Fault Refusal :=
  onChip (Instr.wf (.graftXferTimeout c)) (graftXferTimeout c) s

/-- GRAFT_FLIP_TIMEOUT (R200). -/
def execGraftFlipTimeout (c : Nat) (s : State) : Host.Outcome State Fault Refusal :=
  onChip (Instr.wf (.graftFlipTimeout c)) (graftFlipTimeout c) s

/-- CHANNEL_HALT_CLEAR (R203). -/
def execChannelHaltClear (c : Nat) (s : State) : Host.Outcome State Fault Refusal :=
  onChip (Instr.wf (.channelHaltClear c)) (channelHaltClear c) s

/-- BOUNDARY_PACKET_ARRIVE (R219). -/
def execBoundaryPacketArrive (m : Nat) (net : Nat) (s : State) : Host.Outcome State Fault Refusal :=
  onChip (Instr.wf (.boundaryPacketArrive m net)) (boundaryArrive m net) s

/-- DOMAIN_ENTRY_ANSWER (R315). -/
def execDomainEntryAnswer (d : Nat) (s : State) : Host.Outcome State Fault Refusal :=
  onChip (Instr.wf (.domainEntryAnswer d)) (entryAnswer d) s

/-- ENTRY_LIMIT_EXPIRE (R315). -/
def execEntryLimitExpire (s : State) : Host.Outcome State Fault Refusal :=
  onChip (Instr.wf .entryLimitExpire) entryLimitExpire s

/-- REGION_DRAINED (R21). -/
def execRegionDrained (r : Nat) (s : State) : Host.Outcome State Fault Refusal :=
  onChip (Instr.wf (.regionDrained r)) (regionDrained r) s

/-- RETENTION_SAVE_DONE (R22). -/
def execRetentionSaveDone (s : State) : Host.Outcome State Fault Refusal :=
  onChip (Instr.wf .retentionSaveDone) retentionSaveDone s

/-- DOMAIN_READY (R219). -/
def execDomainReady (node : Nat) (h : Nat) (bad : List (Nat × Nat × Nat)) (s : State) : Host.Outcome State Fault Refusal :=
  onChip (Instr.wf (.domainReady node h bad)) (domainReady node h bad) s

/-- NOC_ROUTE_FLIP (R223). -/
def execNocRouteFlip (v : W) (s : State) : Host.Outcome State Fault Refusal :=
  onChip (Instr.wf (.nocRouteFlip v)) (routeCtrlWrite (w32 (setBit v.toNat 31))) s

/-- EPOCH_MARKER_ARRIVE (R224). -/
def execEpochMarkerArrive (src : Nat) (dst : Nat) (net : Nat) (vc : Nat) (plane : Nat) (s : State) : Host.Outcome State Fault Refusal :=
  onChip (Instr.wf (.epochMarkerArrive src dst net vc plane)) (markerArrive src dst net vc plane) s

/-- ROUTE_TABLE_WRITE (R223). -/
def execRouteTableWrite (node : Nat) (t : Nat) (v : W) (s : State) : Host.Outcome State Fault Refusal :=
  onChip (Instr.wf (.routeTableWrite node t v)) (routeTableWrite node t v) s

/-- STAT_SNAPSHOT (R226). -/
def execStatSnapshot (v : W) (s : State) : Host.Outcome State Fault Refusal :=
  onChip (Instr.wf (.statSnapshot v)) (statSnap v) s

/-- STAT_CLEAR (R226). -/
def execStatClear (s : State) : Host.Outcome State Fault Refusal :=
  onChip (Instr.wf .statClear) statClr s

/-- FAULT_RECORD_PROPAGATE (R273). -/
def execFaultRecordPropagate (c : Nat) (s : State) : Host.Outcome State Fault Refusal :=
  onChip (Instr.wf (.faultRecordPropagate c)) (recordPropagate c) s

/-- FLT_REC_CLEAR (R287). -/
def execFltRecClear (c : Nat) (s : State) : Host.Outcome State Fault Refusal :=
  onChip (Instr.wf (.fltRecClear c)) (recClear c) s

/-- FAIL_TEST (R285). -/
def execFailTest (s : State) : Host.Outcome State Fault Refusal :=
  onChip (Instr.wf .failTest) failTest s

/-- FAIL_TEST_END (R285). -/
def execFailTestEnd (s : State) : Host.Outcome State Fault Refusal :=
  onChip (Instr.wf .failTestEnd) failTestEnd s

/-- HEARTBEAT_LOSS (R286). -/
def execHeartbeatLoss (s : State) : Host.Outcome State Fault Refusal :=
  onChip (Instr.wf .heartbeatLoss) heartbeatLoss s

/-- HEARTBEAT_RETURN (R286). -/
def execHeartbeatReturn (s : State) : Host.Outcome State Fault Refusal :=
  onChip (Instr.wf .heartbeatReturn) heartbeatReturn s

/-- TEMPERATURE_SAMPLE (R329). -/
def execTemperatureSample (l : List Nat) (s : State) : Host.Outcome State Fault Refusal :=
  onChip (Instr.wf (.temperatureSample l)) (temperatureSample l) s

/-- SUPPLY_OUT_OF_WINDOW (R329). -/
def execSupplyOutOfWindow (rail : Nat) (s : State) : Host.Outcome State Fault Refusal :=
  onChip (Instr.wf (.supplyOutOfWindow rail)) (supplyOut rail) s

/-- DROOP_WARNING (R326). -/
def execDroopWarning (r : Nat) (uv : Nat) (s : State) : Host.Outcome State Fault Refusal :=
  onChip (Instr.wf (.droopWarning r uv)) (droopWarning r uv) s

/-- DROOP_RELEASE (R326). -/
def execDroopRelease (r : Nat) (s : State) : Host.Outcome State Fault Refusal :=
  onChip (Instr.wf (.droopRelease r)) (droopRelease r) s

/-- DROOP_RESET (R326). -/
def execDroopReset (r : Nat) (uv : Nat) (s : State) : Host.Outcome State Fault Refusal :=
  onChip (Instr.wf (.droopReset r uv)) (droopReset r uv) s

/-- DROOP_CFG_WRITE (R326). -/
def execDroopCfgWrite (v : W) (s : State) : Host.Outcome State Fault Refusal :=
  onChip (Instr.wf (.droopCfgWrite v)) (droopCfgWrite v) s

/-- AVS_SETTLED (R324). -/
def execAvsSettled (retries : Nat) (s : State) : Host.Outcome State Fault Refusal :=
  onChip (Instr.wf (.avsSettled retries)) (avsSettled retries) s

/-- AVS_SETTLE_TIMEOUT (R325). -/
def execAvsSettleTimeout (s : State) : Host.Outcome State Fault Refusal :=
  onChip (Instr.wf .avsSettleTimeout) avsTimeout s

/-- ALARM_FIRE (R333). -/
def execAlarmFire (bad : List (Nat × Nat × Nat)) (s : State) : Host.Outcome State Fault Refusal :=
  onChip (Instr.wf (.alarmFire bad)) (alarmFire bad) s

/-- REFCLK_LOSS (R330). -/
def execRefclkLoss (which : Nat) (s : State) : Host.Outcome State Fault Refusal :=
  onChip (Instr.wf (.refclkLoss which)) (refclkLoss which) s

/-- XTAL_STABLE (R330). -/
def execXtalStable (s : State) : Host.Outcome State Fault Refusal :=
  onChip (Instr.wf .xtalStable) xtalStable s

/-- XTAL_FAIL (R330). -/
def execXtalFail (s : State) : Host.Outcome State Fault Refusal :=
  onChip (Instr.wf .xtalFail) xtalFail s

/-- TIME_BASE_READ (R334). -/
def execTimeBaseRead (ini : Nat) (s : State) : Host.Outcome State Fault Refusal :=
  onChip (Instr.wf (.timeBaseRead ini)) (timeBaseRead ini) s

/-- SRAM_NARROW_WRITE (R297). -/
def execSramNarrowWrite (dma : Bool) (a : Nat) (data : List Byte) (s : State) : Host.Outcome State Fault Refusal :=
  onChip (Instr.wf (.sramNarrowWrite dma a data)) (narrowWrite dma a data) s

/-- MERGE_BUFFER_FLUSH (R297). -/
def execMergeBufferFlush (dma : Bool) (w : Nat) (bad : Bool) (s : State) : Host.Outcome State Fault Refusal :=
  onChip (Instr.wf (.mergeBufferFlush dma w bad)) (mergeFlush dma w bad) s

/-- SCRUB_START (R302). -/
def execScrubStart (blk : Nat) (c : Nat) (v : W) (s : State) : Host.Outcome State Fault Refusal :=
  onChip (Instr.wf (.scrubStart blk c v)) (scrubStart blk c v) s

/-- SCRUB_WORD (R303). -/
def execScrubWord (blk : Nat) (c : Nat) (err : Nat) (waitNs : Nat) (restarts : Nat) (s : State) : Host.Outcome State Fault Refusal :=
  onChip (Instr.wf (.scrubWord blk c err waitNs restarts)) (scrubWord blk c err waitNs restarts) s

/-- SCRUB_END (R305). -/
def execScrubEnd (blk : Nat) (c : Nat) (s : State) : Host.Outcome State Fault Refusal :=
  onChip (Instr.wf (.scrubEnd blk c)) (scrubEnd blk c) s

/-- DMA_HALT_CLEAR (R300). -/
def execDmaHaltClear (v : W) (s : State) : Host.Outcome State Fault Refusal :=
  onChip (Instr.wf (.dmaHaltClear v)) (dmaHaltClear v) s

/-- SLOT_ENABLE (R336). -/
def execSlotEnable (k : Nat) (v : W) (s : State) : Host.Outcome State Fault Refusal :=
  onChip (Instr.wf (.slotEnable k v)) (slotEnable k v) s

/-- SLOT_DISABLE (R340). -/
def execSlotDisable (k : Nat) (v : W) (s : State) : Host.Outcome State Fault Refusal :=
  onChip (Instr.wf (.slotDisable k v)) (slotDisable k v) s

/-- SLOT_LIMIT_WRITE (R336). -/
def execSlotLimitWrite (k : Nat) (v : W) (s : State) : Host.Outcome State Fault Refusal :=
  onChip (Instr.wf (.slotLimitWrite k v)) (slotLimitWrite k v) s

/-- SLOT_CFG_WRITE (R336). -/
def execSlotCfgWrite (k : Nat) (shunt : Bool) (v : W) (s : State) : Host.Outcome State Fault Refusal :=
  onChip (Instr.wf (.slotCfgWrite k shunt v)) (slotCfgWrite k shunt v) s

/-- SLOT_PRESENCE_ASSERTED (R339). -/
def execSlotPresenceAsserted (k : Nat) (s : State) : Host.Outcome State Fault Refusal :=
  onChip (Instr.wf (.slotPresenceAsserted k)) (slotPresent k) s

/-- SLOT_PRESENCE_LOST (R346). -/
def execSlotPresenceLost (k : Nat) (s : State) : Host.Outcome State Fault Refusal :=
  onChip (Instr.wf (.slotPresenceLost k)) (slotAbsent k) s

/-- SLOT_VIN_LEAVE_WINDOW (R338). -/
def execSlotVinLeaveWindow (k : Nat) (i : VinInput) (mv : Nat) (s : State) : Host.Outcome State Fault Refusal :=
  onChip (Instr.wf (.slotVinLeaveWindow k i mv)) (slotVinLeave k i mv) s

/-- SLOT_VIN_ENTER_WINDOW (R338). -/
def execSlotVinEnterWindow (k : Nat) (i : VinInput) (mv : Nat) (s : State) : Host.Outcome State Fault Refusal :=
  onChip (Instr.wf (.slotVinEnterWindow k i mv)) (slotVinEnter k i mv) s

/-- SLOT_INSERTION_DELAY_EXPIRE (R340). -/
def execSlotInsertionDelayExpire (k : Nat) (s : State) : Host.Outcome State Fault Refusal :=
  onChip (Instr.wf (.slotInsertionDelayExpire k)) (slotInsertion k) s

/-- SLOT_FULL_ENHANCEMENT (R416). -/
def execSlotFullEnhancement (k : Nat) (s : State) : Host.Outcome State Fault Refusal :=
  onChip (Instr.wf (.slotFullEnhancement k)) (slotFull k) s

/-- SLOT_RAMP_TIMEOUT (R340). -/
def execSlotRampTimeout (k : Nat) (s : State) : Host.Outcome State Fault Refusal :=
  onChip (Instr.wf (.slotRampTimeout k)) (slotRampTimeout k) s

/-- SLOT_PG_QUALIFIED (R343). -/
def execSlotPgQualified (k : Nat) (timerStarts : Bool) (s : State) : Host.Outcome State Fault Refusal :=
  onChip (Instr.wf (.slotPgQualified k timerStarts)) (slotPgQualified k timerStarts) s

/-- SLOT_LIMIT_ACT (R341). -/
def execSlotLimitAct (k : Nat) (n : Nat) (s : State) : Host.Outcome State Fault Refusal :=
  onChip (Instr.wf (.slotLimitAct k n)) (slotLimitAct k n) s

/-- SLOT_FAULT_TIMER_EXPIRE (R341). -/
def execSlotFaultTimerExpire (k : Nat) (s : State) : Host.Outcome State Fault Refusal :=
  onChip (Instr.wf (.slotFaultTimerExpire k)) (slotTimerExpire k) s

/-- SLOT_FAST_TRIP (R342). -/
def execSlotFastTrip (k : Nat) (s : State) : Host.Outcome State Fault Refusal :=
  onChip (Instr.wf (.slotFastTrip k)) (slotFastTrip k) s

/-- SLOT_TEMP_TRIP (R348). -/
def execSlotTempTrip (k : Nat) (s : State) : Host.Outcome State Fault Refusal :=
  onChip (Instr.wf (.slotTempTrip k)) (slotTempTrip k) s

/-- SLOT_TEMP_BELOW_TJMAX (R348). -/
def execSlotTempBelowTjmax (k : Nat) (s : State) : Host.Outcome State Fault Refusal :=
  onChip (Instr.wf (.slotTempBelowTjmax k)) (slotTempBelow k) s

/-- SLOT_DIODE_FAULT (R348). -/
def execSlotDiodeFault (k : Nat) (s : State) : Host.Outcome State Fault Refusal :=
  onChip (Instr.wf (.slotDiodeFault k)) (slotDiode k) s

/-- SLOT_VOUT_LOST (R340). -/
def execSlotVoutLost (k : Nat) (s : State) : Host.Outcome State Fault Refusal :=
  onChip (Instr.wf (.slotVoutLost k)) (slotVoutLost k) s

/-- SLOT_RETRY_EXPIRE (R340). -/
def execSlotRetryExpire (k : Nat) (s : State) : Host.Outcome State Fault Refusal :=
  onChip (Instr.wf (.slotRetryExpire k)) (slotRetry k) s

/-- SLOT_POWERED_60S (R345). -/
def execSlotPowered60s (k : Nat) (s : State) : Host.Outcome State Fault Refusal :=
  onChip (Instr.wf (.slotPowered60s k)) (slotPowered60 k) s

/-- SLOT_CLEAR (R340). -/
def execSlotClear (k : Nat) (high : Bool) (s : State) : Host.Outcome State Fault Refusal :=
  onChip (Instr.wf (.slotClear k high)) (slotClearCmd k high) s

/-- SLOT_PASS_FAULT (R347). -/
def execSlotPassFault (k : Nat) (s : State) : Host.Outcome State Fault Refusal :=
  onChip (Instr.wf (.slotPassFault k)) (slotPassFault k) s

/-- SLOT_FEED_REVERSE (R337). -/
def execSlotFeedReverse (k : Nat) (b : Bool) (reversed : Bool) (s : State) : Host.Outcome State Fault Refusal :=
  onChip (Instr.wf (.slotFeedReverse k b reversed)) (slotFeedReverse k b reversed) s

/-- SLOT_ENERGY_CLEAR (R349). -/
def execSlotEnergyClear (k : Nat) (s : State) : Host.Outcome State Fault Refusal :=
  onChip (Instr.wf (.slotEnergyClear k)) (slotEnergyClear k) s

/-- SLOT_MEAS_READ (R350). -/
def execSlotMeasRead (ini : Nat) (k : Nat) (m : SlotSample) (s : State) : Host.Outcome State Fault Refusal :=
  onChip (Instr.wf (.slotMeasRead ini k m)) (slotMeasRead ini k m) s

/-- VIN_SNS_OUT_OF_RANGE (R403). -/
def execVinSnsOutOfRange (mv : Nat) (s : State) : Host.Outcome State Fault Refusal :=
  onChip (Instr.wf (.vinSnsOutOfRange mv)) (vinSnsOut mv) s

/-- VIN_SNS_RECOVER (R403). -/
def execVinSnsRecover (mv : Nat) (s : State) : Host.Outcome State Fault Refusal :=
  onChip (Instr.wf (.vinSnsRecover mv)) (vinSnsRecover mv) s

/-- COUNTER_WRAP (R355). -/
def execCounterWrap (n : Nat) (k : Nat) (s : State) : Host.Outcome State Fault Refusal :=
  onChip (Instr.wf (.counterWrap n k)) (counterWrap n k) s

/-- COUNTER_READ (R358). -/
def execCounterRead (ini : Nat) (n : Nat) (s : State) : Host.Outcome State Fault Refusal :=
  onChip (Instr.wf (.counterRead ini n)) (counterRead ini n) s

/-- SAMPLING_ARM (R360). -/
def execSamplingArm (u : Nat) (v : W) (s : State) : Host.Outcome State Fault Refusal :=
  onChip (Instr.wf (.samplingArm u v)) (samplingArm u v) s

/-- SAMPLING_PERIOD_REACHED (R360). -/
def execSamplingPeriodReached (u : Nat) (s : State) : Host.Outcome State Fault Refusal :=
  onChip (Instr.wf (.samplingPeriodReached u)) (samplingReached u) s

/-- SAMPLING_INTERRUPT_TAKEN (R361). -/
def execSamplingInterruptTaken (u : Nat) (pc : Nat) (s : State) : Host.Outcome State Fault Refusal :=
  onChip (Instr.wf (.samplingInterruptTaken u pc)) (samplingTaken u pc) s

/-- HIST_EDGE_COMMIT (R363). -/
def execHistEdgeCommit (v : W) (s : State) : Host.Outcome State Fault Refusal :=
  onChip (Instr.wf (.histEdgeCommit v)) (histCommit v) s

/-- HIST_FREEZE (R364). -/
def execHistFreeze (v : W) (s : State) : Host.Outcome State Fault Refusal :=
  onChip (Instr.wf (.histFreeze v)) (histFreeze v) s

/-- HIST_SEL_WRITE (R363). -/
def execHistSelWrite (w : Nat) (v : W) (s : State) : Host.Outcome State Fault Refusal :=
  onChip (Instr.wf (.histSelWrite w v)) (histSelWrite w v) s

/-- HIST_READ (R364). -/
def execHistRead (ini : Nat) (i : Nat) (b : Nat) (s : State) : Host.Outcome State Fault Refusal :=
  onChip (Instr.wf (.histRead ini i b)) (histRead ini i b) s

/-- JTAG_INSTRUCTION_LOAD (R377). -/
def execJtagInstructionLoad (i : JtagInstr) (s : State) : Host.Outcome State Fault Refusal :=
  onChip (Instr.wf (.jtagInstructionLoad i)) (jtagLoad i) s

/-- JTAG_DEBUG_ACCESS (R147). -/
def execJtagDebugAccess (addr : Nat) (v : Option W) (s : State) : Host.Outcome State Fault Refusal :=
  run (Instr.wf (.jtagDebugAccess addr v)) (fun s => s.withChip (jtagAccess s.view addr v s.chip)) s

/-- POWER_GOOD_HOLD_EXPIRE (R38). -/
def execPowerGoodHoldExpire (p : Nat) (s : State) : Host.Outcome State Fault Refusal :=
  onChip (Instr.wf (.powerGoodHoldExpire p)) (powerGoodHold p) s

/-- REFCLK_RETURN (R330). -/
def execRefclkReturn (which : Nat) (s : State) : Host.Outcome State Fault Refusal :=
  onChip (Instr.wf (.refclkReturn which)) (refclkReturn which) s

/-- SUPPLY_BACK_IN_WINDOW (R329). -/
def execSupplyBackInWindow (rail : Nat) (s : State) : Host.Outcome State Fault Refusal :=
  onChip (Instr.wf (.supplyBackInWindow rail)) (supplyBack rail) s

/-- TRUNK_CSB_CHANGE (R38). -/
def execTrunkCsbChange (p : Nat) (low : Bool) (s : State) : Host.Outcome State Fault Refusal :=
  onChip (Instr.wf (.trunkCsbChange p low)) (trunkCsb p low) s

/-- SLOT_FAULT_TIMER_ZERO (R341). -/
def execSlotFaultTimerZero (k : Nat) (s : State) : Host.Outcome State Fault Refusal :=
  onChip (Instr.wf (.slotFaultTimerZero k)) (slotTimerZero k) s

/-- ASPM_L1_ENTRY (R28). -/
def execAspmL1Entry (x : LowPower) (s : State) : Host.Outcome State Fault Refusal :=
  onChip (Instr.wf (.aspmL1Entry x)) (aspmEntry x) s

/-- ASPM_L1_EXIT (R28). -/
def execAspmL1Exit (p : Nat) (s : State) : Host.Outcome State Fault Refusal :=
  onChip (Instr.wf (.aspmL1Exit p)) (aspmExit p) s

end Sys2Proof.Machine
end

