-- ==== Sys2Proof/Machine/Dispatch.lean ====
section
/-! DEFINITION. One arm for each command: a direct call of its meaning. -/

namespace Sys2Proof.Machine

def exec (i : Instr) (s : State) : Host.Outcome State Fault Refusal :=
  match i with
  | .coldReset lowNs => Sys2Proof.Machine.execColdReset lowNs s
  | .aoBrownout biasHeld => Sys2Proof.Machine.execAoBrownout biasHeld s
  | .startUp x => Sys2Proof.Machine.execStartUp x s
  | .imageDone => Sys2Proof.Machine.execImageDone s
  | .waveBegin w => Sys2Proof.Machine.execWaveBegin w s
  | .rollbackAdvance => Sys2Proof.Machine.execRollbackAdvance s
  | .hello q => Sys2Proof.Machine.execHello q s
  | .bye q => Sys2Proof.Machine.execBye q s
  | .echo q => Sys2Proof.Machine.execEcho q s
  | .relayClaim q => Sys2Proof.Machine.execRelayClaim q s
  | .regRead q => Sys2Proof.Machine.execRegRead q s
  | .regWrite q => Sys2Proof.Machine.execRegWrite q s
  | .regRmw q => Sys2Proof.Machine.execRegRmw q s
  | .bulkRead q => Sys2Proof.Machine.execBulkRead q s
  | .bulkWrite q => Sys2Proof.Machine.execBulkWrite q s
  | .counterSweep q => Sys2Proof.Machine.execCounterSweep q s
  | .bindVppb q => Sys2Proof.Machine.execBindVppb q s
  | .unbindDrain q => Sys2Proof.Machine.execUnbindDrain q s
  | .unbindSquash q => Sys2Proof.Machine.execUnbindSquash q s
  | .portRemove q => Sys2Proof.Machine.execPortRemove q s
  | .portAdmit q => Sys2Proof.Machine.execPortAdmit q s
  | .instAttach q => Sys2Proof.Machine.execInstAttach q s
  | .windowSet q => Sys2Proof.Machine.execWindowSet q s
  | .groveCreate q => Sys2Proof.Machine.execGroveCreate q s
  | .groveMemberAdd q => Sys2Proof.Machine.execGroveMemberAdd q s
  | .groveMemberRemove q => Sys2Proof.Machine.execGroveMemberRemove q s
  | .groveDissolve q => Sys2Proof.Machine.execGroveDissolve q s
  | .fabricAtomic q => Sys2Proof.Machine.execFabricAtomic q s
  | .graftCreate q => Sys2Proof.Machine.execGraftCreate q s
  | .graftAbort q => Sys2Proof.Machine.execGraftAbort q s
  | .graftReleaseChecked q => Sys2Proof.Machine.execGraftReleaseChecked q s
  | .graftReleaseForced q => Sys2Proof.Machine.execGraftReleaseForced q s
  | .graftSettle q => Sys2Proof.Machine.execGraftSettle q s
  | .mailboxReply q => Sys2Proof.Machine.execMailboxReply q s
  | .fmapiTunnel q => Sys2Proof.Machine.execFmapiTunnel q s
  | .powerQuery q => Sys2Proof.Machine.execPowerQuery q s
  | .powerOff q => Sys2Proof.Machine.execPowerOff q s
  | .powerOn q => Sys2Proof.Machine.execPowerOn q s
  | .enterDormant q => Sys2Proof.Machine.execEnterDormant q s
  | .setOperatingPoint q => Sys2Proof.Machine.execSetOperatingPoint q s
  | .faultClear q => Sys2Proof.Machine.execFaultClear q s
  | .faultResumeRestart q => Sys2Proof.Machine.execFaultResumeRestart q s
  | .faultResumeWarm q => Sys2Proof.Machine.execFaultResumeWarm q s
  | .chipReset q => Sys2Proof.Machine.execChipReset q s
  | .selfTestMemory q => Sys2Proof.Machine.execSelfTestMemory q s
  | .selfTestFullBist q => Sys2Proof.Machine.execSelfTestFullBist q s
  | .selfTestLogicBist q => Sys2Proof.Machine.execSelfTestLogicBist q s
  | .selfTestLane q => Sys2Proof.Machine.execSelfTestLane q s
  | .selfTestSlotConverter q => Sys2Proof.Machine.execSelfTestSlotConverter q s
  | .selfTestDroop q => Sys2Proof.Machine.execSelfTestDroop q s
  | .selfTestTemperature q => Sys2Proof.Machine.execSelfTestTemperature q s
  | .testSectionTimeout u c n => Sys2Proof.Machine.execTestSectionTimeout u c n s
  | .testSectionRetry u c n => Sys2Proof.Machine.execTestSectionRetry u c n s
  | .selfTestEnd failed sigs bad => Sys2Proof.Machine.execSelfTestEnd failed sigs bad s
  | .imageErase q => Sys2Proof.Machine.execImageErase q s
  | .imageWrite q => Sys2Proof.Machine.execImageWrite q s
  | .imageRead q => Sys2Proof.Machine.execImageRead q s
  | .imageVerify q => Sys2Proof.Machine.execImageVerify q s
  | .lcState q => Sys2Proof.Machine.execLcState q s
  | .lcReturnChallenge q => Sys2Proof.Machine.execLcReturnChallenge q s
  | .lcReturnToken q => Sys2Proof.Machine.execLcReturnToken q s
  | .lcChallengeExpire => Sys2Proof.Machine.execLcChallengeExpire s
  | .lcAdvance q => Sys2Proof.Machine.execLcAdvance q s
  | .lcFuseProgramDone ok left => Sys2Proof.Machine.execLcFuseProgramDone ok left s
  | .eventAck q code => Sys2Proof.Machine.execEventAck q code s
  | .eventRetry num seq => Sys2Proof.Machine.execEventRetry num seq s
  | .sessionKeepaliveExpire num => Sys2Proof.Machine.execSessionKeepaliveExpire num s
  | .sequenceGapExpire num => Sys2Proof.Machine.execSequenceGapExpire num s
  | .kmpDatagramDiscard e => Sys2Proof.Machine.execKmpDatagramDiscard e s
  | .kmpCfgWrite v => Sys2Proof.Machine.execKmpCfgWrite v s
  | .ethFrameReceive e f => Sys2Proof.Machine.execEthFrameReceive e f s
  | .arpRequest e ip => Sys2Proof.Machine.execArpRequest e ip s
  | .neighbourSolicitation e ip => Sys2Proof.Machine.execNeighbourSolicitation e ip s
  | .icmpEchoRequest e v6 ip data => Sys2Proof.Machine.execIcmpEchoRequest e v6 ip data s
  | .mkaFrame e m => Sys2Proof.Machine.execMkaFrame e m s
  | .sakRekey e pn => Sys2Proof.Machine.execSakRekey e pn s
  | .ethLinkUp e phy fec => Sys2Proof.Machine.execEthLinkUp e phy fec s
  | .ethLinkDown e => Sys2Proof.Machine.execEthLinkDown e s
  | .celPortCfgWrite c v => Sys2Proof.Machine.execCelPortCfgWrite c v s
  | .partnerDetected p => Sys2Proof.Machine.execPartnerDetected p s
  | .receiverDetectRepeat p => Sys2Proof.Machine.execReceiverDetectRepeat p s
  | .trainingStepComplete p info => Sys2Proof.Machine.execTrainingStepComplete p info s
  | .trainingStepFail p => Sys2Proof.Machine.execTrainingStepFail p s
  | .linkUp p lds hdr dat => Sys2Proof.Machine.execLinkUp p lds hdr dat s
  | .linkFlitReceive p lane o => Sys2Proof.Machine.execLinkFlitReceive p lane o s
  | .messageTailCrcFail p m => Sys2Proof.Machine.execMessageTailCrcFail p m s
  | .reEqualization p => Sys2Proof.Machine.execReEqualization p s
  | .linkProtocolViolation p => Sys2Proof.Machine.execLinkProtocolViolation p s
  | .perstNAssert p lowNs => Sys2Proof.Machine.execPerstNAssert p lowNs s
  | .perstNRelease p => Sys2Proof.Machine.execPerstNRelease p s
  | .upstreamHotReset p => Sys2Proof.Machine.execUpstreamHotReset p s
  | .dpcTrigger p => Sys2Proof.Machine.execDpcTrigger p s
  | .partnerLaneMargining c lane on errors => Sys2Proof.Machine.execPartnerLaneMargining c lane on errors s
  | .marginScanStart c lane v => Sys2Proof.Machine.execMarginScanStart c lane v s
  | .marginScanDone c lane errors => Sys2Proof.Machine.execMarginScanDone c lane errors s
  | .testEnable c v => Sys2Proof.Machine.execTestEnable c v s
  | .testDisable c v => Sys2Proof.Machine.execTestDisable c v s
  | .loopModeSet c v => Sys2Proof.Machine.execLoopModeSet c v s
  | .remoteLoopbackTimeout c => Sys2Proof.Machine.execRemoteLoopbackTimeout c s
  | .prbsClear c lane v => Sys2Proof.Machine.execPrbsClear c lane v s
  | .prbsCheckerLock c lane => Sys2Proof.Machine.execPrbsCheckerLock c lane s
  | .prbsCheckerUnlock c lane errors burst => Sys2Proof.Machine.execPrbsCheckerUnlock c lane errors burst s
  | .ingressMessageArrival p m => Sys2Proof.Machine.execIngressMessageArrival p m s
  | .contractBucketRefill p => Sys2Proof.Machine.execContractBucketRefill p s
  | .contractEnable p => Sys2Proof.Machine.execContractEnable p s
  | .committedWaitTimeout p => Sys2Proof.Machine.execCommittedWaitTimeout p s
  | .ingressToEgressMove m ecc => Sys2Proof.Machine.execIngressToEgressMove m ecc s
  | .meshInject m => Sys2Proof.Machine.execMeshInject m s
  | .meshPacketArrive m net header => Sys2Proof.Machine.execMeshPacketArrive m net header s
  | .landingMove m => Sys2Proof.Machine.execLandingMove m s
  | .multicastCopyLand m => Sys2Proof.Machine.execMulticastCopyLand m s
  | .egressQueueReopen p sc => Sys2Proof.Machine.execEgressQueueReopen p sc s
  | .queueStateBroadcast r => Sys2Proof.Machine.execQueueStateBroadcast r s
  | .egressTransmit p => Sys2Proof.Machine.execEgressTransmit p s
  | .linkCreditReturn p mc hdr dat => Sys2Proof.Machine.execLinkCreditReturn p mc hdr dat s
  | .transactionEnd t => Sys2Proof.Machine.execTransactionEnd t s
  | .portDown p why => Sys2Proof.Machine.execPortDown p why s
  | .flushDone p => Sys2Proof.Machine.execFlushDone p s
  | .instCfgWrite n v => Sys2Proof.Machine.execInstCfgWrite n v s
  | .secondaryBusResetSet n v => Sys2Proof.Machine.execSecondaryBusResetSet n v s
  | .secondaryBusResetClear n v => Sys2Proof.Machine.execSecondaryBusResetClear n v s
  | .drainDone n v => Sys2Proof.Machine.execDrainDone n v s
  | .drainTimeout n v => Sys2Proof.Machine.execDrainTimeout n v s
  | .squashDone n v => Sys2Proof.Machine.execSquashDone n v s
  | .downLimitExpire p => Sys2Proof.Machine.execDownLimitExpire p s
  | .loopCheckDone p lanes => Sys2Proof.Machine.execLoopCheckDone p lanes s
  | .loopCheckTimeout p => Sys2Proof.Machine.execLoopCheckTimeout p s
  | .mailboxDoorbell n opcode payload => Sys2Proof.Machine.execMailboxDoorbell n opcode payload s
  | .mailboxRelayTimeout n => Sys2Proof.Machine.execMailboxRelayTimeout n s
  | .windowCommit r v => Sys2Proof.Machine.execWindowCommit r v s
  | .epochCommit => Sys2Proof.Machine.execEpochCommit s
  | .epochStall e => Sys2Proof.Machine.execEpochStall e s
  | .mpuAttrWrite ini e v => Sys2Proof.Machine.execMpuAttrWrite ini e v s
  | .mpuBaseWrite ini e v => Sys2Proof.Machine.execMpuBaseWrite ini e v s
  | .registerWrite ini level addr size v => Sys2Proof.Machine.execRegisterWrite ini level addr size v s
  | .homeRequest m err => Sys2Proof.Machine.execHomeRequest m err s
  | .birspArrival m => Sys2Proof.Machine.execBirspArrival m s
  | .homeDeviceResponse m => Sys2Proof.Machine.execHomeDeviceResponse m s
  | .biconflict m => Sys2Proof.Machine.execBiconflict m s
  | .birspTimeout t n => Sys2Proof.Machine.execBirspTimeout t n s
  | .groveFellingComplete g => Sys2Proof.Machine.execGroveFellingComplete g s
  | .deviceViral p => Sys2Proof.Machine.execDeviceViral p s
  | .groveTargetsUp g => Sys2Proof.Machine.execGroveTargetsUp g s
  | .removalWalkDone g => Sys2Proof.Machine.execRemovalWalkDone g s
  | .agentAtomic m err => Sys2Proof.Machine.execAgentAtomic m err s
  | .snfProbeStart r v err => Sys2Proof.Machine.execSnfProbeStart r v err s
  | .ertProbeStart r v => Sys2Proof.Machine.execErtProbeStart r v s
  | .graftArmedDrained c => Sys2Proof.Machine.execGraftArmedDrained c s
  | .chunkReadIssue c k => Sys2Proof.Machine.execChunkReadIssue c k s
  | .chunkLineReturn x => Sys2Proof.Machine.execChunkLineReturn x s
  | .mirroredWriteComplete k => Sys2Proof.Machine.execMirroredWriteComplete k s
  | .graftCopyDone c => Sys2Proof.Machine.execGraftCopyDone c s
  | .graftSwitch c => Sys2Proof.Machine.execGraftSwitch c s
  | .graftXferTimeout c => Sys2Proof.Machine.execGraftXferTimeout c s
  | .graftFlipTimeout c => Sys2Proof.Machine.execGraftFlipTimeout c s
  | .channelHaltClear c => Sys2Proof.Machine.execChannelHaltClear c s
  | .boundaryPacketArrive m net => Sys2Proof.Machine.execBoundaryPacketArrive m net s
  | .domainEntryAnswer d => Sys2Proof.Machine.execDomainEntryAnswer d s
  | .entryLimitExpire => Sys2Proof.Machine.execEntryLimitExpire s
  | .regionDrained r => Sys2Proof.Machine.execRegionDrained r s
  | .retentionSaveDone => Sys2Proof.Machine.execRetentionSaveDone s
  | .domainReady node h bad => Sys2Proof.Machine.execDomainReady node h bad s
  | .nocRouteFlip v => Sys2Proof.Machine.execNocRouteFlip v s
  | .epochMarkerArrive src dst net vc plane => Sys2Proof.Machine.execEpochMarkerArrive src dst net vc plane s
  | .routeTableWrite node t v => Sys2Proof.Machine.execRouteTableWrite node t v s
  | .statSnapshot v => Sys2Proof.Machine.execStatSnapshot v s
  | .statClear => Sys2Proof.Machine.execStatClear s
  | .faultRecordPropagate c => Sys2Proof.Machine.execFaultRecordPropagate c s
  | .fltRecClear c => Sys2Proof.Machine.execFltRecClear c s
  | .failTest => Sys2Proof.Machine.execFailTest s
  | .failTestEnd => Sys2Proof.Machine.execFailTestEnd s
  | .heartbeatLoss => Sys2Proof.Machine.execHeartbeatLoss s
  | .heartbeatReturn => Sys2Proof.Machine.execHeartbeatReturn s
  | .temperatureSample l => Sys2Proof.Machine.execTemperatureSample l s
  | .supplyOutOfWindow rail => Sys2Proof.Machine.execSupplyOutOfWindow rail s
  | .droopWarning r uv => Sys2Proof.Machine.execDroopWarning r uv s
  | .droopRelease r => Sys2Proof.Machine.execDroopRelease r s
  | .droopReset r uv => Sys2Proof.Machine.execDroopReset r uv s
  | .droopCfgWrite v => Sys2Proof.Machine.execDroopCfgWrite v s
  | .avsSettled retries => Sys2Proof.Machine.execAvsSettled retries s
  | .avsSettleTimeout => Sys2Proof.Machine.execAvsSettleTimeout s
  | .alarmFire bad => Sys2Proof.Machine.execAlarmFire bad s
  | .refclkLoss which => Sys2Proof.Machine.execRefclkLoss which s
  | .xtalStable => Sys2Proof.Machine.execXtalStable s
  | .xtalFail => Sys2Proof.Machine.execXtalFail s
  | .timeBaseRead ini => Sys2Proof.Machine.execTimeBaseRead ini s
  | .sramNarrowWrite dma a data => Sys2Proof.Machine.execSramNarrowWrite dma a data s
  | .mergeBufferFlush dma w bad => Sys2Proof.Machine.execMergeBufferFlush dma w bad s
  | .scrubStart blk c v => Sys2Proof.Machine.execScrubStart blk c v s
  | .scrubWord blk c err waitNs restarts => Sys2Proof.Machine.execScrubWord blk c err waitNs restarts s
  | .scrubEnd blk c => Sys2Proof.Machine.execScrubEnd blk c s
  | .dmaHaltClear v => Sys2Proof.Machine.execDmaHaltClear v s
  | .slotEnable k v => Sys2Proof.Machine.execSlotEnable k v s
  | .slotDisable k v => Sys2Proof.Machine.execSlotDisable k v s
  | .slotLimitWrite k v => Sys2Proof.Machine.execSlotLimitWrite k v s
  | .slotCfgWrite k shunt v => Sys2Proof.Machine.execSlotCfgWrite k shunt v s
  | .slotPresenceAsserted k => Sys2Proof.Machine.execSlotPresenceAsserted k s
  | .slotPresenceLost k => Sys2Proof.Machine.execSlotPresenceLost k s
  | .slotVinLeaveWindow k w mv => Sys2Proof.Machine.execSlotVinLeaveWindow k w mv s
  | .slotVinEnterWindow k w mv => Sys2Proof.Machine.execSlotVinEnterWindow k w mv s
  | .slotInsertionDelayExpire k => Sys2Proof.Machine.execSlotInsertionDelayExpire k s
  | .slotFullEnhancement k => Sys2Proof.Machine.execSlotFullEnhancement k s
  | .slotRampTimeout k => Sys2Proof.Machine.execSlotRampTimeout k s
  | .slotPgQualified k timerStarts => Sys2Proof.Machine.execSlotPgQualified k timerStarts s
  | .slotLimitAct k n => Sys2Proof.Machine.execSlotLimitAct k n s
  | .slotFaultTimerExpire k => Sys2Proof.Machine.execSlotFaultTimerExpire k s
  | .slotFastTrip k => Sys2Proof.Machine.execSlotFastTrip k s
  | .slotTempTrip k => Sys2Proof.Machine.execSlotTempTrip k s
  | .slotTempBelowTjmax k => Sys2Proof.Machine.execSlotTempBelowTjmax k s
  | .slotDiodeFault k => Sys2Proof.Machine.execSlotDiodeFault k s
  | .slotVoutLost k => Sys2Proof.Machine.execSlotVoutLost k s
  | .slotRetryExpire k => Sys2Proof.Machine.execSlotRetryExpire k s
  | .slotPowered60s k => Sys2Proof.Machine.execSlotPowered60s k s
  | .slotClear k high => Sys2Proof.Machine.execSlotClear k high s
  | .slotPassFault k => Sys2Proof.Machine.execSlotPassFault k s
  | .slotFeedReverse k b reversed => Sys2Proof.Machine.execSlotFeedReverse k b reversed s
  | .slotEnergyClear k => Sys2Proof.Machine.execSlotEnergyClear k s
  | .slotMeasRead ini k m => Sys2Proof.Machine.execSlotMeasRead ini k m s
  | .vinSnsOutOfRange mv => Sys2Proof.Machine.execVinSnsOutOfRange mv s
  | .vinSnsRecover mv => Sys2Proof.Machine.execVinSnsRecover mv s
  | .counterWrap n k => Sys2Proof.Machine.execCounterWrap n k s
  | .counterRead ini n => Sys2Proof.Machine.execCounterRead ini n s
  | .samplingArm u v => Sys2Proof.Machine.execSamplingArm u v s
  | .samplingPeriodReached u => Sys2Proof.Machine.execSamplingPeriodReached u s
  | .samplingInterruptTaken u pc => Sys2Proof.Machine.execSamplingInterruptTaken u pc s
  | .histEdgeCommit v => Sys2Proof.Machine.execHistEdgeCommit v s
  | .histFreeze v => Sys2Proof.Machine.execHistFreeze v s
  | .histSelWrite w v => Sys2Proof.Machine.execHistSelWrite w v s
  | .histRead ini w b => Sys2Proof.Machine.execHistRead ini w b s
  | .jtagInstructionLoad w => Sys2Proof.Machine.execJtagInstructionLoad w s
  | .jtagDebugAccess addr v => Sys2Proof.Machine.execJtagDebugAccess addr v s
  | .powerGoodHoldExpire p => Sys2Proof.Machine.execPowerGoodHoldExpire p s
  | .refclkReturn which => Sys2Proof.Machine.execRefclkReturn which s
  | .supplyBackInWindow rail => Sys2Proof.Machine.execSupplyBackInWindow rail s
  | .trunkCsbChange p low => Sys2Proof.Machine.execTrunkCsbChange p low s
  | .slotFaultTimerZero k => Sys2Proof.Machine.execSlotFaultTimerZero k s
  | .aspmL1Entry x => Sys2Proof.Machine.execAspmL1Entry x s
  | .aspmL1Exit p => Sys2Proof.Machine.execAspmL1Exit p s

end Sys2Proof.Machine
end

