-- ==== Sys2Proof/Laws/Bits.lean ====
section
/-! SUPPORT. The bits of a number after its fields are replaced. -/

namespace Sys2Proof.Machine

theorem putBits_split (v lo w x : Nat) :
    putBits v lo w x = 2 ^ (lo + w) * (v / 2 ^ (lo + w)) + (2 ^ lo * (x % 2 ^ w) + v % 2 ^ lo) := by
  have h1 : v = 2 ^ lo * (v / 2 ^ lo) + v % 2 ^ lo := (Nat.div_add_mod v (2 ^ lo)).symm
  have h2 : v / 2 ^ lo = 2 ^ w * (v / 2 ^ lo / 2 ^ w) + v / 2 ^ lo % 2 ^ w := (Nat.div_add_mod _ (2 ^ w)).symm
  have h3 : v / 2 ^ lo / 2 ^ w = v / 2 ^ (lo + w) := by rw [Nat.div_div_eq_div_mul, ← Nat.pow_add]
  rw [h3] at h2
  have h4 : v = 2 ^ (lo + w) * (v / 2 ^ (lo + w)) + v / 2 ^ lo % 2 ^ w * 2 ^ lo + v % 2 ^ lo := by
    conv_lhs => rw [h1, h2]
    rw [Nat.pow_add]; ring
  unfold putBits bitsOf
  generalize hq : 2 ^ (lo + w) * (v / 2 ^ (lo + w)) = q at h4 ⊢
  generalize hb : v / 2 ^ lo % 2 ^ w * 2 ^ lo = b at h4 ⊢
  have h5 : v - b = q + v % 2 ^ lo := by omega
  rw [h5]; ring

theorem testBit_bitsOf (v lo w i : Nat) : (bitsOf v lo w).testBit i = (decide (i < w) && v.testBit (lo + i)) := by
  unfold bitsOf
  rw [Nat.testBit_mod_two_pow, Nat.testBit_div_two_pow, Nat.add_comm]

/-- Replacing a field replaces its bits and no other. -/
theorem testBit_putBits (v lo w x i : Nat) :
    (putBits v lo w x).testBit i = if lo ≤ i ∧ i < lo + w then x.testBit (i - lo) else v.testBit i := by
  have hlt : v % 2 ^ lo < 2 ^ lo := Nat.mod_lt _ (by positivity)
  have hx : x % 2 ^ w < 2 ^ w := Nat.mod_lt _ (by positivity)
  have hlt2 : 2 ^ lo * (x % 2 ^ w) + v % 2 ^ lo < 2 ^ (lo + w) := by
    rw [Nat.pow_add]
    calc 2 ^ lo * (x % 2 ^ w) + v % 2 ^ lo < 2 ^ lo * (x % 2 ^ w) + 2 ^ lo := by omega
      _ = 2 ^ lo * (x % 2 ^ w + 1) := by ring
      _ ≤ 2 ^ lo * 2 ^ w := Nat.mul_le_mul_left _ hx
  rw [putBits_split, Nat.testBit_two_pow_mul_add _ hlt2, Nat.testBit_two_pow_mul_add _ hlt]
  by_cases h1 : i < lo + w
  · by_cases h2 : i < lo
    · simp [h1, h2, Nat.testBit_mod_two_pow]
    · have h3 : i - lo < w := by omega
      have h4 : lo ≤ i := by omega
      simp [h1, h2, h3, h4, Nat.testBit_mod_two_pow]
  · simp only [h1, if_false, and_false]
    rw [Nat.testBit_div_two_pow]
    congr 1; omega

theorem bitsOf_lt (v lo w : Nat) : bitsOf v lo w < 2 ^ w := Nat.mod_lt _ (by positivity)

theorem bitsOf_putBits_self (v lo w x : Nat) : bitsOf (putBits v lo w x) lo w = x % 2 ^ w := by
  apply Nat.eq_of_testBit_eq
  intro i
  rw [testBit_bitsOf, testBit_putBits, Nat.testBit_mod_two_pow]
  by_cases h : i < w <;> simp [h]

theorem bitsOf_putBits_ne (v lo w x lo' w' : Nat) (h : lo' + w' ≤ lo ∨ lo + w ≤ lo') :
    bitsOf (putBits v lo w x) lo' w' = bitsOf v lo' w' := by
  apply Nat.eq_of_testBit_eq
  intro i
  rw [testBit_bitsOf, testBit_bitsOf, testBit_putBits]
  by_cases hi : i < w'
  · have : ¬(lo ≤ lo' + i ∧ lo' + i < lo + w) := by omega
    rw [if_neg this]
  · simp [hi]

/-- A field of a 32-bit word is not changed by cutting the number to 32 bits. -/
theorem bitsOf_w32 (v lo w : Nat) (h : lo + w ≤ 32) : bitsOf (w32 v).toNat lo w = bitsOf v lo w := by
  apply Nat.eq_of_testBit_eq
  intro i
  rw [testBit_bitsOf, testBit_bitsOf]
  unfold w32
  rw [BitVec.toNat_ofNat, Nat.testBit_mod_two_pow]
  by_cases hi : i < w
  · have : lo + i < 32 := by omega
    simp [hi, this]
  · simp [hi]

theorem bitAt_testBit (v i : Nat) : bitAt v i = v.testBit i := by
  unfold bitAt
  rw [Nat.testBit_eq_decide_div_mod_eq]

end Sys2Proof.Machine
end

