-- ==== Sys2Proof/Laws/Table.lean ====
section
/-! SUPPORT. What reading a sparse table gives after a write, and that a write keeps the canonical form. -/

namespace Sys2Proof.Machine

section
variable {κ α : Type} [DecidableEq κ]

/-- What holds of the default and of every entry holds of every reading. -/
theorem tget_all (p : α → Prop) (d : α) (t : List (κ × α)) (hd : p d) (h : ∀ e ∈ t, p e.2) (k : κ) : p (tget d t k) := by
  induction t with
  | nil => exact hd
  | cons e t ih =>
    obtain ⟨a, v⟩ := e
    unfold tget
    split
    · exact h (a, v) List.mem_cons_self
    · exact ih (fun e he => h e (List.mem_cons_of_mem _ he))

theorem tget_tdel_self (d : α) (t : List (κ × α)) (k : κ) : tget d (tdel t k) k = d := by
  induction t with
  | nil => rfl
  | cons e t ih =>
    obtain ⟨k', v'⟩ := e
    by_cases h : k' = k
    · simpa [tdel, h] using ih
    · have : tdel ((k', v') :: t) k = (k', v') :: tdel t k := by simp [tdel, h]
      simp [this, tget, h, ih]

theorem tget_tdel_ne (d : α) (t : List (κ × α)) {k k' : κ} (h : k ≠ k') : tget d (tdel t k) k' = tget d t k' := by
  induction t with
  | nil => rfl
  | cons e t ih =>
    obtain ⟨a, v⟩ := e
    by_cases ha : a = k
    · have : tdel ((a, v) :: t) k = tdel t k := by simp [tdel, ha]
      have hk : a ≠ k' := fun hh => h (ha.symm.trans hh)
      simp [this, tget, hk, ih]
    · have : tdel ((a, v) :: t) k = (a, v) :: tdel t k := by simp [tdel, ha]
      simp [this, tget, ih]

theorem tget_tins_self (lt : κ → κ → Bool) (d : α) (t : List (κ × α)) (k : κ) (v : α) : tget d (tins lt t k v) k = v := by
  induction t with
  | nil => simp [tins, tget]
  | cons e t ih =>
    obtain ⟨a, w⟩ := e
    by_cases ha : a = k
    · simp [tins, tget, ha]
    · by_cases hl : lt k a = true <;> simp [tins, tget, ha, hl, ih]

theorem tget_tins_ne (lt : κ → κ → Bool) (d : α) (t : List (κ × α)) {k k' : κ} (v : α) (h : k ≠ k') :
    tget d (tins lt t k v) k' = tget d t k' := by
  induction t with
  | nil => simp [tins, tget, h]
  | cons e t ih =>
    obtain ⟨a, w⟩ := e
    by_cases ha : a = k
    · have hk : a ≠ k' := fun hh => h (ha.symm.trans hh)
      simp [tins, tget, ha, h]
    · by_cases hl : lt k a = true
      · simp [tins, tget, ha, hl, h]
      · simp [tins, tget, ha, hl, ih]

variable [DecidableEq α]

/-- A key reads as what was written to it. -/
@[simp] theorem tget_tput_self (lt : κ → κ → Bool) (d : α) (t : List (κ × α)) (k : κ) (v : α) : tget d (tput lt d t k v) k = v := by
  unfold tput
  split
  · rename_i h
    rw [tget_tdel_self, h]
  · exact tget_tins_self lt d t k v

/-- Every other key reads as before. -/
theorem tget_tput_ne (lt : κ → κ → Bool) (d d' : α) (t : List (κ × α)) {k k' : κ} (v : α) (h : k ≠ k') :
    tget d' (tput lt d t k v) k' = tget d' t k' := by
  unfold tput
  split
  · exact tget_tdel_ne d' t h
  · exact tget_tins_ne lt d' t v h

theorem twf_tail (lt : κ → κ → Bool) (d : κ → α) {e : κ × α} {t : List (κ × α)} (h : twf lt d (e :: t) = true) : twf lt d t = true := by
  cases t with
  | nil => rfl
  | cons e' t =>
    obtain ⟨k, v⟩ := e
    obtain ⟨k', v'⟩ := e'
    simp only [twf, Bool.and_eq_true] at h
    exact h.2

/-- In a canonical table every key of the tail comes after the first. -/
theorem twf_head_lt (lt : κ → κ → Bool) (htr : ∀ a b c, lt a b = true → lt b c = true → lt a c = true) (d : κ → α) {k : κ} {v : α}
    {t : List (κ × α)} (h : twf lt d ((k, v) :: t) = true) : ∀ e ∈ t, lt k e.1 = true := by
  induction t generalizing k v with
  | nil => intro e he; cases he
  | cons e' t ih =>
    obtain ⟨k', v'⟩ := e'
    have h2 := h
    simp only [twf, Bool.and_eq_true] at h2
    intro e he
    rcases List.mem_cons.mp he with rfl | he
    · exact h2.1.2
    · exact htr _ _ _ h2.1.2 (ih h2.2 e he)

theorem twf_cons (lt : κ → κ → Bool) (d : κ → α) {k : κ} {v : α} {t : List (κ × α)} (hv : v ≠ d k) (hl : ∀ e ∈ t, lt k e.1 = true)
    (ht : twf lt d t = true) : twf lt d ((k, v) :: t) = true := by
  cases t with
  | nil => simp [twf, hv]
  | cons e t =>
    obtain ⟨k', v'⟩ := e
    have := hl (k', v') (by simp)
    simp only [twf, Bool.and_eq_true]
    exact ⟨⟨by simpa using hv, this⟩, ht⟩

theorem twf_head_ne (lt : κ → κ → Bool) (d : κ → α) {k : κ} {v : α} {t : List (κ × α)} (h : twf lt d ((k, v) :: t) = true) : v ≠ d k := by
  cases t with
  | nil => simpa [twf] using h
  | cons e t =>
    obtain ⟨k', v'⟩ := e
    simp only [twf, Bool.and_eq_true] at h
    simpa using h.1.1

theorem twf_tdel (lt : κ → κ → Bool) (htr : ∀ a b c, lt a b = true → lt b c = true → lt a c = true) (d : κ → α) (t : List (κ × α)) (k : κ)
    (h : twf lt d t = true) : twf lt d (tdel t k) = true := by
  induction t with
  | nil => rfl
  | cons e t ih =>
    obtain ⟨a, v⟩ := e
    have ht := ih (twf_tail lt d h)
    by_cases ha : a = k
    · have : tdel ((a, v) :: t) k = tdel t k := by simp [tdel, ha]
      rw [this]; exact ht
    · have : tdel ((a, v) :: t) k = (a, v) :: tdel t k := by simp [tdel, ha]
      rw [this]
      exact twf_cons lt d (twf_head_ne lt d h) (fun e he => twf_head_lt lt htr d h e (List.mem_of_mem_filter he)) ht

omit [DecidableEq α] in
theorem mem_tins (lt : κ → κ → Bool) {t : List (κ × α)} {k : κ} {v : α} {e : κ × α} (h : e ∈ tins lt t k v) : e.1 = k ∨ e ∈ t := by
  induction t with
  | nil => simp [tins] at h; exact .inl (by rw [h])
  | cons a t ih =>
    obtain ⟨a, w⟩ := a
    by_cases ha : a = k
    · simp [tins, ha] at h
      rcases h with h | h
      · exact .inl (by rw [h])
      · exact .inr (by simp [h])
    · by_cases hl : lt k a = true
      · simp [tins, ha, hl] at h
        rcases h with h | h | h
        · exact .inl (by rw [h])
        · exact .inr (by simp [h])
        · exact .inr (by simp [h])
      · simp [tins, ha, hl] at h
        rcases h with h | h
        · exact .inr (by simp [h])
        · rcases ih h with h | h
          · exact .inl h
          · exact .inr (by simp [h])

theorem twf_tins (lt : κ → κ → Bool) (htr : ∀ a b c, lt a b = true → lt b c = true → lt a c = true)
    (htot : ∀ a b, a ≠ b → lt a b = false → lt b a = true) (d : κ → α) (t : List (κ × α)) (k : κ) {v : α} (hv : v ≠ d k)
    (h : twf lt d t = true) : twf lt d (tins lt t k v) = true := by
  induction t with
  | nil => simp [tins, twf, hv]
  | cons e t ih =>
    obtain ⟨a, w⟩ := e
    by_cases ha : a = k
    · subst ha
      simp only [tins, if_true]
      exact twf_cons lt d hv (twf_head_lt lt htr d h) (twf_tail lt d h)
    · by_cases hl : lt k a = true
      · simp only [tins, ha, hl, if_false, if_true]
        refine twf_cons lt d hv (fun e he => ?_) h
        rcases List.mem_cons.mp he with rfl | he
        · exact hl
        · exact htr _ _ _ hl (twf_head_lt lt htr d h e he)
      · simp only [tins, ha, hl, if_false]
        refine twf_cons lt d (twf_head_ne lt d h) (fun e he => ?_) (ih (twf_tail lt d h))
        rcases mem_tins lt he with he | he
        · rw [he]; exact htot _ _ (fun hh => ha hh.symm) (by simpa using hl)
        · exact twf_head_lt lt htr d h e he

/-- A write keeps the canonical form. -/
theorem twf_tput (lt : κ → κ → Bool) (htr : ∀ a b c, lt a b = true → lt b c = true → lt a c = true)
    (htot : ∀ a b, a ≠ b → lt a b = false → lt b a = true) (d : κ → α) (t : List (κ × α)) (k : κ) (v : α)
    (h : twf lt d t = true) : twf lt d (tput lt (d k) t k v) = true := by
  unfold tput
  split
  · exact twf_tdel lt htr d t k h
  · rename_i hv
    exact twf_tins lt htr htot d t k hv h

end

theorem natLt_trans (a b c : Nat) (h : natLt a b = true) (h' : natLt b c = true) : natLt a c = true := by
  simp [natLt] at *; omega

theorem natLt_total (a b : Nat) (h : a ≠ b) (h' : natLt a b = false) : natLt b a = true := by
  simp [natLt] at *; omega

section
variable {α : Type} [DecidableEq α]

@[simp] theorem Tab.get_set_self (d : α) (t : Tab α) (k : Nat) (v : α) : (t.set d k v).get d k = v := tget_tput_self natLt d t k v

theorem Tab.get_set_ne (d : α) (t : Tab α) {k k' : Nat} (v : α) (h : k ≠ k') : (t.set d k v).get d k' = t.get d k' :=
  tget_tput_ne natLt d d t v h

/-- A table keyed by numbers after a write. -/
theorem Tab.get_set (d : α) (t : Tab α) (k k' : Nat) (v : α) : (t.set d k v).get d k' = if k = k' then v else t.get d k' := by
  split
  · rename_i h; subst h; exact Tab.get_set_self d t k v
  · rename_i h; exact Tab.get_set_ne d t v h


theorem Tab.set_wf (d : α) (t : Tab α) (k : Nat) (v : α) (h : twf natLt (fun _ => d) t = true) :
    twf natLt (fun _ => d) (t.set d k v) = true :=
  twf_tput natLt natLt_trans natLt_total (fun _ => d) t k v h

end

end Sys2Proof.Machine
end

