-- ==== Sys2Proof/Laws/State.lean ====
section
/-! SUPPORT. What each small update of the chip leaves as it was, field by field, and what registers read as after a write. -/

namespace Sys2Proof.Machine

section
variable (s : Chip)


@[simp] theorem Chip.wr_sram (n : RName) (i j : Nat) (v : W) : (s.wr n i j v).sram = s.sram := rfl
@[simp] theorem Chip.wr_time (n : RName) (i j : Nat) (v : W) : (s.wr n i j v).time = s.time := rfl
@[simp] theorem Chip.wr_cnt (n : RName) (i j : Nat) (v : W) : (s.wr n i j v).cnt = s.cnt := rfl
@[simp] theorem Chip.wr_hist (n : RName) (i j : Nat) (v : W) : (s.wr n i j v).hist = s.hist := rfl
@[simp] theorem Chip.wr_ports (n : RName) (i j : Nat) (v : W) : (s.wr n i j v).ports = s.ports := rfl
@[simp] theorem Chip.wr_lanes (n : RName) (i j : Nat) (v : W) : (s.wr n i j v).lanes = s.lanes := rfl
@[simp] theorem Chip.wr_start (n : RName) (i j : Nat) (v : W) : (s.wr n i j v).start = s.start := rfl
@[simp] theorem Chip.wr_waveZero (n : RName) (i j : Nat) (v : W) : (s.wr n i j v).waveZero = s.waveZero := rfl
@[simp] theorem Chip.wr_waves (n : RName) (i j : Nat) (v : W) : (s.wr n i j v).waves = s.waves := rfl
@[simp] theorem Chip.wr_taken (n : RName) (i j : Nat) (v : W) : (s.wr n i j v).taken = s.taken := rfl
@[simp] theorem Chip.wr_noc (n : RName) (i j : Nat) (v : W) : (s.wr n i j v).noc = s.noc := rfl
@[simp] theorem Chip.wr_msgs (n : RName) (i j : Nat) (v : W) : (s.wr n i j v).msgs = s.msgs := rfl
@[simp] theorem Chip.wr_opens (n : RName) (i j : Nat) (v : W) : (s.wr n i j v).opens = s.opens := rfl
@[simp] theorem Chip.wr_ended (n : RName) (i j : Nat) (v : W) : (s.wr n i j v).ended = s.ended := rfl
@[simp] theorem Chip.wr_cuts (n : RName) (i j : Nat) (v : W) : (s.wr n i j v).cuts = s.cuts := rfl
@[simp] theorem Chip.wr_vppbs (n : RName) (i j : Nat) (v : W) : (s.wr n i j v).vppbs = s.vppbs := rfl
@[simp] theorem Chip.wr_vcs (n : RName) (i j : Nat) (v : W) : (s.wr n i j v).vcs = s.vcs := rfl
@[simp] theorem Chip.wr_pbr (n : RName) (i j : Nat) (v : W) : (s.wr n i j v).pbr = s.pbr := rfl
@[simp] theorem Chip.wr_wins (n : RName) (i j : Nat) (v : W) : (s.wr n i j v).wins = s.wins := rfl
@[simp] theorem Chip.wr_epochs (n : RName) (i j : Nat) (v : W) : (s.wr n i j v).epochs = s.epochs := rfl
@[simp] theorem Chip.wr_stalls (n : RName) (i j : Nat) (v : W) : (s.wr n i j v).stalls = s.stalls := rfl
@[simp] theorem Chip.wr_engOwn (n : RName) (i j : Nat) (v : W) : (s.wr n i j v).engOwn = s.engOwn := rfl
@[simp] theorem Chip.wr_engCmd (n : RName) (i j : Nat) (v : W) : (s.wr n i j v).engCmd = s.engCmd := rfl
@[simp] theorem Chip.wr_qOpen (n : RName) (i j : Nat) (v : W) : (s.wr n i j v).qOpen = s.qOpen := rfl
@[simp] theorem Chip.wr_qPressed (n : RName) (i j : Nat) (v : W) : (s.wr n i j v).qPressed = s.qPressed := rfl
@[simp] theorem Chip.wr_markers (n : RName) (i j : Nat) (v : W) : (s.wr n i j v).markers = s.markers := rfl
@[simp] theorem Chip.wr_stats (n : RName) (i j : Nat) (v : W) : (s.wr n i j v).stats = s.stats := rfl
@[simp] theorem Chip.wr_inners (n : RName) (i j : Nat) (v : W) : (s.wr n i j v).inners = s.inners := rfl
@[simp] theorem Chip.wr_snf (n : RName) (i j : Nat) (v : W) : (s.wr n i j v).snf = s.snf := rfl
@[simp] theorem Chip.wr_plru (n : RName) (i j : Nat) (v : W) : (s.wr n i j v).plru = s.plru := rfl
@[simp] theorem Chip.wr_txns (n : RName) (i j : Nat) (v : W) : (s.wr n i j v).txns = s.txns := rfl
@[simp] theorem Chip.wr_copies (n : RName) (i j : Nat) (v : W) : (s.wr n i j v).copies = s.copies := rfl
@[simp] theorem Chip.wr_snooped (n : RName) (i j : Nat) (v : W) : (s.wr n i j v).snooped = s.snooped := rfl
@[simp] theorem Chip.wr_gjobs (n : RName) (i j : Nat) (v : W) : (s.wr n i j v).gjobs = s.gjobs := rfl
@[simp] theorem Chip.wr_gholds (n : RName) (i j : Nat) (v : W) : (s.wr n i j v).gholds = s.gholds := rfl
@[simp] theorem Chip.wr_movAt (n : RName) (i j : Nat) (v : W) : (s.wr n i j v).movAt = s.movAt := rfl
@[simp] theorem Chip.wr_movLast (n : RName) (i j : Nat) (v : W) : (s.wr n i j v).movLast = s.movLast := rfl
@[simp] theorem Chip.wr_ert (n : RName) (i j : Nat) (v : W) : (s.wr n i j v).ert = s.ert := rfl
@[simp] theorem Chip.wr_mirrors (n : RName) (i j : Nat) (v : W) : (s.wr n i j v).mirrors = s.mirrors := rfl
@[simp] theorem Chip.wr_removals (n : RName) (i j : Nat) (v : W) : (s.wr n i j v).removals = s.removals := rfl
@[simp] theorem Chip.wr_imgBinds (n : RName) (i j : Nat) (v : W) : (s.wr n i j v).imgBinds = s.imgBinds := rfl
@[simp] theorem Chip.wr_imgInsts (n : RName) (i j : Nat) (v : W) : (s.wr n i j v).imgInsts = s.imgInsts := rfl
@[simp] theorem Chip.wr_settles (n : RName) (i j : Nat) (v : W) : (s.wr n i j v).settles = s.settles := rfl
@[simp] theorem Chip.wr_unpassed (n : RName) (i j : Nat) (v : W) : (s.wr n i j v).unpassed = s.unpassed := rfl
@[simp] theorem Chip.wr_slots (n : RName) (i j : Nat) (v : W) : (s.wr n i j v).slots = s.slots := rfl
@[simp] theorem Chip.wr_vinSnsBad (n : RName) (i j : Nat) (v : W) : (s.wr n i j v).vinSnsBad = s.vinSnsBad := rfl
@[simp] theorem Chip.wr_slotHold (n : RName) (i j : Nat) (v : W) : (s.wr n i j v).slotHold = s.slotHold := rfl
@[simp] theorem Chip.wr_fatal (n : RName) (i j : Nat) (v : W) : (s.wr n i j v).fatal = s.fatal := rfl
@[simp] theorem Chip.wr_failTest (n : RName) (i j : Nat) (v : W) : (s.wr n i j v).failTest = s.failTest := rfl
@[simp] theorem Chip.wr_beatLost (n : RName) (i j : Nat) (v : W) : (s.wr n i j v).beatLost = s.beatLost := rfl
@[simp] theorem Chip.wr_dieLost (n : RName) (i j : Nat) (v : W) : (s.wr n i j v).dieLost = s.dieLost := rfl
@[simp] theorem Chip.wr_started (n : RName) (i j : Nat) (v : W) : (s.wr n i j v).started = s.started := rfl
@[simp] theorem Chip.wr_merge (n : RName) (i j : Nat) (v : W) : (s.wr n i j v).merge = s.merge := rfl
@[simp] theorem Chip.wr_dmaRam (n : RName) (i j : Nat) (v : W) : (s.wr n i j v).dmaRam = s.dmaRam := rfl
@[simp] theorem Chip.wr_scrubs (n : RName) (i j : Nat) (v : W) : (s.wr n i j v).scrubs = s.scrubs := rfl
@[simp] theorem Chip.wr_badWords (n : RName) (i j : Nat) (v : W) : (s.wr n i j v).badWords = s.badWords := rfl
@[simp] theorem Chip.wr_fuses (n : RName) (i j : Nat) (v : W) : (s.wr n i j v).fuses = s.fuses := rfl
@[simp] theorem Chip.wr_flash (n : RName) (i j : Nat) (v : W) : (s.wr n i j v).flash = s.flash := rfl
@[simp] theorem Chip.wr_mgmt (n : RName) (i j : Nat) (v : W) : (s.wr n i j v).mgmt = s.mgmt := rfl
@[simp] theorem Chip.wr_edges (n : RName) (i j : Nat) (v : W) : (s.wr n i j v).edges = s.edges := rfl
@[simp] theorem Chip.wr_samp (n : RName) (i j : Nat) (v : W) : (s.wr n i j v).samp = s.samp := rfl
@[simp] theorem Chip.wr_sampIrq (n : RName) (i j : Nat) (v : W) : (s.wr n i j v).sampIrq = s.sampIrq := rfl
@[simp] theorem Chip.wr_latches (n : RName) (i j : Nat) (v : W) : (s.wr n i j v).latches = s.latches := rfl
@[simp] theorem Chip.wr_pw (n : RName) (i j : Nat) (v : W) : (s.wr n i j v).pw = s.pw := rfl
@[simp] theorem Chip.wr_test (n : RName) (i j : Nat) (v : W) : (s.wr n i j v).test = s.test := rfl
@[simp] theorem Chip.wr_lcJob (n : RName) (i j : Nat) (v : W) : (s.wr n i j v).lcJob = s.lcJob := rfl
@[simp] theorem Chip.wr_challenge (n : RName) (i j : Nat) (v : W) : (s.wr n i j v).challenge = s.challenge := rfl
@[simp] theorem Chip.wr_jtag (n : RName) (i j : Nat) (v : W) : (s.wr n i j v).jtag = s.jtag := rfl
@[simp] theorem Chip.wr_scanLinks (n : RName) (i j : Nat) (v : W) : (s.wr n i j v).scanLinks = s.scanLinks := rfl
@[simp] theorem Chip.wr_boot (n : RName) (i j : Nat) (v : W) : (s.wr n i j v).boot = s.boot := rfl
@[simp] theorem Chip.wr_resetAt (n : RName) (i j : Nat) (v : W) : (s.wr n i j v).resetAt = s.resetAt := rfl
@[simp] theorem Chip.wr_eth (n : RName) (i j : Nat) (v : W) : (s.wr n i j v).eth = s.eth := rfl
@[simp] theorem Chip.wr_relay (n : RName) (i j : Nat) (v : W) : (s.wr n i j v).relay = s.relay := rfl
@[simp] theorem Chip.wr_mail (n : RName) (i j : Nat) (v : W) : (s.wr n i j v).mail = s.mail := rfl
@[simp] theorem Chip.wr_outbox (n : RName) (i j : Nat) (v : W) : (s.wr n i j v).outbox = s.outbox := rfl
@[simp] theorem Chip.wr_nextId (n : RName) (i j : Nat) (v : W) : (s.wr n i j v).nextId = s.nextId := rfl
@[simp] theorem Chip.wr_freeCtr (n : RName) (i j : Nat) (v : W) : (s.wr n i j v).freeCtr = s.freeCtr := rfl

@[simp] theorem Chip.set_sram (f : Fld) (v i j : Nat) : (s.set f v i j).sram = s.sram := rfl
@[simp] theorem Chip.set_time (f : Fld) (v i j : Nat) : (s.set f v i j).time = s.time := rfl
@[simp] theorem Chip.set_cnt (f : Fld) (v i j : Nat) : (s.set f v i j).cnt = s.cnt := rfl
@[simp] theorem Chip.set_hist (f : Fld) (v i j : Nat) : (s.set f v i j).hist = s.hist := rfl
@[simp] theorem Chip.set_ports (f : Fld) (v i j : Nat) : (s.set f v i j).ports = s.ports := rfl
@[simp] theorem Chip.set_lanes (f : Fld) (v i j : Nat) : (s.set f v i j).lanes = s.lanes := rfl
@[simp] theorem Chip.set_start (f : Fld) (v i j : Nat) : (s.set f v i j).start = s.start := rfl
@[simp] theorem Chip.set_waveZero (f : Fld) (v i j : Nat) : (s.set f v i j).waveZero = s.waveZero := rfl
@[simp] theorem Chip.set_waves (f : Fld) (v i j : Nat) : (s.set f v i j).waves = s.waves := rfl
@[simp] theorem Chip.set_taken (f : Fld) (v i j : Nat) : (s.set f v i j).taken = s.taken := rfl
@[simp] theorem Chip.set_noc (f : Fld) (v i j : Nat) : (s.set f v i j).noc = s.noc := rfl
@[simp] theorem Chip.set_msgs (f : Fld) (v i j : Nat) : (s.set f v i j).msgs = s.msgs := rfl
@[simp] theorem Chip.set_opens (f : Fld) (v i j : Nat) : (s.set f v i j).opens = s.opens := rfl
@[simp] theorem Chip.set_ended (f : Fld) (v i j : Nat) : (s.set f v i j).ended = s.ended := rfl
@[simp] theorem Chip.set_cuts (f : Fld) (v i j : Nat) : (s.set f v i j).cuts = s.cuts := rfl
@[simp] theorem Chip.set_vppbs (f : Fld) (v i j : Nat) : (s.set f v i j).vppbs = s.vppbs := rfl
@[simp] theorem Chip.set_vcs (f : Fld) (v i j : Nat) : (s.set f v i j).vcs = s.vcs := rfl
@[simp] theorem Chip.set_pbr (f : Fld) (v i j : Nat) : (s.set f v i j).pbr = s.pbr := rfl
@[simp] theorem Chip.set_wins (f : Fld) (v i j : Nat) : (s.set f v i j).wins = s.wins := rfl
@[simp] theorem Chip.set_epochs (f : Fld) (v i j : Nat) : (s.set f v i j).epochs = s.epochs := rfl
@[simp] theorem Chip.set_stalls (f : Fld) (v i j : Nat) : (s.set f v i j).stalls = s.stalls := rfl
@[simp] theorem Chip.set_engOwn (f : Fld) (v i j : Nat) : (s.set f v i j).engOwn = s.engOwn := rfl
@[simp] theorem Chip.set_engCmd (f : Fld) (v i j : Nat) : (s.set f v i j).engCmd = s.engCmd := rfl
@[simp] theorem Chip.set_qOpen (f : Fld) (v i j : Nat) : (s.set f v i j).qOpen = s.qOpen := rfl
@[simp] theorem Chip.set_qPressed (f : Fld) (v i j : Nat) : (s.set f v i j).qPressed = s.qPressed := rfl
@[simp] theorem Chip.set_markers (f : Fld) (v i j : Nat) : (s.set f v i j).markers = s.markers := rfl
@[simp] theorem Chip.set_stats (f : Fld) (v i j : Nat) : (s.set f v i j).stats = s.stats := rfl
@[simp] theorem Chip.set_inners (f : Fld) (v i j : Nat) : (s.set f v i j).inners = s.inners := rfl
@[simp] theorem Chip.set_snf (f : Fld) (v i j : Nat) : (s.set f v i j).snf = s.snf := rfl
@[simp] theorem Chip.set_plru (f : Fld) (v i j : Nat) : (s.set f v i j).plru = s.plru := rfl
@[simp] theorem Chip.set_txns (f : Fld) (v i j : Nat) : (s.set f v i j).txns = s.txns := rfl
@[simp] theorem Chip.set_copies (f : Fld) (v i j : Nat) : (s.set f v i j).copies = s.copies := rfl
@[simp] theorem Chip.set_snooped (f : Fld) (v i j : Nat) : (s.set f v i j).snooped = s.snooped := rfl
@[simp] theorem Chip.set_gjobs (f : Fld) (v i j : Nat) : (s.set f v i j).gjobs = s.gjobs := rfl
@[simp] theorem Chip.set_gholds (f : Fld) (v i j : Nat) : (s.set f v i j).gholds = s.gholds := rfl
@[simp] theorem Chip.set_movAt (f : Fld) (v i j : Nat) : (s.set f v i j).movAt = s.movAt := rfl
@[simp] theorem Chip.set_movLast (f : Fld) (v i j : Nat) : (s.set f v i j).movLast = s.movLast := rfl
@[simp] theorem Chip.set_ert (f : Fld) (v i j : Nat) : (s.set f v i j).ert = s.ert := rfl
@[simp] theorem Chip.set_mirrors (f : Fld) (v i j : Nat) : (s.set f v i j).mirrors = s.mirrors := rfl
@[simp] theorem Chip.set_removals (f : Fld) (v i j : Nat) : (s.set f v i j).removals = s.removals := rfl
@[simp] theorem Chip.set_imgBinds (f : Fld) (v i j : Nat) : (s.set f v i j).imgBinds = s.imgBinds := rfl
@[simp] theorem Chip.set_imgInsts (f : Fld) (v i j : Nat) : (s.set f v i j).imgInsts = s.imgInsts := rfl
@[simp] theorem Chip.set_settles (f : Fld) (v i j : Nat) : (s.set f v i j).settles = s.settles := rfl
@[simp] theorem Chip.set_unpassed (f : Fld) (v i j : Nat) : (s.set f v i j).unpassed = s.unpassed := rfl
@[simp] theorem Chip.set_slots (f : Fld) (v i j : Nat) : (s.set f v i j).slots = s.slots := rfl
@[simp] theorem Chip.set_vinSnsBad (f : Fld) (v i j : Nat) : (s.set f v i j).vinSnsBad = s.vinSnsBad := rfl
@[simp] theorem Chip.set_slotHold (f : Fld) (v i j : Nat) : (s.set f v i j).slotHold = s.slotHold := rfl
@[simp] theorem Chip.set_fatal (f : Fld) (v i j : Nat) : (s.set f v i j).fatal = s.fatal := rfl
@[simp] theorem Chip.set_failTest (f : Fld) (v i j : Nat) : (s.set f v i j).failTest = s.failTest := rfl
@[simp] theorem Chip.set_beatLost (f : Fld) (v i j : Nat) : (s.set f v i j).beatLost = s.beatLost := rfl
@[simp] theorem Chip.set_dieLost (f : Fld) (v i j : Nat) : (s.set f v i j).dieLost = s.dieLost := rfl
@[simp] theorem Chip.set_started (f : Fld) (v i j : Nat) : (s.set f v i j).started = s.started := rfl
@[simp] theorem Chip.set_merge (f : Fld) (v i j : Nat) : (s.set f v i j).merge = s.merge := rfl
@[simp] theorem Chip.set_dmaRam (f : Fld) (v i j : Nat) : (s.set f v i j).dmaRam = s.dmaRam := rfl
@[simp] theorem Chip.set_scrubs (f : Fld) (v i j : Nat) : (s.set f v i j).scrubs = s.scrubs := rfl
@[simp] theorem Chip.set_badWords (f : Fld) (v i j : Nat) : (s.set f v i j).badWords = s.badWords := rfl
@[simp] theorem Chip.set_fuses (f : Fld) (v i j : Nat) : (s.set f v i j).fuses = s.fuses := rfl
@[simp] theorem Chip.set_flash (f : Fld) (v i j : Nat) : (s.set f v i j).flash = s.flash := rfl
@[simp] theorem Chip.set_mgmt (f : Fld) (v i j : Nat) : (s.set f v i j).mgmt = s.mgmt := rfl
@[simp] theorem Chip.set_edges (f : Fld) (v i j : Nat) : (s.set f v i j).edges = s.edges := rfl
@[simp] theorem Chip.set_samp (f : Fld) (v i j : Nat) : (s.set f v i j).samp = s.samp := rfl
@[simp] theorem Chip.set_sampIrq (f : Fld) (v i j : Nat) : (s.set f v i j).sampIrq = s.sampIrq := rfl
@[simp] theorem Chip.set_latches (f : Fld) (v i j : Nat) : (s.set f v i j).latches = s.latches := rfl
@[simp] theorem Chip.set_pw (f : Fld) (v i j : Nat) : (s.set f v i j).pw = s.pw := rfl
@[simp] theorem Chip.set_test (f : Fld) (v i j : Nat) : (s.set f v i j).test = s.test := rfl
@[simp] theorem Chip.set_lcJob (f : Fld) (v i j : Nat) : (s.set f v i j).lcJob = s.lcJob := rfl
@[simp] theorem Chip.set_challenge (f : Fld) (v i j : Nat) : (s.set f v i j).challenge = s.challenge := rfl
@[simp] theorem Chip.set_jtag (f : Fld) (v i j : Nat) : (s.set f v i j).jtag = s.jtag := rfl
@[simp] theorem Chip.set_scanLinks (f : Fld) (v i j : Nat) : (s.set f v i j).scanLinks = s.scanLinks := rfl
@[simp] theorem Chip.set_boot (f : Fld) (v i j : Nat) : (s.set f v i j).boot = s.boot := rfl
@[simp] theorem Chip.set_resetAt (f : Fld) (v i j : Nat) : (s.set f v i j).resetAt = s.resetAt := rfl
@[simp] theorem Chip.set_eth (f : Fld) (v i j : Nat) : (s.set f v i j).eth = s.eth := rfl
@[simp] theorem Chip.set_relay (f : Fld) (v i j : Nat) : (s.set f v i j).relay = s.relay := rfl
@[simp] theorem Chip.set_mail (f : Fld) (v i j : Nat) : (s.set f v i j).mail = s.mail := rfl
@[simp] theorem Chip.set_outbox (f : Fld) (v i j : Nat) : (s.set f v i j).outbox = s.outbox := rfl
@[simp] theorem Chip.set_nextId (f : Fld) (v i j : Nat) : (s.set f v i j).nextId = s.nextId := rfl
@[simp] theorem Chip.set_freeCtr (f : Fld) (v i j : Nat) : (s.set f v i j).freeCtr = s.freeCtr := rfl

@[simp] theorem Chip.bump_sram (f : Fld) (n i j : Nat) : (s.bump f n i j).sram = s.sram := rfl
@[simp] theorem Chip.bump_time (f : Fld) (n i j : Nat) : (s.bump f n i j).time = s.time := rfl
@[simp] theorem Chip.bump_cnt (f : Fld) (n i j : Nat) : (s.bump f n i j).cnt = s.cnt := rfl
@[simp] theorem Chip.bump_hist (f : Fld) (n i j : Nat) : (s.bump f n i j).hist = s.hist := rfl
@[simp] theorem Chip.bump_ports (f : Fld) (n i j : Nat) : (s.bump f n i j).ports = s.ports := rfl
@[simp] theorem Chip.bump_lanes (f : Fld) (n i j : Nat) : (s.bump f n i j).lanes = s.lanes := rfl
@[simp] theorem Chip.bump_start (f : Fld) (n i j : Nat) : (s.bump f n i j).start = s.start := rfl
@[simp] theorem Chip.bump_waveZero (f : Fld) (n i j : Nat) : (s.bump f n i j).waveZero = s.waveZero := rfl
@[simp] theorem Chip.bump_waves (f : Fld) (n i j : Nat) : (s.bump f n i j).waves = s.waves := rfl
@[simp] theorem Chip.bump_taken (f : Fld) (n i j : Nat) : (s.bump f n i j).taken = s.taken := rfl
@[simp] theorem Chip.bump_noc (f : Fld) (n i j : Nat) : (s.bump f n i j).noc = s.noc := rfl
@[simp] theorem Chip.bump_msgs (f : Fld) (n i j : Nat) : (s.bump f n i j).msgs = s.msgs := rfl
@[simp] theorem Chip.bump_opens (f : Fld) (n i j : Nat) : (s.bump f n i j).opens = s.opens := rfl
@[simp] theorem Chip.bump_ended (f : Fld) (n i j : Nat) : (s.bump f n i j).ended = s.ended := rfl
@[simp] theorem Chip.bump_cuts (f : Fld) (n i j : Nat) : (s.bump f n i j).cuts = s.cuts := rfl
@[simp] theorem Chip.bump_vppbs (f : Fld) (n i j : Nat) : (s.bump f n i j).vppbs = s.vppbs := rfl
@[simp] theorem Chip.bump_vcs (f : Fld) (n i j : Nat) : (s.bump f n i j).vcs = s.vcs := rfl
@[simp] theorem Chip.bump_pbr (f : Fld) (n i j : Nat) : (s.bump f n i j).pbr = s.pbr := rfl
@[simp] theorem Chip.bump_wins (f : Fld) (n i j : Nat) : (s.bump f n i j).wins = s.wins := rfl
@[simp] theorem Chip.bump_epochs (f : Fld) (n i j : Nat) : (s.bump f n i j).epochs = s.epochs := rfl
@[simp] theorem Chip.bump_stalls (f : Fld) (n i j : Nat) : (s.bump f n i j).stalls = s.stalls := rfl
@[simp] theorem Chip.bump_engOwn (f : Fld) (n i j : Nat) : (s.bump f n i j).engOwn = s.engOwn := rfl
@[simp] theorem Chip.bump_engCmd (f : Fld) (n i j : Nat) : (s.bump f n i j).engCmd = s.engCmd := rfl
@[simp] theorem Chip.bump_qOpen (f : Fld) (n i j : Nat) : (s.bump f n i j).qOpen = s.qOpen := rfl
@[simp] theorem Chip.bump_qPressed (f : Fld) (n i j : Nat) : (s.bump f n i j).qPressed = s.qPressed := rfl
@[simp] theorem Chip.bump_markers (f : Fld) (n i j : Nat) : (s.bump f n i j).markers = s.markers := rfl
@[simp] theorem Chip.bump_stats (f : Fld) (n i j : Nat) : (s.bump f n i j).stats = s.stats := rfl
@[simp] theorem Chip.bump_inners (f : Fld) (n i j : Nat) : (s.bump f n i j).inners = s.inners := rfl
@[simp] theorem Chip.bump_snf (f : Fld) (n i j : Nat) : (s.bump f n i j).snf = s.snf := rfl
@[simp] theorem Chip.bump_plru (f : Fld) (n i j : Nat) : (s.bump f n i j).plru = s.plru := rfl
@[simp] theorem Chip.bump_txns (f : Fld) (n i j : Nat) : (s.bump f n i j).txns = s.txns := rfl
@[simp] theorem Chip.bump_copies (f : Fld) (n i j : Nat) : (s.bump f n i j).copies = s.copies := rfl
@[simp] theorem Chip.bump_snooped (f : Fld) (n i j : Nat) : (s.bump f n i j).snooped = s.snooped := rfl
@[simp] theorem Chip.bump_gjobs (f : Fld) (n i j : Nat) : (s.bump f n i j).gjobs = s.gjobs := rfl
@[simp] theorem Chip.bump_gholds (f : Fld) (n i j : Nat) : (s.bump f n i j).gholds = s.gholds := rfl
@[simp] theorem Chip.bump_movAt (f : Fld) (n i j : Nat) : (s.bump f n i j).movAt = s.movAt := rfl
@[simp] theorem Chip.bump_movLast (f : Fld) (n i j : Nat) : (s.bump f n i j).movLast = s.movLast := rfl
@[simp] theorem Chip.bump_ert (f : Fld) (n i j : Nat) : (s.bump f n i j).ert = s.ert := rfl
@[simp] theorem Chip.bump_mirrors (f : Fld) (n i j : Nat) : (s.bump f n i j).mirrors = s.mirrors := rfl
@[simp] theorem Chip.bump_removals (f : Fld) (n i j : Nat) : (s.bump f n i j).removals = s.removals := rfl
@[simp] theorem Chip.bump_imgBinds (f : Fld) (n i j : Nat) : (s.bump f n i j).imgBinds = s.imgBinds := rfl
@[simp] theorem Chip.bump_imgInsts (f : Fld) (n i j : Nat) : (s.bump f n i j).imgInsts = s.imgInsts := rfl
@[simp] theorem Chip.bump_settles (f : Fld) (n i j : Nat) : (s.bump f n i j).settles = s.settles := rfl
@[simp] theorem Chip.bump_unpassed (f : Fld) (n i j : Nat) : (s.bump f n i j).unpassed = s.unpassed := rfl
@[simp] theorem Chip.bump_slots (f : Fld) (n i j : Nat) : (s.bump f n i j).slots = s.slots := rfl
@[simp] theorem Chip.bump_vinSnsBad (f : Fld) (n i j : Nat) : (s.bump f n i j).vinSnsBad = s.vinSnsBad := rfl
@[simp] theorem Chip.bump_slotHold (f : Fld) (n i j : Nat) : (s.bump f n i j).slotHold = s.slotHold := rfl
@[simp] theorem Chip.bump_fatal (f : Fld) (n i j : Nat) : (s.bump f n i j).fatal = s.fatal := rfl
@[simp] theorem Chip.bump_failTest (f : Fld) (n i j : Nat) : (s.bump f n i j).failTest = s.failTest := rfl
@[simp] theorem Chip.bump_beatLost (f : Fld) (n i j : Nat) : (s.bump f n i j).beatLost = s.beatLost := rfl
@[simp] theorem Chip.bump_dieLost (f : Fld) (n i j : Nat) : (s.bump f n i j).dieLost = s.dieLost := rfl
@[simp] theorem Chip.bump_started (f : Fld) (n i j : Nat) : (s.bump f n i j).started = s.started := rfl
@[simp] theorem Chip.bump_merge (f : Fld) (n i j : Nat) : (s.bump f n i j).merge = s.merge := rfl
@[simp] theorem Chip.bump_dmaRam (f : Fld) (n i j : Nat) : (s.bump f n i j).dmaRam = s.dmaRam := rfl
@[simp] theorem Chip.bump_scrubs (f : Fld) (n i j : Nat) : (s.bump f n i j).scrubs = s.scrubs := rfl
@[simp] theorem Chip.bump_badWords (f : Fld) (n i j : Nat) : (s.bump f n i j).badWords = s.badWords := rfl
@[simp] theorem Chip.bump_fuses (f : Fld) (n i j : Nat) : (s.bump f n i j).fuses = s.fuses := rfl
@[simp] theorem Chip.bump_flash (f : Fld) (n i j : Nat) : (s.bump f n i j).flash = s.flash := rfl
@[simp] theorem Chip.bump_mgmt (f : Fld) (n i j : Nat) : (s.bump f n i j).mgmt = s.mgmt := rfl
@[simp] theorem Chip.bump_edges (f : Fld) (n i j : Nat) : (s.bump f n i j).edges = s.edges := rfl
@[simp] theorem Chip.bump_samp (f : Fld) (n i j : Nat) : (s.bump f n i j).samp = s.samp := rfl
@[simp] theorem Chip.bump_sampIrq (f : Fld) (n i j : Nat) : (s.bump f n i j).sampIrq = s.sampIrq := rfl
@[simp] theorem Chip.bump_latches (f : Fld) (n i j : Nat) : (s.bump f n i j).latches = s.latches := rfl
@[simp] theorem Chip.bump_pw (f : Fld) (n i j : Nat) : (s.bump f n i j).pw = s.pw := rfl
@[simp] theorem Chip.bump_test (f : Fld) (n i j : Nat) : (s.bump f n i j).test = s.test := rfl
@[simp] theorem Chip.bump_lcJob (f : Fld) (n i j : Nat) : (s.bump f n i j).lcJob = s.lcJob := rfl
@[simp] theorem Chip.bump_challenge (f : Fld) (n i j : Nat) : (s.bump f n i j).challenge = s.challenge := rfl
@[simp] theorem Chip.bump_jtag (f : Fld) (n i j : Nat) : (s.bump f n i j).jtag = s.jtag := rfl
@[simp] theorem Chip.bump_scanLinks (f : Fld) (n i j : Nat) : (s.bump f n i j).scanLinks = s.scanLinks := rfl
@[simp] theorem Chip.bump_boot (f : Fld) (n i j : Nat) : (s.bump f n i j).boot = s.boot := rfl
@[simp] theorem Chip.bump_resetAt (f : Fld) (n i j : Nat) : (s.bump f n i j).resetAt = s.resetAt := rfl
@[simp] theorem Chip.bump_eth (f : Fld) (n i j : Nat) : (s.bump f n i j).eth = s.eth := rfl
@[simp] theorem Chip.bump_relay (f : Fld) (n i j : Nat) : (s.bump f n i j).relay = s.relay := rfl
@[simp] theorem Chip.bump_mail (f : Fld) (n i j : Nat) : (s.bump f n i j).mail = s.mail := rfl
@[simp] theorem Chip.bump_outbox (f : Fld) (n i j : Nat) : (s.bump f n i j).outbox = s.outbox := rfl
@[simp] theorem Chip.bump_nextId (f : Fld) (n i j : Nat) : (s.bump f n i j).nextId = s.nextId := rfl
@[simp] theorem Chip.bump_freeCtr (f : Fld) (n i j : Nat) : (s.bump f n i j).freeCtr = s.freeCtr := rfl

@[simp] theorem Chip.out_regs (o : Output) : (s.out o).regs = s.regs := rfl
@[simp] theorem Chip.out_sram (o : Output) : (s.out o).sram = s.sram := rfl
@[simp] theorem Chip.out_time (o : Output) : (s.out o).time = s.time := rfl
@[simp] theorem Chip.out_cnt (o : Output) : (s.out o).cnt = s.cnt := rfl
@[simp] theorem Chip.out_hist (o : Output) : (s.out o).hist = s.hist := rfl
@[simp] theorem Chip.out_ports (o : Output) : (s.out o).ports = s.ports := rfl
@[simp] theorem Chip.out_lanes (o : Output) : (s.out o).lanes = s.lanes := rfl
@[simp] theorem Chip.out_start (o : Output) : (s.out o).start = s.start := rfl
@[simp] theorem Chip.out_waveZero (o : Output) : (s.out o).waveZero = s.waveZero := rfl
@[simp] theorem Chip.out_waves (o : Output) : (s.out o).waves = s.waves := rfl
@[simp] theorem Chip.out_taken (o : Output) : (s.out o).taken = s.taken := rfl
@[simp] theorem Chip.out_noc (o : Output) : (s.out o).noc = s.noc := rfl
@[simp] theorem Chip.out_msgs (o : Output) : (s.out o).msgs = s.msgs := rfl
@[simp] theorem Chip.out_opens (o : Output) : (s.out o).opens = s.opens := rfl
@[simp] theorem Chip.out_ended (o : Output) : (s.out o).ended = s.ended := rfl
@[simp] theorem Chip.out_cuts (o : Output) : (s.out o).cuts = s.cuts := rfl
@[simp] theorem Chip.out_vppbs (o : Output) : (s.out o).vppbs = s.vppbs := rfl
@[simp] theorem Chip.out_vcs (o : Output) : (s.out o).vcs = s.vcs := rfl
@[simp] theorem Chip.out_pbr (o : Output) : (s.out o).pbr = s.pbr := rfl
@[simp] theorem Chip.out_wins (o : Output) : (s.out o).wins = s.wins := rfl
@[simp] theorem Chip.out_epochs (o : Output) : (s.out o).epochs = s.epochs := rfl
@[simp] theorem Chip.out_stalls (o : Output) : (s.out o).stalls = s.stalls := rfl
@[simp] theorem Chip.out_engOwn (o : Output) : (s.out o).engOwn = s.engOwn := rfl
@[simp] theorem Chip.out_engCmd (o : Output) : (s.out o).engCmd = s.engCmd := rfl
@[simp] theorem Chip.out_qOpen (o : Output) : (s.out o).qOpen = s.qOpen := rfl
@[simp] theorem Chip.out_qPressed (o : Output) : (s.out o).qPressed = s.qPressed := rfl
@[simp] theorem Chip.out_markers (o : Output) : (s.out o).markers = s.markers := rfl
@[simp] theorem Chip.out_stats (o : Output) : (s.out o).stats = s.stats := rfl
@[simp] theorem Chip.out_inners (o : Output) : (s.out o).inners = s.inners := rfl
@[simp] theorem Chip.out_snf (o : Output) : (s.out o).snf = s.snf := rfl
@[simp] theorem Chip.out_plru (o : Output) : (s.out o).plru = s.plru := rfl
@[simp] theorem Chip.out_txns (o : Output) : (s.out o).txns = s.txns := rfl
@[simp] theorem Chip.out_copies (o : Output) : (s.out o).copies = s.copies := rfl
@[simp] theorem Chip.out_snooped (o : Output) : (s.out o).snooped = s.snooped := rfl
@[simp] theorem Chip.out_gjobs (o : Output) : (s.out o).gjobs = s.gjobs := rfl
@[simp] theorem Chip.out_gholds (o : Output) : (s.out o).gholds = s.gholds := rfl
@[simp] theorem Chip.out_movAt (o : Output) : (s.out o).movAt = s.movAt := rfl
@[simp] theorem Chip.out_movLast (o : Output) : (s.out o).movLast = s.movLast := rfl
@[simp] theorem Chip.out_ert (o : Output) : (s.out o).ert = s.ert := rfl
@[simp] theorem Chip.out_mirrors (o : Output) : (s.out o).mirrors = s.mirrors := rfl
@[simp] theorem Chip.out_removals (o : Output) : (s.out o).removals = s.removals := rfl
@[simp] theorem Chip.out_imgBinds (o : Output) : (s.out o).imgBinds = s.imgBinds := rfl
@[simp] theorem Chip.out_imgInsts (o : Output) : (s.out o).imgInsts = s.imgInsts := rfl
@[simp] theorem Chip.out_settles (o : Output) : (s.out o).settles = s.settles := rfl
@[simp] theorem Chip.out_unpassed (o : Output) : (s.out o).unpassed = s.unpassed := rfl
@[simp] theorem Chip.out_slots (o : Output) : (s.out o).slots = s.slots := rfl
@[simp] theorem Chip.out_vinSnsBad (o : Output) : (s.out o).vinSnsBad = s.vinSnsBad := rfl
@[simp] theorem Chip.out_slotHold (o : Output) : (s.out o).slotHold = s.slotHold := rfl
@[simp] theorem Chip.out_fatal (o : Output) : (s.out o).fatal = s.fatal := rfl
@[simp] theorem Chip.out_failTest (o : Output) : (s.out o).failTest = s.failTest := rfl
@[simp] theorem Chip.out_beatLost (o : Output) : (s.out o).beatLost = s.beatLost := rfl
@[simp] theorem Chip.out_dieLost (o : Output) : (s.out o).dieLost = s.dieLost := rfl
@[simp] theorem Chip.out_started (o : Output) : (s.out o).started = s.started := rfl
@[simp] theorem Chip.out_merge (o : Output) : (s.out o).merge = s.merge := rfl
@[simp] theorem Chip.out_dmaRam (o : Output) : (s.out o).dmaRam = s.dmaRam := rfl
@[simp] theorem Chip.out_scrubs (o : Output) : (s.out o).scrubs = s.scrubs := rfl
@[simp] theorem Chip.out_badWords (o : Output) : (s.out o).badWords = s.badWords := rfl
@[simp] theorem Chip.out_fuses (o : Output) : (s.out o).fuses = s.fuses := rfl
@[simp] theorem Chip.out_flash (o : Output) : (s.out o).flash = s.flash := rfl
@[simp] theorem Chip.out_mgmt (o : Output) : (s.out o).mgmt = s.mgmt := rfl
@[simp] theorem Chip.out_edges (o : Output) : (s.out o).edges = s.edges := rfl
@[simp] theorem Chip.out_samp (o : Output) : (s.out o).samp = s.samp := rfl
@[simp] theorem Chip.out_sampIrq (o : Output) : (s.out o).sampIrq = s.sampIrq := rfl
@[simp] theorem Chip.out_latches (o : Output) : (s.out o).latches = s.latches := rfl
@[simp] theorem Chip.out_pw (o : Output) : (s.out o).pw = s.pw := rfl
@[simp] theorem Chip.out_test (o : Output) : (s.out o).test = s.test := rfl
@[simp] theorem Chip.out_lcJob (o : Output) : (s.out o).lcJob = s.lcJob := rfl
@[simp] theorem Chip.out_challenge (o : Output) : (s.out o).challenge = s.challenge := rfl
@[simp] theorem Chip.out_jtag (o : Output) : (s.out o).jtag = s.jtag := rfl
@[simp] theorem Chip.out_scanLinks (o : Output) : (s.out o).scanLinks = s.scanLinks := rfl
@[simp] theorem Chip.out_boot (o : Output) : (s.out o).boot = s.boot := rfl
@[simp] theorem Chip.out_resetAt (o : Output) : (s.out o).resetAt = s.resetAt := rfl
@[simp] theorem Chip.out_eth (o : Output) : (s.out o).eth = s.eth := rfl
@[simp] theorem Chip.out_relay (o : Output) : (s.out o).relay = s.relay := rfl
@[simp] theorem Chip.out_mail (o : Output) : (s.out o).mail = s.mail := rfl
@[simp] theorem Chip.out_nextId (o : Output) : (s.out o).nextId = s.nextId := rfl
@[simp] theorem Chip.out_freeCtr (o : Output) : (s.out o).freeCtr = s.freeCtr := rfl

@[simp] theorem Chip.post_regs (m : Mail) : (s.post m).regs = s.regs := rfl
@[simp] theorem Chip.post_sram (m : Mail) : (s.post m).sram = s.sram := rfl
@[simp] theorem Chip.post_time (m : Mail) : (s.post m).time = s.time := rfl
@[simp] theorem Chip.post_cnt (m : Mail) : (s.post m).cnt = s.cnt := rfl
@[simp] theorem Chip.post_hist (m : Mail) : (s.post m).hist = s.hist := rfl
@[simp] theorem Chip.post_ports (m : Mail) : (s.post m).ports = s.ports := rfl
@[simp] theorem Chip.post_lanes (m : Mail) : (s.post m).lanes = s.lanes := rfl
@[simp] theorem Chip.post_start (m : Mail) : (s.post m).start = s.start := rfl
@[simp] theorem Chip.post_waveZero (m : Mail) : (s.post m).waveZero = s.waveZero := rfl
@[simp] theorem Chip.post_waves (m : Mail) : (s.post m).waves = s.waves := rfl
@[simp] theorem Chip.post_taken (m : Mail) : (s.post m).taken = s.taken := rfl
@[simp] theorem Chip.post_noc (m : Mail) : (s.post m).noc = s.noc := rfl
@[simp] theorem Chip.post_msgs (m : Mail) : (s.post m).msgs = s.msgs := rfl
@[simp] theorem Chip.post_opens (m : Mail) : (s.post m).opens = s.opens := rfl
@[simp] theorem Chip.post_ended (m : Mail) : (s.post m).ended = s.ended := rfl
@[simp] theorem Chip.post_cuts (m : Mail) : (s.post m).cuts = s.cuts := rfl
@[simp] theorem Chip.post_vppbs (m : Mail) : (s.post m).vppbs = s.vppbs := rfl
@[simp] theorem Chip.post_vcs (m : Mail) : (s.post m).vcs = s.vcs := rfl
@[simp] theorem Chip.post_pbr (m : Mail) : (s.post m).pbr = s.pbr := rfl
@[simp] theorem Chip.post_wins (m : Mail) : (s.post m).wins = s.wins := rfl
@[simp] theorem Chip.post_epochs (m : Mail) : (s.post m).epochs = s.epochs := rfl
@[simp] theorem Chip.post_stalls (m : Mail) : (s.post m).stalls = s.stalls := rfl
@[simp] theorem Chip.post_engOwn (m : Mail) : (s.post m).engOwn = s.engOwn := rfl
@[simp] theorem Chip.post_engCmd (m : Mail) : (s.post m).engCmd = s.engCmd := rfl
@[simp] theorem Chip.post_qOpen (m : Mail) : (s.post m).qOpen = s.qOpen := rfl
@[simp] theorem Chip.post_qPressed (m : Mail) : (s.post m).qPressed = s.qPressed := rfl
@[simp] theorem Chip.post_markers (m : Mail) : (s.post m).markers = s.markers := rfl
@[simp] theorem Chip.post_stats (m : Mail) : (s.post m).stats = s.stats := rfl
@[simp] theorem Chip.post_inners (m : Mail) : (s.post m).inners = s.inners := rfl
@[simp] theorem Chip.post_snf (m : Mail) : (s.post m).snf = s.snf := rfl
@[simp] theorem Chip.post_plru (m : Mail) : (s.post m).plru = s.plru := rfl
@[simp] theorem Chip.post_txns (m : Mail) : (s.post m).txns = s.txns := rfl
@[simp] theorem Chip.post_copies (m : Mail) : (s.post m).copies = s.copies := rfl
@[simp] theorem Chip.post_snooped (m : Mail) : (s.post m).snooped = s.snooped := rfl
@[simp] theorem Chip.post_gjobs (m : Mail) : (s.post m).gjobs = s.gjobs := rfl
@[simp] theorem Chip.post_gholds (m : Mail) : (s.post m).gholds = s.gholds := rfl
@[simp] theorem Chip.post_movAt (m : Mail) : (s.post m).movAt = s.movAt := rfl
@[simp] theorem Chip.post_movLast (m : Mail) : (s.post m).movLast = s.movLast := rfl
@[simp] theorem Chip.post_ert (m : Mail) : (s.post m).ert = s.ert := rfl
@[simp] theorem Chip.post_mirrors (m : Mail) : (s.post m).mirrors = s.mirrors := rfl
@[simp] theorem Chip.post_removals (m : Mail) : (s.post m).removals = s.removals := rfl
@[simp] theorem Chip.post_imgBinds (m : Mail) : (s.post m).imgBinds = s.imgBinds := rfl
@[simp] theorem Chip.post_imgInsts (m : Mail) : (s.post m).imgInsts = s.imgInsts := rfl
@[simp] theorem Chip.post_settles (m : Mail) : (s.post m).settles = s.settles := rfl
@[simp] theorem Chip.post_unpassed (m : Mail) : (s.post m).unpassed = s.unpassed := rfl
@[simp] theorem Chip.post_slots (m : Mail) : (s.post m).slots = s.slots := rfl
@[simp] theorem Chip.post_vinSnsBad (m : Mail) : (s.post m).vinSnsBad = s.vinSnsBad := rfl
@[simp] theorem Chip.post_slotHold (m : Mail) : (s.post m).slotHold = s.slotHold := rfl
@[simp] theorem Chip.post_fatal (m : Mail) : (s.post m).fatal = s.fatal := rfl
@[simp] theorem Chip.post_failTest (m : Mail) : (s.post m).failTest = s.failTest := rfl
@[simp] theorem Chip.post_beatLost (m : Mail) : (s.post m).beatLost = s.beatLost := rfl
@[simp] theorem Chip.post_dieLost (m : Mail) : (s.post m).dieLost = s.dieLost := rfl
@[simp] theorem Chip.post_started (m : Mail) : (s.post m).started = s.started := rfl
@[simp] theorem Chip.post_merge (m : Mail) : (s.post m).merge = s.merge := rfl
@[simp] theorem Chip.post_dmaRam (m : Mail) : (s.post m).dmaRam = s.dmaRam := rfl
@[simp] theorem Chip.post_scrubs (m : Mail) : (s.post m).scrubs = s.scrubs := rfl
@[simp] theorem Chip.post_badWords (m : Mail) : (s.post m).badWords = s.badWords := rfl
@[simp] theorem Chip.post_fuses (m : Mail) : (s.post m).fuses = s.fuses := rfl
@[simp] theorem Chip.post_flash (m : Mail) : (s.post m).flash = s.flash := rfl
@[simp] theorem Chip.post_mgmt (m : Mail) : (s.post m).mgmt = s.mgmt := rfl
@[simp] theorem Chip.post_edges (m : Mail) : (s.post m).edges = s.edges := rfl
@[simp] theorem Chip.post_samp (m : Mail) : (s.post m).samp = s.samp := rfl
@[simp] theorem Chip.post_sampIrq (m : Mail) : (s.post m).sampIrq = s.sampIrq := rfl
@[simp] theorem Chip.post_latches (m : Mail) : (s.post m).latches = s.latches := rfl
@[simp] theorem Chip.post_pw (m : Mail) : (s.post m).pw = s.pw := rfl
@[simp] theorem Chip.post_test (m : Mail) : (s.post m).test = s.test := rfl
@[simp] theorem Chip.post_lcJob (m : Mail) : (s.post m).lcJob = s.lcJob := rfl
@[simp] theorem Chip.post_challenge (m : Mail) : (s.post m).challenge = s.challenge := rfl
@[simp] theorem Chip.post_jtag (m : Mail) : (s.post m).jtag = s.jtag := rfl
@[simp] theorem Chip.post_scanLinks (m : Mail) : (s.post m).scanLinks = s.scanLinks := rfl
@[simp] theorem Chip.post_boot (m : Mail) : (s.post m).boot = s.boot := rfl
@[simp] theorem Chip.post_resetAt (m : Mail) : (s.post m).resetAt = s.resetAt := rfl
@[simp] theorem Chip.post_eth (m : Mail) : (s.post m).eth = s.eth := rfl
@[simp] theorem Chip.post_relay (m : Mail) : (s.post m).relay = s.relay := rfl
@[simp] theorem Chip.post_outbox (m : Mail) : (s.post m).outbox = s.outbox := rfl
@[simp] theorem Chip.post_nextId (m : Mail) : (s.post m).nextId = s.nextId := rfl
@[simp] theorem Chip.post_freeCtr (m : Mail) : (s.post m).freeCtr = s.freeCtr := rfl

@[simp] theorem Chip.event_regs (n : Nat) (ws : List Nat) : (s.event n ws).regs = s.regs := rfl
@[simp] theorem Chip.event_sram (n : Nat) (ws : List Nat) : (s.event n ws).sram = s.sram := rfl
@[simp] theorem Chip.event_time (n : Nat) (ws : List Nat) : (s.event n ws).time = s.time := rfl
@[simp] theorem Chip.event_cnt (n : Nat) (ws : List Nat) : (s.event n ws).cnt = s.cnt := rfl
@[simp] theorem Chip.event_hist (n : Nat) (ws : List Nat) : (s.event n ws).hist = s.hist := rfl
@[simp] theorem Chip.event_ports (n : Nat) (ws : List Nat) : (s.event n ws).ports = s.ports := rfl
@[simp] theorem Chip.event_lanes (n : Nat) (ws : List Nat) : (s.event n ws).lanes = s.lanes := rfl
@[simp] theorem Chip.event_start (n : Nat) (ws : List Nat) : (s.event n ws).start = s.start := rfl
@[simp] theorem Chip.event_waveZero (n : Nat) (ws : List Nat) : (s.event n ws).waveZero = s.waveZero := rfl
@[simp] theorem Chip.event_waves (n : Nat) (ws : List Nat) : (s.event n ws).waves = s.waves := rfl
@[simp] theorem Chip.event_taken (n : Nat) (ws : List Nat) : (s.event n ws).taken = s.taken := rfl
@[simp] theorem Chip.event_noc (n : Nat) (ws : List Nat) : (s.event n ws).noc = s.noc := rfl
@[simp] theorem Chip.event_msgs (n : Nat) (ws : List Nat) : (s.event n ws).msgs = s.msgs := rfl
@[simp] theorem Chip.event_opens (n : Nat) (ws : List Nat) : (s.event n ws).opens = s.opens := rfl
@[simp] theorem Chip.event_ended (n : Nat) (ws : List Nat) : (s.event n ws).ended = s.ended := rfl
@[simp] theorem Chip.event_cuts (n : Nat) (ws : List Nat) : (s.event n ws).cuts = s.cuts := rfl
@[simp] theorem Chip.event_vppbs (n : Nat) (ws : List Nat) : (s.event n ws).vppbs = s.vppbs := rfl
@[simp] theorem Chip.event_vcs (n : Nat) (ws : List Nat) : (s.event n ws).vcs = s.vcs := rfl
@[simp] theorem Chip.event_pbr (n : Nat) (ws : List Nat) : (s.event n ws).pbr = s.pbr := rfl
@[simp] theorem Chip.event_wins (n : Nat) (ws : List Nat) : (s.event n ws).wins = s.wins := rfl
@[simp] theorem Chip.event_epochs (n : Nat) (ws : List Nat) : (s.event n ws).epochs = s.epochs := rfl
@[simp] theorem Chip.event_stalls (n : Nat) (ws : List Nat) : (s.event n ws).stalls = s.stalls := rfl
@[simp] theorem Chip.event_engOwn (n : Nat) (ws : List Nat) : (s.event n ws).engOwn = s.engOwn := rfl
@[simp] theorem Chip.event_engCmd (n : Nat) (ws : List Nat) : (s.event n ws).engCmd = s.engCmd := rfl
@[simp] theorem Chip.event_qOpen (n : Nat) (ws : List Nat) : (s.event n ws).qOpen = s.qOpen := rfl
@[simp] theorem Chip.event_qPressed (n : Nat) (ws : List Nat) : (s.event n ws).qPressed = s.qPressed := rfl
@[simp] theorem Chip.event_markers (n : Nat) (ws : List Nat) : (s.event n ws).markers = s.markers := rfl
@[simp] theorem Chip.event_stats (n : Nat) (ws : List Nat) : (s.event n ws).stats = s.stats := rfl
@[simp] theorem Chip.event_inners (n : Nat) (ws : List Nat) : (s.event n ws).inners = s.inners := rfl
@[simp] theorem Chip.event_snf (n : Nat) (ws : List Nat) : (s.event n ws).snf = s.snf := rfl
@[simp] theorem Chip.event_plru (n : Nat) (ws : List Nat) : (s.event n ws).plru = s.plru := rfl
@[simp] theorem Chip.event_txns (n : Nat) (ws : List Nat) : (s.event n ws).txns = s.txns := rfl
@[simp] theorem Chip.event_copies (n : Nat) (ws : List Nat) : (s.event n ws).copies = s.copies := rfl
@[simp] theorem Chip.event_snooped (n : Nat) (ws : List Nat) : (s.event n ws).snooped = s.snooped := rfl
@[simp] theorem Chip.event_gjobs (n : Nat) (ws : List Nat) : (s.event n ws).gjobs = s.gjobs := rfl
@[simp] theorem Chip.event_gholds (n : Nat) (ws : List Nat) : (s.event n ws).gholds = s.gholds := rfl
@[simp] theorem Chip.event_movAt (n : Nat) (ws : List Nat) : (s.event n ws).movAt = s.movAt := rfl
@[simp] theorem Chip.event_movLast (n : Nat) (ws : List Nat) : (s.event n ws).movLast = s.movLast := rfl
@[simp] theorem Chip.event_ert (n : Nat) (ws : List Nat) : (s.event n ws).ert = s.ert := rfl
@[simp] theorem Chip.event_mirrors (n : Nat) (ws : List Nat) : (s.event n ws).mirrors = s.mirrors := rfl
@[simp] theorem Chip.event_removals (n : Nat) (ws : List Nat) : (s.event n ws).removals = s.removals := rfl
@[simp] theorem Chip.event_imgBinds (n : Nat) (ws : List Nat) : (s.event n ws).imgBinds = s.imgBinds := rfl
@[simp] theorem Chip.event_imgInsts (n : Nat) (ws : List Nat) : (s.event n ws).imgInsts = s.imgInsts := rfl
@[simp] theorem Chip.event_settles (n : Nat) (ws : List Nat) : (s.event n ws).settles = s.settles := rfl
@[simp] theorem Chip.event_unpassed (n : Nat) (ws : List Nat) : (s.event n ws).unpassed = s.unpassed := rfl
@[simp] theorem Chip.event_slots (n : Nat) (ws : List Nat) : (s.event n ws).slots = s.slots := rfl
@[simp] theorem Chip.event_vinSnsBad (n : Nat) (ws : List Nat) : (s.event n ws).vinSnsBad = s.vinSnsBad := rfl
@[simp] theorem Chip.event_slotHold (n : Nat) (ws : List Nat) : (s.event n ws).slotHold = s.slotHold := rfl
@[simp] theorem Chip.event_fatal (n : Nat) (ws : List Nat) : (s.event n ws).fatal = s.fatal := rfl
@[simp] theorem Chip.event_failTest (n : Nat) (ws : List Nat) : (s.event n ws).failTest = s.failTest := rfl
@[simp] theorem Chip.event_beatLost (n : Nat) (ws : List Nat) : (s.event n ws).beatLost = s.beatLost := rfl
@[simp] theorem Chip.event_dieLost (n : Nat) (ws : List Nat) : (s.event n ws).dieLost = s.dieLost := rfl
@[simp] theorem Chip.event_started (n : Nat) (ws : List Nat) : (s.event n ws).started = s.started := rfl
@[simp] theorem Chip.event_merge (n : Nat) (ws : List Nat) : (s.event n ws).merge = s.merge := rfl
@[simp] theorem Chip.event_dmaRam (n : Nat) (ws : List Nat) : (s.event n ws).dmaRam = s.dmaRam := rfl
@[simp] theorem Chip.event_scrubs (n : Nat) (ws : List Nat) : (s.event n ws).scrubs = s.scrubs := rfl
@[simp] theorem Chip.event_badWords (n : Nat) (ws : List Nat) : (s.event n ws).badWords = s.badWords := rfl
@[simp] theorem Chip.event_fuses (n : Nat) (ws : List Nat) : (s.event n ws).fuses = s.fuses := rfl
@[simp] theorem Chip.event_flash (n : Nat) (ws : List Nat) : (s.event n ws).flash = s.flash := rfl
@[simp] theorem Chip.event_mgmt (n : Nat) (ws : List Nat) : (s.event n ws).mgmt = s.mgmt := rfl
@[simp] theorem Chip.event_edges (n : Nat) (ws : List Nat) : (s.event n ws).edges = s.edges := rfl
@[simp] theorem Chip.event_samp (n : Nat) (ws : List Nat) : (s.event n ws).samp = s.samp := rfl
@[simp] theorem Chip.event_sampIrq (n : Nat) (ws : List Nat) : (s.event n ws).sampIrq = s.sampIrq := rfl
@[simp] theorem Chip.event_latches (n : Nat) (ws : List Nat) : (s.event n ws).latches = s.latches := rfl
@[simp] theorem Chip.event_pw (n : Nat) (ws : List Nat) : (s.event n ws).pw = s.pw := rfl
@[simp] theorem Chip.event_test (n : Nat) (ws : List Nat) : (s.event n ws).test = s.test := rfl
@[simp] theorem Chip.event_lcJob (n : Nat) (ws : List Nat) : (s.event n ws).lcJob = s.lcJob := rfl
@[simp] theorem Chip.event_challenge (n : Nat) (ws : List Nat) : (s.event n ws).challenge = s.challenge := rfl
@[simp] theorem Chip.event_jtag (n : Nat) (ws : List Nat) : (s.event n ws).jtag = s.jtag := rfl
@[simp] theorem Chip.event_scanLinks (n : Nat) (ws : List Nat) : (s.event n ws).scanLinks = s.scanLinks := rfl
@[simp] theorem Chip.event_boot (n : Nat) (ws : List Nat) : (s.event n ws).boot = s.boot := rfl
@[simp] theorem Chip.event_resetAt (n : Nat) (ws : List Nat) : (s.event n ws).resetAt = s.resetAt := rfl
@[simp] theorem Chip.event_eth (n : Nat) (ws : List Nat) : (s.event n ws).eth = s.eth := rfl
@[simp] theorem Chip.event_relay (n : Nat) (ws : List Nat) : (s.event n ws).relay = s.relay := rfl
@[simp] theorem Chip.event_outbox (n : Nat) (ws : List Nat) : (s.event n ws).outbox = s.outbox := rfl
@[simp] theorem Chip.event_nextId (n : Nat) (ws : List Nat) : (s.event n ws).nextId = s.nextId := rfl
@[simp] theorem Chip.event_freeCtr (n : Nat) (ws : List Nat) : (s.event n ws).freeCtr = s.freeCtr := rfl

@[simp] theorem Chip.reply_regs (q : ReqId) (n : Nat) (ws : List Nat) : (s.reply q n ws).regs = s.regs := rfl
@[simp] theorem Chip.reply_sram (q : ReqId) (n : Nat) (ws : List Nat) : (s.reply q n ws).sram = s.sram := rfl
@[simp] theorem Chip.reply_time (q : ReqId) (n : Nat) (ws : List Nat) : (s.reply q n ws).time = s.time := rfl
@[simp] theorem Chip.reply_cnt (q : ReqId) (n : Nat) (ws : List Nat) : (s.reply q n ws).cnt = s.cnt := rfl
@[simp] theorem Chip.reply_hist (q : ReqId) (n : Nat) (ws : List Nat) : (s.reply q n ws).hist = s.hist := rfl
@[simp] theorem Chip.reply_ports (q : ReqId) (n : Nat) (ws : List Nat) : (s.reply q n ws).ports = s.ports := rfl
@[simp] theorem Chip.reply_lanes (q : ReqId) (n : Nat) (ws : List Nat) : (s.reply q n ws).lanes = s.lanes := rfl
@[simp] theorem Chip.reply_start (q : ReqId) (n : Nat) (ws : List Nat) : (s.reply q n ws).start = s.start := rfl
@[simp] theorem Chip.reply_waveZero (q : ReqId) (n : Nat) (ws : List Nat) : (s.reply q n ws).waveZero = s.waveZero := rfl
@[simp] theorem Chip.reply_waves (q : ReqId) (n : Nat) (ws : List Nat) : (s.reply q n ws).waves = s.waves := rfl
@[simp] theorem Chip.reply_taken (q : ReqId) (n : Nat) (ws : List Nat) : (s.reply q n ws).taken = s.taken := rfl
@[simp] theorem Chip.reply_noc (q : ReqId) (n : Nat) (ws : List Nat) : (s.reply q n ws).noc = s.noc := rfl
@[simp] theorem Chip.reply_msgs (q : ReqId) (n : Nat) (ws : List Nat) : (s.reply q n ws).msgs = s.msgs := rfl
@[simp] theorem Chip.reply_opens (q : ReqId) (n : Nat) (ws : List Nat) : (s.reply q n ws).opens = s.opens := rfl
@[simp] theorem Chip.reply_ended (q : ReqId) (n : Nat) (ws : List Nat) : (s.reply q n ws).ended = s.ended := rfl
@[simp] theorem Chip.reply_cuts (q : ReqId) (n : Nat) (ws : List Nat) : (s.reply q n ws).cuts = s.cuts := rfl
@[simp] theorem Chip.reply_vppbs (q : ReqId) (n : Nat) (ws : List Nat) : (s.reply q n ws).vppbs = s.vppbs := rfl
@[simp] theorem Chip.reply_vcs (q : ReqId) (n : Nat) (ws : List Nat) : (s.reply q n ws).vcs = s.vcs := rfl
@[simp] theorem Chip.reply_pbr (q : ReqId) (n : Nat) (ws : List Nat) : (s.reply q n ws).pbr = s.pbr := rfl
@[simp] theorem Chip.reply_wins (q : ReqId) (n : Nat) (ws : List Nat) : (s.reply q n ws).wins = s.wins := rfl
@[simp] theorem Chip.reply_epochs (q : ReqId) (n : Nat) (ws : List Nat) : (s.reply q n ws).epochs = s.epochs := rfl
@[simp] theorem Chip.reply_stalls (q : ReqId) (n : Nat) (ws : List Nat) : (s.reply q n ws).stalls = s.stalls := rfl
@[simp] theorem Chip.reply_engOwn (q : ReqId) (n : Nat) (ws : List Nat) : (s.reply q n ws).engOwn = s.engOwn := rfl
@[simp] theorem Chip.reply_engCmd (q : ReqId) (n : Nat) (ws : List Nat) : (s.reply q n ws).engCmd = s.engCmd := rfl
@[simp] theorem Chip.reply_qOpen (q : ReqId) (n : Nat) (ws : List Nat) : (s.reply q n ws).qOpen = s.qOpen := rfl
@[simp] theorem Chip.reply_qPressed (q : ReqId) (n : Nat) (ws : List Nat) : (s.reply q n ws).qPressed = s.qPressed := rfl
@[simp] theorem Chip.reply_markers (q : ReqId) (n : Nat) (ws : List Nat) : (s.reply q n ws).markers = s.markers := rfl
@[simp] theorem Chip.reply_stats (q : ReqId) (n : Nat) (ws : List Nat) : (s.reply q n ws).stats = s.stats := rfl
@[simp] theorem Chip.reply_inners (q : ReqId) (n : Nat) (ws : List Nat) : (s.reply q n ws).inners = s.inners := rfl
@[simp] theorem Chip.reply_snf (q : ReqId) (n : Nat) (ws : List Nat) : (s.reply q n ws).snf = s.snf := rfl
@[simp] theorem Chip.reply_plru (q : ReqId) (n : Nat) (ws : List Nat) : (s.reply q n ws).plru = s.plru := rfl
@[simp] theorem Chip.reply_txns (q : ReqId) (n : Nat) (ws : List Nat) : (s.reply q n ws).txns = s.txns := rfl
@[simp] theorem Chip.reply_copies (q : ReqId) (n : Nat) (ws : List Nat) : (s.reply q n ws).copies = s.copies := rfl
@[simp] theorem Chip.reply_snooped (q : ReqId) (n : Nat) (ws : List Nat) : (s.reply q n ws).snooped = s.snooped := rfl
@[simp] theorem Chip.reply_gjobs (q : ReqId) (n : Nat) (ws : List Nat) : (s.reply q n ws).gjobs = s.gjobs := rfl
@[simp] theorem Chip.reply_gholds (q : ReqId) (n : Nat) (ws : List Nat) : (s.reply q n ws).gholds = s.gholds := rfl
@[simp] theorem Chip.reply_movAt (q : ReqId) (n : Nat) (ws : List Nat) : (s.reply q n ws).movAt = s.movAt := rfl
@[simp] theorem Chip.reply_movLast (q : ReqId) (n : Nat) (ws : List Nat) : (s.reply q n ws).movLast = s.movLast := rfl
@[simp] theorem Chip.reply_ert (q : ReqId) (n : Nat) (ws : List Nat) : (s.reply q n ws).ert = s.ert := rfl
@[simp] theorem Chip.reply_mirrors (q : ReqId) (n : Nat) (ws : List Nat) : (s.reply q n ws).mirrors = s.mirrors := rfl
@[simp] theorem Chip.reply_removals (q : ReqId) (n : Nat) (ws : List Nat) : (s.reply q n ws).removals = s.removals := rfl
@[simp] theorem Chip.reply_imgBinds (q : ReqId) (n : Nat) (ws : List Nat) : (s.reply q n ws).imgBinds = s.imgBinds := rfl
@[simp] theorem Chip.reply_imgInsts (q : ReqId) (n : Nat) (ws : List Nat) : (s.reply q n ws).imgInsts = s.imgInsts := rfl
@[simp] theorem Chip.reply_settles (q : ReqId) (n : Nat) (ws : List Nat) : (s.reply q n ws).settles = s.settles := rfl
@[simp] theorem Chip.reply_unpassed (q : ReqId) (n : Nat) (ws : List Nat) : (s.reply q n ws).unpassed = s.unpassed := rfl
@[simp] theorem Chip.reply_slots (q : ReqId) (n : Nat) (ws : List Nat) : (s.reply q n ws).slots = s.slots := rfl
@[simp] theorem Chip.reply_vinSnsBad (q : ReqId) (n : Nat) (ws : List Nat) : (s.reply q n ws).vinSnsBad = s.vinSnsBad := rfl
@[simp] theorem Chip.reply_slotHold (q : ReqId) (n : Nat) (ws : List Nat) : (s.reply q n ws).slotHold = s.slotHold := rfl
@[simp] theorem Chip.reply_fatal (q : ReqId) (n : Nat) (ws : List Nat) : (s.reply q n ws).fatal = s.fatal := rfl
@[simp] theorem Chip.reply_failTest (q : ReqId) (n : Nat) (ws : List Nat) : (s.reply q n ws).failTest = s.failTest := rfl
@[simp] theorem Chip.reply_beatLost (q : ReqId) (n : Nat) (ws : List Nat) : (s.reply q n ws).beatLost = s.beatLost := rfl
@[simp] theorem Chip.reply_dieLost (q : ReqId) (n : Nat) (ws : List Nat) : (s.reply q n ws).dieLost = s.dieLost := rfl
@[simp] theorem Chip.reply_started (q : ReqId) (n : Nat) (ws : List Nat) : (s.reply q n ws).started = s.started := rfl
@[simp] theorem Chip.reply_merge (q : ReqId) (n : Nat) (ws : List Nat) : (s.reply q n ws).merge = s.merge := rfl
@[simp] theorem Chip.reply_dmaRam (q : ReqId) (n : Nat) (ws : List Nat) : (s.reply q n ws).dmaRam = s.dmaRam := rfl
@[simp] theorem Chip.reply_scrubs (q : ReqId) (n : Nat) (ws : List Nat) : (s.reply q n ws).scrubs = s.scrubs := rfl
@[simp] theorem Chip.reply_badWords (q : ReqId) (n : Nat) (ws : List Nat) : (s.reply q n ws).badWords = s.badWords := rfl
@[simp] theorem Chip.reply_fuses (q : ReqId) (n : Nat) (ws : List Nat) : (s.reply q n ws).fuses = s.fuses := rfl
@[simp] theorem Chip.reply_flash (q : ReqId) (n : Nat) (ws : List Nat) : (s.reply q n ws).flash = s.flash := rfl
@[simp] theorem Chip.reply_mgmt (q : ReqId) (n : Nat) (ws : List Nat) : (s.reply q n ws).mgmt = s.mgmt := rfl
@[simp] theorem Chip.reply_edges (q : ReqId) (n : Nat) (ws : List Nat) : (s.reply q n ws).edges = s.edges := rfl
@[simp] theorem Chip.reply_samp (q : ReqId) (n : Nat) (ws : List Nat) : (s.reply q n ws).samp = s.samp := rfl
@[simp] theorem Chip.reply_sampIrq (q : ReqId) (n : Nat) (ws : List Nat) : (s.reply q n ws).sampIrq = s.sampIrq := rfl
@[simp] theorem Chip.reply_latches (q : ReqId) (n : Nat) (ws : List Nat) : (s.reply q n ws).latches = s.latches := rfl
@[simp] theorem Chip.reply_pw (q : ReqId) (n : Nat) (ws : List Nat) : (s.reply q n ws).pw = s.pw := rfl
@[simp] theorem Chip.reply_test (q : ReqId) (n : Nat) (ws : List Nat) : (s.reply q n ws).test = s.test := rfl
@[simp] theorem Chip.reply_lcJob (q : ReqId) (n : Nat) (ws : List Nat) : (s.reply q n ws).lcJob = s.lcJob := rfl
@[simp] theorem Chip.reply_challenge (q : ReqId) (n : Nat) (ws : List Nat) : (s.reply q n ws).challenge = s.challenge := rfl
@[simp] theorem Chip.reply_jtag (q : ReqId) (n : Nat) (ws : List Nat) : (s.reply q n ws).jtag = s.jtag := rfl
@[simp] theorem Chip.reply_scanLinks (q : ReqId) (n : Nat) (ws : List Nat) : (s.reply q n ws).scanLinks = s.scanLinks := rfl
@[simp] theorem Chip.reply_boot (q : ReqId) (n : Nat) (ws : List Nat) : (s.reply q n ws).boot = s.boot := rfl
@[simp] theorem Chip.reply_resetAt (q : ReqId) (n : Nat) (ws : List Nat) : (s.reply q n ws).resetAt = s.resetAt := rfl
@[simp] theorem Chip.reply_eth (q : ReqId) (n : Nat) (ws : List Nat) : (s.reply q n ws).eth = s.eth := rfl
@[simp] theorem Chip.reply_relay (q : ReqId) (n : Nat) (ws : List Nat) : (s.reply q n ws).relay = s.relay := rfl
@[simp] theorem Chip.reply_outbox (q : ReqId) (n : Nat) (ws : List Nat) : (s.reply q n ws).outbox = s.outbox := rfl
@[simp] theorem Chip.reply_nextId (q : ReqId) (n : Nat) (ws : List Nat) : (s.reply q n ws).nextId = s.nextId := rfl
@[simp] theorem Chip.reply_freeCtr (q : ReqId) (n : Nat) (ws : List Nat) : (s.reply q n ws).freeCtr = s.freeCtr := rfl

@[simp] theorem Chip.setPort_regs (p : Nat) (x : PortX) : (s.setPort p x).regs = s.regs := rfl
@[simp] theorem Chip.setPort_sram (p : Nat) (x : PortX) : (s.setPort p x).sram = s.sram := rfl
@[simp] theorem Chip.setPort_time (p : Nat) (x : PortX) : (s.setPort p x).time = s.time := rfl
@[simp] theorem Chip.setPort_cnt (p : Nat) (x : PortX) : (s.setPort p x).cnt = s.cnt := rfl
@[simp] theorem Chip.setPort_hist (p : Nat) (x : PortX) : (s.setPort p x).hist = s.hist := rfl
@[simp] theorem Chip.setPort_lanes (p : Nat) (x : PortX) : (s.setPort p x).lanes = s.lanes := rfl
@[simp] theorem Chip.setPort_start (p : Nat) (x : PortX) : (s.setPort p x).start = s.start := rfl
@[simp] theorem Chip.setPort_waveZero (p : Nat) (x : PortX) : (s.setPort p x).waveZero = s.waveZero := rfl
@[simp] theorem Chip.setPort_waves (p : Nat) (x : PortX) : (s.setPort p x).waves = s.waves := rfl
@[simp] theorem Chip.setPort_taken (p : Nat) (x : PortX) : (s.setPort p x).taken = s.taken := rfl
@[simp] theorem Chip.setPort_noc (p : Nat) (x : PortX) : (s.setPort p x).noc = s.noc := rfl
@[simp] theorem Chip.setPort_msgs (p : Nat) (x : PortX) : (s.setPort p x).msgs = s.msgs := rfl
@[simp] theorem Chip.setPort_opens (p : Nat) (x : PortX) : (s.setPort p x).opens = s.opens := rfl
@[simp] theorem Chip.setPort_ended (p : Nat) (x : PortX) : (s.setPort p x).ended = s.ended := rfl
@[simp] theorem Chip.setPort_cuts (p : Nat) (x : PortX) : (s.setPort p x).cuts = s.cuts := rfl
@[simp] theorem Chip.setPort_vppbs (p : Nat) (x : PortX) : (s.setPort p x).vppbs = s.vppbs := rfl
@[simp] theorem Chip.setPort_vcs (p : Nat) (x : PortX) : (s.setPort p x).vcs = s.vcs := rfl
@[simp] theorem Chip.setPort_pbr (p : Nat) (x : PortX) : (s.setPort p x).pbr = s.pbr := rfl
@[simp] theorem Chip.setPort_wins (p : Nat) (x : PortX) : (s.setPort p x).wins = s.wins := rfl
@[simp] theorem Chip.setPort_epochs (p : Nat) (x : PortX) : (s.setPort p x).epochs = s.epochs := rfl
@[simp] theorem Chip.setPort_stalls (p : Nat) (x : PortX) : (s.setPort p x).stalls = s.stalls := rfl
@[simp] theorem Chip.setPort_engOwn (p : Nat) (x : PortX) : (s.setPort p x).engOwn = s.engOwn := rfl
@[simp] theorem Chip.setPort_engCmd (p : Nat) (x : PortX) : (s.setPort p x).engCmd = s.engCmd := rfl
@[simp] theorem Chip.setPort_qOpen (p : Nat) (x : PortX) : (s.setPort p x).qOpen = s.qOpen := rfl
@[simp] theorem Chip.setPort_qPressed (p : Nat) (x : PortX) : (s.setPort p x).qPressed = s.qPressed := rfl
@[simp] theorem Chip.setPort_markers (p : Nat) (x : PortX) : (s.setPort p x).markers = s.markers := rfl
@[simp] theorem Chip.setPort_stats (p : Nat) (x : PortX) : (s.setPort p x).stats = s.stats := rfl
@[simp] theorem Chip.setPort_inners (p : Nat) (x : PortX) : (s.setPort p x).inners = s.inners := rfl
@[simp] theorem Chip.setPort_snf (p : Nat) (x : PortX) : (s.setPort p x).snf = s.snf := rfl
@[simp] theorem Chip.setPort_plru (p : Nat) (x : PortX) : (s.setPort p x).plru = s.plru := rfl
@[simp] theorem Chip.setPort_txns (p : Nat) (x : PortX) : (s.setPort p x).txns = s.txns := rfl
@[simp] theorem Chip.setPort_copies (p : Nat) (x : PortX) : (s.setPort p x).copies = s.copies := rfl
@[simp] theorem Chip.setPort_snooped (p : Nat) (x : PortX) : (s.setPort p x).snooped = s.snooped := rfl
@[simp] theorem Chip.setPort_gjobs (p : Nat) (x : PortX) : (s.setPort p x).gjobs = s.gjobs := rfl
@[simp] theorem Chip.setPort_gholds (p : Nat) (x : PortX) : (s.setPort p x).gholds = s.gholds := rfl
@[simp] theorem Chip.setPort_movAt (p : Nat) (x : PortX) : (s.setPort p x).movAt = s.movAt := rfl
@[simp] theorem Chip.setPort_movLast (p : Nat) (x : PortX) : (s.setPort p x).movLast = s.movLast := rfl
@[simp] theorem Chip.setPort_ert (p : Nat) (x : PortX) : (s.setPort p x).ert = s.ert := rfl
@[simp] theorem Chip.setPort_mirrors (p : Nat) (x : PortX) : (s.setPort p x).mirrors = s.mirrors := rfl
@[simp] theorem Chip.setPort_removals (p : Nat) (x : PortX) : (s.setPort p x).removals = s.removals := rfl
@[simp] theorem Chip.setPort_imgBinds (p : Nat) (x : PortX) : (s.setPort p x).imgBinds = s.imgBinds := rfl
@[simp] theorem Chip.setPort_imgInsts (p : Nat) (x : PortX) : (s.setPort p x).imgInsts = s.imgInsts := rfl
@[simp] theorem Chip.setPort_settles (p : Nat) (x : PortX) : (s.setPort p x).settles = s.settles := rfl
@[simp] theorem Chip.setPort_unpassed (p : Nat) (x : PortX) : (s.setPort p x).unpassed = s.unpassed := rfl
@[simp] theorem Chip.setPort_slots (p : Nat) (x : PortX) : (s.setPort p x).slots = s.slots := rfl
@[simp] theorem Chip.setPort_vinSnsBad (p : Nat) (x : PortX) : (s.setPort p x).vinSnsBad = s.vinSnsBad := rfl
@[simp] theorem Chip.setPort_slotHold (p : Nat) (x : PortX) : (s.setPort p x).slotHold = s.slotHold := rfl
@[simp] theorem Chip.setPort_fatal (p : Nat) (x : PortX) : (s.setPort p x).fatal = s.fatal := rfl
@[simp] theorem Chip.setPort_failTest (p : Nat) (x : PortX) : (s.setPort p x).failTest = s.failTest := rfl
@[simp] theorem Chip.setPort_beatLost (p : Nat) (x : PortX) : (s.setPort p x).beatLost = s.beatLost := rfl
@[simp] theorem Chip.setPort_dieLost (p : Nat) (x : PortX) : (s.setPort p x).dieLost = s.dieLost := rfl
@[simp] theorem Chip.setPort_started (p : Nat) (x : PortX) : (s.setPort p x).started = s.started := rfl
@[simp] theorem Chip.setPort_merge (p : Nat) (x : PortX) : (s.setPort p x).merge = s.merge := rfl
@[simp] theorem Chip.setPort_dmaRam (p : Nat) (x : PortX) : (s.setPort p x).dmaRam = s.dmaRam := rfl
@[simp] theorem Chip.setPort_scrubs (p : Nat) (x : PortX) : (s.setPort p x).scrubs = s.scrubs := rfl
@[simp] theorem Chip.setPort_badWords (p : Nat) (x : PortX) : (s.setPort p x).badWords = s.badWords := rfl
@[simp] theorem Chip.setPort_fuses (p : Nat) (x : PortX) : (s.setPort p x).fuses = s.fuses := rfl
@[simp] theorem Chip.setPort_flash (p : Nat) (x : PortX) : (s.setPort p x).flash = s.flash := rfl
@[simp] theorem Chip.setPort_mgmt (p : Nat) (x : PortX) : (s.setPort p x).mgmt = s.mgmt := rfl
@[simp] theorem Chip.setPort_edges (p : Nat) (x : PortX) : (s.setPort p x).edges = s.edges := rfl
@[simp] theorem Chip.setPort_samp (p : Nat) (x : PortX) : (s.setPort p x).samp = s.samp := rfl
@[simp] theorem Chip.setPort_sampIrq (p : Nat) (x : PortX) : (s.setPort p x).sampIrq = s.sampIrq := rfl
@[simp] theorem Chip.setPort_latches (p : Nat) (x : PortX) : (s.setPort p x).latches = s.latches := rfl
@[simp] theorem Chip.setPort_pw (p : Nat) (x : PortX) : (s.setPort p x).pw = s.pw := rfl
@[simp] theorem Chip.setPort_test (p : Nat) (x : PortX) : (s.setPort p x).test = s.test := rfl
@[simp] theorem Chip.setPort_lcJob (p : Nat) (x : PortX) : (s.setPort p x).lcJob = s.lcJob := rfl
@[simp] theorem Chip.setPort_challenge (p : Nat) (x : PortX) : (s.setPort p x).challenge = s.challenge := rfl
@[simp] theorem Chip.setPort_jtag (p : Nat) (x : PortX) : (s.setPort p x).jtag = s.jtag := rfl
@[simp] theorem Chip.setPort_scanLinks (p : Nat) (x : PortX) : (s.setPort p x).scanLinks = s.scanLinks := rfl
@[simp] theorem Chip.setPort_boot (p : Nat) (x : PortX) : (s.setPort p x).boot = s.boot := rfl
@[simp] theorem Chip.setPort_resetAt (p : Nat) (x : PortX) : (s.setPort p x).resetAt = s.resetAt := rfl
@[simp] theorem Chip.setPort_eth (p : Nat) (x : PortX) : (s.setPort p x).eth = s.eth := rfl
@[simp] theorem Chip.setPort_relay (p : Nat) (x : PortX) : (s.setPort p x).relay = s.relay := rfl
@[simp] theorem Chip.setPort_mail (p : Nat) (x : PortX) : (s.setPort p x).mail = s.mail := rfl
@[simp] theorem Chip.setPort_outbox (p : Nat) (x : PortX) : (s.setPort p x).outbox = s.outbox := rfl
@[simp] theorem Chip.setPort_nextId (p : Nat) (x : PortX) : (s.setPort p x).nextId = s.nextId := rfl
@[simp] theorem Chip.setPort_freeCtr (p : Nat) (x : PortX) : (s.setPort p x).freeCtr = s.freeCtr := rfl

@[simp] theorem Chip.setVppb_regs (n v : Nat) (x : Vppb) : (s.setVppb n v x).regs = s.regs := rfl
@[simp] theorem Chip.setVppb_sram (n v : Nat) (x : Vppb) : (s.setVppb n v x).sram = s.sram := rfl
@[simp] theorem Chip.setVppb_time (n v : Nat) (x : Vppb) : (s.setVppb n v x).time = s.time := rfl
@[simp] theorem Chip.setVppb_cnt (n v : Nat) (x : Vppb) : (s.setVppb n v x).cnt = s.cnt := rfl
@[simp] theorem Chip.setVppb_hist (n v : Nat) (x : Vppb) : (s.setVppb n v x).hist = s.hist := rfl
@[simp] theorem Chip.setVppb_ports (n v : Nat) (x : Vppb) : (s.setVppb n v x).ports = s.ports := rfl
@[simp] theorem Chip.setVppb_lanes (n v : Nat) (x : Vppb) : (s.setVppb n v x).lanes = s.lanes := rfl
@[simp] theorem Chip.setVppb_start (n v : Nat) (x : Vppb) : (s.setVppb n v x).start = s.start := rfl
@[simp] theorem Chip.setVppb_waveZero (n v : Nat) (x : Vppb) : (s.setVppb n v x).waveZero = s.waveZero := rfl
@[simp] theorem Chip.setVppb_waves (n v : Nat) (x : Vppb) : (s.setVppb n v x).waves = s.waves := rfl
@[simp] theorem Chip.setVppb_taken (n v : Nat) (x : Vppb) : (s.setVppb n v x).taken = s.taken := rfl
@[simp] theorem Chip.setVppb_noc (n v : Nat) (x : Vppb) : (s.setVppb n v x).noc = s.noc := rfl
@[simp] theorem Chip.setVppb_msgs (n v : Nat) (x : Vppb) : (s.setVppb n v x).msgs = s.msgs := rfl
@[simp] theorem Chip.setVppb_opens (n v : Nat) (x : Vppb) : (s.setVppb n v x).opens = s.opens := rfl
@[simp] theorem Chip.setVppb_ended (n v : Nat) (x : Vppb) : (s.setVppb n v x).ended = s.ended := rfl
@[simp] theorem Chip.setVppb_cuts (n v : Nat) (x : Vppb) : (s.setVppb n v x).cuts = s.cuts := rfl
@[simp] theorem Chip.setVppb_vcs (n v : Nat) (x : Vppb) : (s.setVppb n v x).vcs = s.vcs := rfl
@[simp] theorem Chip.setVppb_pbr (n v : Nat) (x : Vppb) : (s.setVppb n v x).pbr = s.pbr := rfl
@[simp] theorem Chip.setVppb_wins (n v : Nat) (x : Vppb) : (s.setVppb n v x).wins = s.wins := rfl
@[simp] theorem Chip.setVppb_epochs (n v : Nat) (x : Vppb) : (s.setVppb n v x).epochs = s.epochs := rfl
@[simp] theorem Chip.setVppb_stalls (n v : Nat) (x : Vppb) : (s.setVppb n v x).stalls = s.stalls := rfl
@[simp] theorem Chip.setVppb_engOwn (n v : Nat) (x : Vppb) : (s.setVppb n v x).engOwn = s.engOwn := rfl
@[simp] theorem Chip.setVppb_engCmd (n v : Nat) (x : Vppb) : (s.setVppb n v x).engCmd = s.engCmd := rfl
@[simp] theorem Chip.setVppb_qOpen (n v : Nat) (x : Vppb) : (s.setVppb n v x).qOpen = s.qOpen := rfl
@[simp] theorem Chip.setVppb_qPressed (n v : Nat) (x : Vppb) : (s.setVppb n v x).qPressed = s.qPressed := rfl
@[simp] theorem Chip.setVppb_markers (n v : Nat) (x : Vppb) : (s.setVppb n v x).markers = s.markers := rfl
@[simp] theorem Chip.setVppb_stats (n v : Nat) (x : Vppb) : (s.setVppb n v x).stats = s.stats := rfl
@[simp] theorem Chip.setVppb_inners (n v : Nat) (x : Vppb) : (s.setVppb n v x).inners = s.inners := rfl
@[simp] theorem Chip.setVppb_snf (n v : Nat) (x : Vppb) : (s.setVppb n v x).snf = s.snf := rfl
@[simp] theorem Chip.setVppb_plru (n v : Nat) (x : Vppb) : (s.setVppb n v x).plru = s.plru := rfl
@[simp] theorem Chip.setVppb_txns (n v : Nat) (x : Vppb) : (s.setVppb n v x).txns = s.txns := rfl
@[simp] theorem Chip.setVppb_copies (n v : Nat) (x : Vppb) : (s.setVppb n v x).copies = s.copies := rfl
@[simp] theorem Chip.setVppb_snooped (n v : Nat) (x : Vppb) : (s.setVppb n v x).snooped = s.snooped := rfl
@[simp] theorem Chip.setVppb_gjobs (n v : Nat) (x : Vppb) : (s.setVppb n v x).gjobs = s.gjobs := rfl
@[simp] theorem Chip.setVppb_gholds (n v : Nat) (x : Vppb) : (s.setVppb n v x).gholds = s.gholds := rfl
@[simp] theorem Chip.setVppb_movAt (n v : Nat) (x : Vppb) : (s.setVppb n v x).movAt = s.movAt := rfl
@[simp] theorem Chip.setVppb_movLast (n v : Nat) (x : Vppb) : (s.setVppb n v x).movLast = s.movLast := rfl
@[simp] theorem Chip.setVppb_ert (n v : Nat) (x : Vppb) : (s.setVppb n v x).ert = s.ert := rfl
@[simp] theorem Chip.setVppb_mirrors (n v : Nat) (x : Vppb) : (s.setVppb n v x).mirrors = s.mirrors := rfl
@[simp] theorem Chip.setVppb_removals (n v : Nat) (x : Vppb) : (s.setVppb n v x).removals = s.removals := rfl
@[simp] theorem Chip.setVppb_imgBinds (n v : Nat) (x : Vppb) : (s.setVppb n v x).imgBinds = s.imgBinds := rfl
@[simp] theorem Chip.setVppb_imgInsts (n v : Nat) (x : Vppb) : (s.setVppb n v x).imgInsts = s.imgInsts := rfl
@[simp] theorem Chip.setVppb_settles (n v : Nat) (x : Vppb) : (s.setVppb n v x).settles = s.settles := rfl
@[simp] theorem Chip.setVppb_unpassed (n v : Nat) (x : Vppb) : (s.setVppb n v x).unpassed = s.unpassed := rfl
@[simp] theorem Chip.setVppb_slots (n v : Nat) (x : Vppb) : (s.setVppb n v x).slots = s.slots := rfl
@[simp] theorem Chip.setVppb_vinSnsBad (n v : Nat) (x : Vppb) : (s.setVppb n v x).vinSnsBad = s.vinSnsBad := rfl
@[simp] theorem Chip.setVppb_slotHold (n v : Nat) (x : Vppb) : (s.setVppb n v x).slotHold = s.slotHold := rfl
@[simp] theorem Chip.setVppb_fatal (n v : Nat) (x : Vppb) : (s.setVppb n v x).fatal = s.fatal := rfl
@[simp] theorem Chip.setVppb_failTest (n v : Nat) (x : Vppb) : (s.setVppb n v x).failTest = s.failTest := rfl
@[simp] theorem Chip.setVppb_beatLost (n v : Nat) (x : Vppb) : (s.setVppb n v x).beatLost = s.beatLost := rfl
@[simp] theorem Chip.setVppb_dieLost (n v : Nat) (x : Vppb) : (s.setVppb n v x).dieLost = s.dieLost := rfl
@[simp] theorem Chip.setVppb_started (n v : Nat) (x : Vppb) : (s.setVppb n v x).started = s.started := rfl
@[simp] theorem Chip.setVppb_merge (n v : Nat) (x : Vppb) : (s.setVppb n v x).merge = s.merge := rfl
@[simp] theorem Chip.setVppb_dmaRam (n v : Nat) (x : Vppb) : (s.setVppb n v x).dmaRam = s.dmaRam := rfl
@[simp] theorem Chip.setVppb_scrubs (n v : Nat) (x : Vppb) : (s.setVppb n v x).scrubs = s.scrubs := rfl
@[simp] theorem Chip.setVppb_badWords (n v : Nat) (x : Vppb) : (s.setVppb n v x).badWords = s.badWords := rfl
@[simp] theorem Chip.setVppb_fuses (n v : Nat) (x : Vppb) : (s.setVppb n v x).fuses = s.fuses := rfl
@[simp] theorem Chip.setVppb_flash (n v : Nat) (x : Vppb) : (s.setVppb n v x).flash = s.flash := rfl
@[simp] theorem Chip.setVppb_mgmt (n v : Nat) (x : Vppb) : (s.setVppb n v x).mgmt = s.mgmt := rfl
@[simp] theorem Chip.setVppb_edges (n v : Nat) (x : Vppb) : (s.setVppb n v x).edges = s.edges := rfl
@[simp] theorem Chip.setVppb_samp (n v : Nat) (x : Vppb) : (s.setVppb n v x).samp = s.samp := rfl
@[simp] theorem Chip.setVppb_sampIrq (n v : Nat) (x : Vppb) : (s.setVppb n v x).sampIrq = s.sampIrq := rfl
@[simp] theorem Chip.setVppb_latches (n v : Nat) (x : Vppb) : (s.setVppb n v x).latches = s.latches := rfl
@[simp] theorem Chip.setVppb_pw (n v : Nat) (x : Vppb) : (s.setVppb n v x).pw = s.pw := rfl
@[simp] theorem Chip.setVppb_test (n v : Nat) (x : Vppb) : (s.setVppb n v x).test = s.test := rfl
@[simp] theorem Chip.setVppb_lcJob (n v : Nat) (x : Vppb) : (s.setVppb n v x).lcJob = s.lcJob := rfl
@[simp] theorem Chip.setVppb_challenge (n v : Nat) (x : Vppb) : (s.setVppb n v x).challenge = s.challenge := rfl
@[simp] theorem Chip.setVppb_jtag (n v : Nat) (x : Vppb) : (s.setVppb n v x).jtag = s.jtag := rfl
@[simp] theorem Chip.setVppb_scanLinks (n v : Nat) (x : Vppb) : (s.setVppb n v x).scanLinks = s.scanLinks := rfl
@[simp] theorem Chip.setVppb_boot (n v : Nat) (x : Vppb) : (s.setVppb n v x).boot = s.boot := rfl
@[simp] theorem Chip.setVppb_resetAt (n v : Nat) (x : Vppb) : (s.setVppb n v x).resetAt = s.resetAt := rfl
@[simp] theorem Chip.setVppb_eth (n v : Nat) (x : Vppb) : (s.setVppb n v x).eth = s.eth := rfl
@[simp] theorem Chip.setVppb_relay (n v : Nat) (x : Vppb) : (s.setVppb n v x).relay = s.relay := rfl
@[simp] theorem Chip.setVppb_mail (n v : Nat) (x : Vppb) : (s.setVppb n v x).mail = s.mail := rfl
@[simp] theorem Chip.setVppb_outbox (n v : Nat) (x : Vppb) : (s.setVppb n v x).outbox = s.outbox := rfl
@[simp] theorem Chip.setVppb_nextId (n v : Nat) (x : Vppb) : (s.setVppb n v x).nextId = s.nextId := rfl
@[simp] theorem Chip.setVppb_freeCtr (n v : Nat) (x : Vppb) : (s.setVppb n v x).freeCtr = s.freeCtr := rfl

@[simp] theorem Chip.setVsw_regs (n : Nat) (x : VcsX) : (s.setVsw n x).regs = s.regs := rfl
@[simp] theorem Chip.setVsw_sram (n : Nat) (x : VcsX) : (s.setVsw n x).sram = s.sram := rfl
@[simp] theorem Chip.setVsw_time (n : Nat) (x : VcsX) : (s.setVsw n x).time = s.time := rfl
@[simp] theorem Chip.setVsw_cnt (n : Nat) (x : VcsX) : (s.setVsw n x).cnt = s.cnt := rfl
@[simp] theorem Chip.setVsw_hist (n : Nat) (x : VcsX) : (s.setVsw n x).hist = s.hist := rfl
@[simp] theorem Chip.setVsw_ports (n : Nat) (x : VcsX) : (s.setVsw n x).ports = s.ports := rfl
@[simp] theorem Chip.setVsw_lanes (n : Nat) (x : VcsX) : (s.setVsw n x).lanes = s.lanes := rfl
@[simp] theorem Chip.setVsw_start (n : Nat) (x : VcsX) : (s.setVsw n x).start = s.start := rfl
@[simp] theorem Chip.setVsw_waveZero (n : Nat) (x : VcsX) : (s.setVsw n x).waveZero = s.waveZero := rfl
@[simp] theorem Chip.setVsw_waves (n : Nat) (x : VcsX) : (s.setVsw n x).waves = s.waves := rfl
@[simp] theorem Chip.setVsw_taken (n : Nat) (x : VcsX) : (s.setVsw n x).taken = s.taken := rfl
@[simp] theorem Chip.setVsw_noc (n : Nat) (x : VcsX) : (s.setVsw n x).noc = s.noc := rfl
@[simp] theorem Chip.setVsw_msgs (n : Nat) (x : VcsX) : (s.setVsw n x).msgs = s.msgs := rfl
@[simp] theorem Chip.setVsw_opens (n : Nat) (x : VcsX) : (s.setVsw n x).opens = s.opens := rfl
@[simp] theorem Chip.setVsw_ended (n : Nat) (x : VcsX) : (s.setVsw n x).ended = s.ended := rfl
@[simp] theorem Chip.setVsw_cuts (n : Nat) (x : VcsX) : (s.setVsw n x).cuts = s.cuts := rfl
@[simp] theorem Chip.setVsw_vppbs (n : Nat) (x : VcsX) : (s.setVsw n x).vppbs = s.vppbs := rfl
@[simp] theorem Chip.setVsw_pbr (n : Nat) (x : VcsX) : (s.setVsw n x).pbr = s.pbr := rfl
@[simp] theorem Chip.setVsw_wins (n : Nat) (x : VcsX) : (s.setVsw n x).wins = s.wins := rfl
@[simp] theorem Chip.setVsw_epochs (n : Nat) (x : VcsX) : (s.setVsw n x).epochs = s.epochs := rfl
@[simp] theorem Chip.setVsw_stalls (n : Nat) (x : VcsX) : (s.setVsw n x).stalls = s.stalls := rfl
@[simp] theorem Chip.setVsw_engOwn (n : Nat) (x : VcsX) : (s.setVsw n x).engOwn = s.engOwn := rfl
@[simp] theorem Chip.setVsw_engCmd (n : Nat) (x : VcsX) : (s.setVsw n x).engCmd = s.engCmd := rfl
@[simp] theorem Chip.setVsw_qOpen (n : Nat) (x : VcsX) : (s.setVsw n x).qOpen = s.qOpen := rfl
@[simp] theorem Chip.setVsw_qPressed (n : Nat) (x : VcsX) : (s.setVsw n x).qPressed = s.qPressed := rfl
@[simp] theorem Chip.setVsw_markers (n : Nat) (x : VcsX) : (s.setVsw n x).markers = s.markers := rfl
@[simp] theorem Chip.setVsw_stats (n : Nat) (x : VcsX) : (s.setVsw n x).stats = s.stats := rfl
@[simp] theorem Chip.setVsw_inners (n : Nat) (x : VcsX) : (s.setVsw n x).inners = s.inners := rfl
@[simp] theorem Chip.setVsw_snf (n : Nat) (x : VcsX) : (s.setVsw n x).snf = s.snf := rfl
@[simp] theorem Chip.setVsw_plru (n : Nat) (x : VcsX) : (s.setVsw n x).plru = s.plru := rfl
@[simp] theorem Chip.setVsw_txns (n : Nat) (x : VcsX) : (s.setVsw n x).txns = s.txns := rfl
@[simp] theorem Chip.setVsw_copies (n : Nat) (x : VcsX) : (s.setVsw n x).copies = s.copies := rfl
@[simp] theorem Chip.setVsw_snooped (n : Nat) (x : VcsX) : (s.setVsw n x).snooped = s.snooped := rfl
@[simp] theorem Chip.setVsw_gjobs (n : Nat) (x : VcsX) : (s.setVsw n x).gjobs = s.gjobs := rfl
@[simp] theorem Chip.setVsw_gholds (n : Nat) (x : VcsX) : (s.setVsw n x).gholds = s.gholds := rfl
@[simp] theorem Chip.setVsw_movAt (n : Nat) (x : VcsX) : (s.setVsw n x).movAt = s.movAt := rfl
@[simp] theorem Chip.setVsw_movLast (n : Nat) (x : VcsX) : (s.setVsw n x).movLast = s.movLast := rfl
@[simp] theorem Chip.setVsw_ert (n : Nat) (x : VcsX) : (s.setVsw n x).ert = s.ert := rfl
@[simp] theorem Chip.setVsw_mirrors (n : Nat) (x : VcsX) : (s.setVsw n x).mirrors = s.mirrors := rfl
@[simp] theorem Chip.setVsw_removals (n : Nat) (x : VcsX) : (s.setVsw n x).removals = s.removals := rfl
@[simp] theorem Chip.setVsw_imgBinds (n : Nat) (x : VcsX) : (s.setVsw n x).imgBinds = s.imgBinds := rfl
@[simp] theorem Chip.setVsw_imgInsts (n : Nat) (x : VcsX) : (s.setVsw n x).imgInsts = s.imgInsts := rfl
@[simp] theorem Chip.setVsw_settles (n : Nat) (x : VcsX) : (s.setVsw n x).settles = s.settles := rfl
@[simp] theorem Chip.setVsw_unpassed (n : Nat) (x : VcsX) : (s.setVsw n x).unpassed = s.unpassed := rfl
@[simp] theorem Chip.setVsw_slots (n : Nat) (x : VcsX) : (s.setVsw n x).slots = s.slots := rfl
@[simp] theorem Chip.setVsw_vinSnsBad (n : Nat) (x : VcsX) : (s.setVsw n x).vinSnsBad = s.vinSnsBad := rfl
@[simp] theorem Chip.setVsw_slotHold (n : Nat) (x : VcsX) : (s.setVsw n x).slotHold = s.slotHold := rfl
@[simp] theorem Chip.setVsw_fatal (n : Nat) (x : VcsX) : (s.setVsw n x).fatal = s.fatal := rfl
@[simp] theorem Chip.setVsw_failTest (n : Nat) (x : VcsX) : (s.setVsw n x).failTest = s.failTest := rfl
@[simp] theorem Chip.setVsw_beatLost (n : Nat) (x : VcsX) : (s.setVsw n x).beatLost = s.beatLost := rfl
@[simp] theorem Chip.setVsw_dieLost (n : Nat) (x : VcsX) : (s.setVsw n x).dieLost = s.dieLost := rfl
@[simp] theorem Chip.setVsw_started (n : Nat) (x : VcsX) : (s.setVsw n x).started = s.started := rfl
@[simp] theorem Chip.setVsw_merge (n : Nat) (x : VcsX) : (s.setVsw n x).merge = s.merge := rfl
@[simp] theorem Chip.setVsw_dmaRam (n : Nat) (x : VcsX) : (s.setVsw n x).dmaRam = s.dmaRam := rfl
@[simp] theorem Chip.setVsw_scrubs (n : Nat) (x : VcsX) : (s.setVsw n x).scrubs = s.scrubs := rfl
@[simp] theorem Chip.setVsw_badWords (n : Nat) (x : VcsX) : (s.setVsw n x).badWords = s.badWords := rfl
@[simp] theorem Chip.setVsw_fuses (n : Nat) (x : VcsX) : (s.setVsw n x).fuses = s.fuses := rfl
@[simp] theorem Chip.setVsw_flash (n : Nat) (x : VcsX) : (s.setVsw n x).flash = s.flash := rfl
@[simp] theorem Chip.setVsw_mgmt (n : Nat) (x : VcsX) : (s.setVsw n x).mgmt = s.mgmt := rfl
@[simp] theorem Chip.setVsw_edges (n : Nat) (x : VcsX) : (s.setVsw n x).edges = s.edges := rfl
@[simp] theorem Chip.setVsw_samp (n : Nat) (x : VcsX) : (s.setVsw n x).samp = s.samp := rfl
@[simp] theorem Chip.setVsw_sampIrq (n : Nat) (x : VcsX) : (s.setVsw n x).sampIrq = s.sampIrq := rfl
@[simp] theorem Chip.setVsw_latches (n : Nat) (x : VcsX) : (s.setVsw n x).latches = s.latches := rfl
@[simp] theorem Chip.setVsw_pw (n : Nat) (x : VcsX) : (s.setVsw n x).pw = s.pw := rfl
@[simp] theorem Chip.setVsw_test (n : Nat) (x : VcsX) : (s.setVsw n x).test = s.test := rfl
@[simp] theorem Chip.setVsw_lcJob (n : Nat) (x : VcsX) : (s.setVsw n x).lcJob = s.lcJob := rfl
@[simp] theorem Chip.setVsw_challenge (n : Nat) (x : VcsX) : (s.setVsw n x).challenge = s.challenge := rfl
@[simp] theorem Chip.setVsw_jtag (n : Nat) (x : VcsX) : (s.setVsw n x).jtag = s.jtag := rfl
@[simp] theorem Chip.setVsw_scanLinks (n : Nat) (x : VcsX) : (s.setVsw n x).scanLinks = s.scanLinks := rfl
@[simp] theorem Chip.setVsw_boot (n : Nat) (x : VcsX) : (s.setVsw n x).boot = s.boot := rfl
@[simp] theorem Chip.setVsw_resetAt (n : Nat) (x : VcsX) : (s.setVsw n x).resetAt = s.resetAt := rfl
@[simp] theorem Chip.setVsw_eth (n : Nat) (x : VcsX) : (s.setVsw n x).eth = s.eth := rfl
@[simp] theorem Chip.setVsw_relay (n : Nat) (x : VcsX) : (s.setVsw n x).relay = s.relay := rfl
@[simp] theorem Chip.setVsw_mail (n : Nat) (x : VcsX) : (s.setVsw n x).mail = s.mail := rfl
@[simp] theorem Chip.setVsw_outbox (n : Nat) (x : VcsX) : (s.setVsw n x).outbox = s.outbox := rfl
@[simp] theorem Chip.setVsw_nextId (n : Nat) (x : VcsX) : (s.setVsw n x).nextId = s.nextId := rfl
@[simp] theorem Chip.setVsw_freeCtr (n : Nat) (x : VcsX) : (s.setVsw n x).freeCtr = s.freeCtr := rfl

@[simp] theorem Chip.setWin_regs (n w : Nat) (x : Win) : (s.setWin n w x).regs = s.regs := rfl
@[simp] theorem Chip.setWin_sram (n w : Nat) (x : Win) : (s.setWin n w x).sram = s.sram := rfl
@[simp] theorem Chip.setWin_time (n w : Nat) (x : Win) : (s.setWin n w x).time = s.time := rfl
@[simp] theorem Chip.setWin_cnt (n w : Nat) (x : Win) : (s.setWin n w x).cnt = s.cnt := rfl
@[simp] theorem Chip.setWin_hist (n w : Nat) (x : Win) : (s.setWin n w x).hist = s.hist := rfl
@[simp] theorem Chip.setWin_ports (n w : Nat) (x : Win) : (s.setWin n w x).ports = s.ports := rfl
@[simp] theorem Chip.setWin_lanes (n w : Nat) (x : Win) : (s.setWin n w x).lanes = s.lanes := rfl
@[simp] theorem Chip.setWin_start (n w : Nat) (x : Win) : (s.setWin n w x).start = s.start := rfl
@[simp] theorem Chip.setWin_waveZero (n w : Nat) (x : Win) : (s.setWin n w x).waveZero = s.waveZero := rfl
@[simp] theorem Chip.setWin_waves (n w : Nat) (x : Win) : (s.setWin n w x).waves = s.waves := rfl
@[simp] theorem Chip.setWin_taken (n w : Nat) (x : Win) : (s.setWin n w x).taken = s.taken := rfl
@[simp] theorem Chip.setWin_noc (n w : Nat) (x : Win) : (s.setWin n w x).noc = s.noc := rfl
@[simp] theorem Chip.setWin_msgs (n w : Nat) (x : Win) : (s.setWin n w x).msgs = s.msgs := rfl
@[simp] theorem Chip.setWin_opens (n w : Nat) (x : Win) : (s.setWin n w x).opens = s.opens := rfl
@[simp] theorem Chip.setWin_ended (n w : Nat) (x : Win) : (s.setWin n w x).ended = s.ended := rfl
@[simp] theorem Chip.setWin_cuts (n w : Nat) (x : Win) : (s.setWin n w x).cuts = s.cuts := rfl
@[simp] theorem Chip.setWin_vppbs (n w : Nat) (x : Win) : (s.setWin n w x).vppbs = s.vppbs := rfl
@[simp] theorem Chip.setWin_vcs (n w : Nat) (x : Win) : (s.setWin n w x).vcs = s.vcs := rfl
@[simp] theorem Chip.setWin_pbr (n w : Nat) (x : Win) : (s.setWin n w x).pbr = s.pbr := rfl
@[simp] theorem Chip.setWin_epochs (n w : Nat) (x : Win) : (s.setWin n w x).epochs = s.epochs := rfl
@[simp] theorem Chip.setWin_stalls (n w : Nat) (x : Win) : (s.setWin n w x).stalls = s.stalls := rfl
@[simp] theorem Chip.setWin_engOwn (n w : Nat) (x : Win) : (s.setWin n w x).engOwn = s.engOwn := rfl
@[simp] theorem Chip.setWin_engCmd (n w : Nat) (x : Win) : (s.setWin n w x).engCmd = s.engCmd := rfl
@[simp] theorem Chip.setWin_qOpen (n w : Nat) (x : Win) : (s.setWin n w x).qOpen = s.qOpen := rfl
@[simp] theorem Chip.setWin_qPressed (n w : Nat) (x : Win) : (s.setWin n w x).qPressed = s.qPressed := rfl
@[simp] theorem Chip.setWin_markers (n w : Nat) (x : Win) : (s.setWin n w x).markers = s.markers := rfl
@[simp] theorem Chip.setWin_stats (n w : Nat) (x : Win) : (s.setWin n w x).stats = s.stats := rfl
@[simp] theorem Chip.setWin_inners (n w : Nat) (x : Win) : (s.setWin n w x).inners = s.inners := rfl
@[simp] theorem Chip.setWin_snf (n w : Nat) (x : Win) : (s.setWin n w x).snf = s.snf := rfl
@[simp] theorem Chip.setWin_plru (n w : Nat) (x : Win) : (s.setWin n w x).plru = s.plru := rfl
@[simp] theorem Chip.setWin_txns (n w : Nat) (x : Win) : (s.setWin n w x).txns = s.txns := rfl
@[simp] theorem Chip.setWin_copies (n w : Nat) (x : Win) : (s.setWin n w x).copies = s.copies := rfl
@[simp] theorem Chip.setWin_snooped (n w : Nat) (x : Win) : (s.setWin n w x).snooped = s.snooped := rfl
@[simp] theorem Chip.setWin_gjobs (n w : Nat) (x : Win) : (s.setWin n w x).gjobs = s.gjobs := rfl
@[simp] theorem Chip.setWin_gholds (n w : Nat) (x : Win) : (s.setWin n w x).gholds = s.gholds := rfl
@[simp] theorem Chip.setWin_movAt (n w : Nat) (x : Win) : (s.setWin n w x).movAt = s.movAt := rfl
@[simp] theorem Chip.setWin_movLast (n w : Nat) (x : Win) : (s.setWin n w x).movLast = s.movLast := rfl
@[simp] theorem Chip.setWin_ert (n w : Nat) (x : Win) : (s.setWin n w x).ert = s.ert := rfl
@[simp] theorem Chip.setWin_mirrors (n w : Nat) (x : Win) : (s.setWin n w x).mirrors = s.mirrors := rfl
@[simp] theorem Chip.setWin_removals (n w : Nat) (x : Win) : (s.setWin n w x).removals = s.removals := rfl
@[simp] theorem Chip.setWin_imgBinds (n w : Nat) (x : Win) : (s.setWin n w x).imgBinds = s.imgBinds := rfl
@[simp] theorem Chip.setWin_imgInsts (n w : Nat) (x : Win) : (s.setWin n w x).imgInsts = s.imgInsts := rfl
@[simp] theorem Chip.setWin_settles (n w : Nat) (x : Win) : (s.setWin n w x).settles = s.settles := rfl
@[simp] theorem Chip.setWin_unpassed (n w : Nat) (x : Win) : (s.setWin n w x).unpassed = s.unpassed := rfl
@[simp] theorem Chip.setWin_slots (n w : Nat) (x : Win) : (s.setWin n w x).slots = s.slots := rfl
@[simp] theorem Chip.setWin_vinSnsBad (n w : Nat) (x : Win) : (s.setWin n w x).vinSnsBad = s.vinSnsBad := rfl
@[simp] theorem Chip.setWin_slotHold (n w : Nat) (x : Win) : (s.setWin n w x).slotHold = s.slotHold := rfl
@[simp] theorem Chip.setWin_fatal (n w : Nat) (x : Win) : (s.setWin n w x).fatal = s.fatal := rfl
@[simp] theorem Chip.setWin_failTest (n w : Nat) (x : Win) : (s.setWin n w x).failTest = s.failTest := rfl
@[simp] theorem Chip.setWin_beatLost (n w : Nat) (x : Win) : (s.setWin n w x).beatLost = s.beatLost := rfl
@[simp] theorem Chip.setWin_dieLost (n w : Nat) (x : Win) : (s.setWin n w x).dieLost = s.dieLost := rfl
@[simp] theorem Chip.setWin_started (n w : Nat) (x : Win) : (s.setWin n w x).started = s.started := rfl
@[simp] theorem Chip.setWin_merge (n w : Nat) (x : Win) : (s.setWin n w x).merge = s.merge := rfl
@[simp] theorem Chip.setWin_dmaRam (n w : Nat) (x : Win) : (s.setWin n w x).dmaRam = s.dmaRam := rfl
@[simp] theorem Chip.setWin_scrubs (n w : Nat) (x : Win) : (s.setWin n w x).scrubs = s.scrubs := rfl
@[simp] theorem Chip.setWin_badWords (n w : Nat) (x : Win) : (s.setWin n w x).badWords = s.badWords := rfl
@[simp] theorem Chip.setWin_fuses (n w : Nat) (x : Win) : (s.setWin n w x).fuses = s.fuses := rfl
@[simp] theorem Chip.setWin_flash (n w : Nat) (x : Win) : (s.setWin n w x).flash = s.flash := rfl
@[simp] theorem Chip.setWin_mgmt (n w : Nat) (x : Win) : (s.setWin n w x).mgmt = s.mgmt := rfl
@[simp] theorem Chip.setWin_edges (n w : Nat) (x : Win) : (s.setWin n w x).edges = s.edges := rfl
@[simp] theorem Chip.setWin_samp (n w : Nat) (x : Win) : (s.setWin n w x).samp = s.samp := rfl
@[simp] theorem Chip.setWin_sampIrq (n w : Nat) (x : Win) : (s.setWin n w x).sampIrq = s.sampIrq := rfl
@[simp] theorem Chip.setWin_latches (n w : Nat) (x : Win) : (s.setWin n w x).latches = s.latches := rfl
@[simp] theorem Chip.setWin_pw (n w : Nat) (x : Win) : (s.setWin n w x).pw = s.pw := rfl
@[simp] theorem Chip.setWin_test (n w : Nat) (x : Win) : (s.setWin n w x).test = s.test := rfl
@[simp] theorem Chip.setWin_lcJob (n w : Nat) (x : Win) : (s.setWin n w x).lcJob = s.lcJob := rfl
@[simp] theorem Chip.setWin_challenge (n w : Nat) (x : Win) : (s.setWin n w x).challenge = s.challenge := rfl
@[simp] theorem Chip.setWin_jtag (n w : Nat) (x : Win) : (s.setWin n w x).jtag = s.jtag := rfl
@[simp] theorem Chip.setWin_scanLinks (n w : Nat) (x : Win) : (s.setWin n w x).scanLinks = s.scanLinks := rfl
@[simp] theorem Chip.setWin_boot (n w : Nat) (x : Win) : (s.setWin n w x).boot = s.boot := rfl
@[simp] theorem Chip.setWin_resetAt (n w : Nat) (x : Win) : (s.setWin n w x).resetAt = s.resetAt := rfl
@[simp] theorem Chip.setWin_eth (n w : Nat) (x : Win) : (s.setWin n w x).eth = s.eth := rfl
@[simp] theorem Chip.setWin_relay (n w : Nat) (x : Win) : (s.setWin n w x).relay = s.relay := rfl
@[simp] theorem Chip.setWin_mail (n w : Nat) (x : Win) : (s.setWin n w x).mail = s.mail := rfl
@[simp] theorem Chip.setWin_outbox (n w : Nat) (x : Win) : (s.setWin n w x).outbox = s.outbox := rfl
@[simp] theorem Chip.setWin_nextId (n w : Nat) (x : Win) : (s.setWin n w x).nextId = s.nextId := rfl
@[simp] theorem Chip.setWin_freeCtr (n w : Nat) (x : Win) : (s.setWin n w x).freeCtr = s.freeCtr := rfl

@[simp] theorem Chip.setRamByte_regs (a : Nat) (v : Byte) : (s.setRamByte a v).regs = s.regs := rfl
@[simp] theorem Chip.setRamByte_time (a : Nat) (v : Byte) : (s.setRamByte a v).time = s.time := rfl
@[simp] theorem Chip.setRamByte_cnt (a : Nat) (v : Byte) : (s.setRamByte a v).cnt = s.cnt := rfl
@[simp] theorem Chip.setRamByte_hist (a : Nat) (v : Byte) : (s.setRamByte a v).hist = s.hist := rfl
@[simp] theorem Chip.setRamByte_ports (a : Nat) (v : Byte) : (s.setRamByte a v).ports = s.ports := rfl
@[simp] theorem Chip.setRamByte_lanes (a : Nat) (v : Byte) : (s.setRamByte a v).lanes = s.lanes := rfl
@[simp] theorem Chip.setRamByte_start (a : Nat) (v : Byte) : (s.setRamByte a v).start = s.start := rfl
@[simp] theorem Chip.setRamByte_waveZero (a : Nat) (v : Byte) : (s.setRamByte a v).waveZero = s.waveZero := rfl
@[simp] theorem Chip.setRamByte_waves (a : Nat) (v : Byte) : (s.setRamByte a v).waves = s.waves := rfl
@[simp] theorem Chip.setRamByte_taken (a : Nat) (v : Byte) : (s.setRamByte a v).taken = s.taken := rfl
@[simp] theorem Chip.setRamByte_noc (a : Nat) (v : Byte) : (s.setRamByte a v).noc = s.noc := rfl
@[simp] theorem Chip.setRamByte_msgs (a : Nat) (v : Byte) : (s.setRamByte a v).msgs = s.msgs := rfl
@[simp] theorem Chip.setRamByte_opens (a : Nat) (v : Byte) : (s.setRamByte a v).opens = s.opens := rfl
@[simp] theorem Chip.setRamByte_ended (a : Nat) (v : Byte) : (s.setRamByte a v).ended = s.ended := rfl
@[simp] theorem Chip.setRamByte_cuts (a : Nat) (v : Byte) : (s.setRamByte a v).cuts = s.cuts := rfl
@[simp] theorem Chip.setRamByte_vppbs (a : Nat) (v : Byte) : (s.setRamByte a v).vppbs = s.vppbs := rfl
@[simp] theorem Chip.setRamByte_vcs (a : Nat) (v : Byte) : (s.setRamByte a v).vcs = s.vcs := rfl
@[simp] theorem Chip.setRamByte_pbr (a : Nat) (v : Byte) : (s.setRamByte a v).pbr = s.pbr := rfl
@[simp] theorem Chip.setRamByte_wins (a : Nat) (v : Byte) : (s.setRamByte a v).wins = s.wins := rfl
@[simp] theorem Chip.setRamByte_epochs (a : Nat) (v : Byte) : (s.setRamByte a v).epochs = s.epochs := rfl
@[simp] theorem Chip.setRamByte_stalls (a : Nat) (v : Byte) : (s.setRamByte a v).stalls = s.stalls := rfl
@[simp] theorem Chip.setRamByte_engOwn (a : Nat) (v : Byte) : (s.setRamByte a v).engOwn = s.engOwn := rfl
@[simp] theorem Chip.setRamByte_engCmd (a : Nat) (v : Byte) : (s.setRamByte a v).engCmd = s.engCmd := rfl
@[simp] theorem Chip.setRamByte_qOpen (a : Nat) (v : Byte) : (s.setRamByte a v).qOpen = s.qOpen := rfl
@[simp] theorem Chip.setRamByte_qPressed (a : Nat) (v : Byte) : (s.setRamByte a v).qPressed = s.qPressed := rfl
@[simp] theorem Chip.setRamByte_markers (a : Nat) (v : Byte) : (s.setRamByte a v).markers = s.markers := rfl
@[simp] theorem Chip.setRamByte_stats (a : Nat) (v : Byte) : (s.setRamByte a v).stats = s.stats := rfl
@[simp] theorem Chip.setRamByte_inners (a : Nat) (v : Byte) : (s.setRamByte a v).inners = s.inners := rfl
@[simp] theorem Chip.setRamByte_snf (a : Nat) (v : Byte) : (s.setRamByte a v).snf = s.snf := rfl
@[simp] theorem Chip.setRamByte_plru (a : Nat) (v : Byte) : (s.setRamByte a v).plru = s.plru := rfl
@[simp] theorem Chip.setRamByte_txns (a : Nat) (v : Byte) : (s.setRamByte a v).txns = s.txns := rfl
@[simp] theorem Chip.setRamByte_copies (a : Nat) (v : Byte) : (s.setRamByte a v).copies = s.copies := rfl
@[simp] theorem Chip.setRamByte_snooped (a : Nat) (v : Byte) : (s.setRamByte a v).snooped = s.snooped := rfl
@[simp] theorem Chip.setRamByte_gjobs (a : Nat) (v : Byte) : (s.setRamByte a v).gjobs = s.gjobs := rfl
@[simp] theorem Chip.setRamByte_gholds (a : Nat) (v : Byte) : (s.setRamByte a v).gholds = s.gholds := rfl
@[simp] theorem Chip.setRamByte_movAt (a : Nat) (v : Byte) : (s.setRamByte a v).movAt = s.movAt := rfl
@[simp] theorem Chip.setRamByte_movLast (a : Nat) (v : Byte) : (s.setRamByte a v).movLast = s.movLast := rfl
@[simp] theorem Chip.setRamByte_ert (a : Nat) (v : Byte) : (s.setRamByte a v).ert = s.ert := rfl
@[simp] theorem Chip.setRamByte_mirrors (a : Nat) (v : Byte) : (s.setRamByte a v).mirrors = s.mirrors := rfl
@[simp] theorem Chip.setRamByte_removals (a : Nat) (v : Byte) : (s.setRamByte a v).removals = s.removals := rfl
@[simp] theorem Chip.setRamByte_imgBinds (a : Nat) (v : Byte) : (s.setRamByte a v).imgBinds = s.imgBinds := rfl
@[simp] theorem Chip.setRamByte_imgInsts (a : Nat) (v : Byte) : (s.setRamByte a v).imgInsts = s.imgInsts := rfl
@[simp] theorem Chip.setRamByte_settles (a : Nat) (v : Byte) : (s.setRamByte a v).settles = s.settles := rfl
@[simp] theorem Chip.setRamByte_unpassed (a : Nat) (v : Byte) : (s.setRamByte a v).unpassed = s.unpassed := rfl
@[simp] theorem Chip.setRamByte_slots (a : Nat) (v : Byte) : (s.setRamByte a v).slots = s.slots := rfl
@[simp] theorem Chip.setRamByte_vinSnsBad (a : Nat) (v : Byte) : (s.setRamByte a v).vinSnsBad = s.vinSnsBad := rfl
@[simp] theorem Chip.setRamByte_slotHold (a : Nat) (v : Byte) : (s.setRamByte a v).slotHold = s.slotHold := rfl
@[simp] theorem Chip.setRamByte_fatal (a : Nat) (v : Byte) : (s.setRamByte a v).fatal = s.fatal := rfl
@[simp] theorem Chip.setRamByte_failTest (a : Nat) (v : Byte) : (s.setRamByte a v).failTest = s.failTest := rfl
@[simp] theorem Chip.setRamByte_beatLost (a : Nat) (v : Byte) : (s.setRamByte a v).beatLost = s.beatLost := rfl
@[simp] theorem Chip.setRamByte_dieLost (a : Nat) (v : Byte) : (s.setRamByte a v).dieLost = s.dieLost := rfl
@[simp] theorem Chip.setRamByte_started (a : Nat) (v : Byte) : (s.setRamByte a v).started = s.started := rfl
@[simp] theorem Chip.setRamByte_merge (a : Nat) (v : Byte) : (s.setRamByte a v).merge = s.merge := rfl
@[simp] theorem Chip.setRamByte_dmaRam (a : Nat) (v : Byte) : (s.setRamByte a v).dmaRam = s.dmaRam := rfl
@[simp] theorem Chip.setRamByte_scrubs (a : Nat) (v : Byte) : (s.setRamByte a v).scrubs = s.scrubs := rfl
@[simp] theorem Chip.setRamByte_badWords (a : Nat) (v : Byte) : (s.setRamByte a v).badWords = s.badWords := rfl
@[simp] theorem Chip.setRamByte_fuses (a : Nat) (v : Byte) : (s.setRamByte a v).fuses = s.fuses := rfl
@[simp] theorem Chip.setRamByte_flash (a : Nat) (v : Byte) : (s.setRamByte a v).flash = s.flash := rfl
@[simp] theorem Chip.setRamByte_mgmt (a : Nat) (v : Byte) : (s.setRamByte a v).mgmt = s.mgmt := rfl
@[simp] theorem Chip.setRamByte_edges (a : Nat) (v : Byte) : (s.setRamByte a v).edges = s.edges := rfl
@[simp] theorem Chip.setRamByte_samp (a : Nat) (v : Byte) : (s.setRamByte a v).samp = s.samp := rfl
@[simp] theorem Chip.setRamByte_sampIrq (a : Nat) (v : Byte) : (s.setRamByte a v).sampIrq = s.sampIrq := rfl
@[simp] theorem Chip.setRamByte_latches (a : Nat) (v : Byte) : (s.setRamByte a v).latches = s.latches := rfl
@[simp] theorem Chip.setRamByte_pw (a : Nat) (v : Byte) : (s.setRamByte a v).pw = s.pw := rfl
@[simp] theorem Chip.setRamByte_test (a : Nat) (v : Byte) : (s.setRamByte a v).test = s.test := rfl
@[simp] theorem Chip.setRamByte_lcJob (a : Nat) (v : Byte) : (s.setRamByte a v).lcJob = s.lcJob := rfl
@[simp] theorem Chip.setRamByte_challenge (a : Nat) (v : Byte) : (s.setRamByte a v).challenge = s.challenge := rfl
@[simp] theorem Chip.setRamByte_jtag (a : Nat) (v : Byte) : (s.setRamByte a v).jtag = s.jtag := rfl
@[simp] theorem Chip.setRamByte_scanLinks (a : Nat) (v : Byte) : (s.setRamByte a v).scanLinks = s.scanLinks := rfl
@[simp] theorem Chip.setRamByte_boot (a : Nat) (v : Byte) : (s.setRamByte a v).boot = s.boot := rfl
@[simp] theorem Chip.setRamByte_resetAt (a : Nat) (v : Byte) : (s.setRamByte a v).resetAt = s.resetAt := rfl
@[simp] theorem Chip.setRamByte_eth (a : Nat) (v : Byte) : (s.setRamByte a v).eth = s.eth := rfl
@[simp] theorem Chip.setRamByte_relay (a : Nat) (v : Byte) : (s.setRamByte a v).relay = s.relay := rfl
@[simp] theorem Chip.setRamByte_mail (a : Nat) (v : Byte) : (s.setRamByte a v).mail = s.mail := rfl
@[simp] theorem Chip.setRamByte_outbox (a : Nat) (v : Byte) : (s.setRamByte a v).outbox = s.outbox := rfl
@[simp] theorem Chip.setRamByte_nextId (a : Nat) (v : Byte) : (s.setRamByte a v).nextId = s.nextId := rfl
@[simp] theorem Chip.setRamByte_freeCtr (a : Nat) (v : Byte) : (s.setRamByte a v).freeCtr = s.freeCtr := rfl

@[simp] theorem Chip.fresh_regs : (s.fresh).regs = s.regs := rfl
@[simp] theorem Chip.fresh_sram : (s.fresh).sram = s.sram := rfl
@[simp] theorem Chip.fresh_time : (s.fresh).time = s.time := rfl
@[simp] theorem Chip.fresh_cnt : (s.fresh).cnt = s.cnt := rfl
@[simp] theorem Chip.fresh_hist : (s.fresh).hist = s.hist := rfl
@[simp] theorem Chip.fresh_ports : (s.fresh).ports = s.ports := rfl
@[simp] theorem Chip.fresh_lanes : (s.fresh).lanes = s.lanes := rfl
@[simp] theorem Chip.fresh_start : (s.fresh).start = s.start := rfl
@[simp] theorem Chip.fresh_waveZero : (s.fresh).waveZero = s.waveZero := rfl
@[simp] theorem Chip.fresh_waves : (s.fresh).waves = s.waves := rfl
@[simp] theorem Chip.fresh_taken : (s.fresh).taken = s.taken := rfl
@[simp] theorem Chip.fresh_noc : (s.fresh).noc = s.noc := rfl
@[simp] theorem Chip.fresh_msgs : (s.fresh).msgs = s.msgs := rfl
@[simp] theorem Chip.fresh_opens : (s.fresh).opens = s.opens := rfl
@[simp] theorem Chip.fresh_ended : (s.fresh).ended = s.ended := rfl
@[simp] theorem Chip.fresh_cuts : (s.fresh).cuts = s.cuts := rfl
@[simp] theorem Chip.fresh_vppbs : (s.fresh).vppbs = s.vppbs := rfl
@[simp] theorem Chip.fresh_vcs : (s.fresh).vcs = s.vcs := rfl
@[simp] theorem Chip.fresh_pbr : (s.fresh).pbr = s.pbr := rfl
@[simp] theorem Chip.fresh_wins : (s.fresh).wins = s.wins := rfl
@[simp] theorem Chip.fresh_epochs : (s.fresh).epochs = s.epochs := rfl
@[simp] theorem Chip.fresh_stalls : (s.fresh).stalls = s.stalls := rfl
@[simp] theorem Chip.fresh_engOwn : (s.fresh).engOwn = s.engOwn := rfl
@[simp] theorem Chip.fresh_engCmd : (s.fresh).engCmd = s.engCmd := rfl
@[simp] theorem Chip.fresh_qOpen : (s.fresh).qOpen = s.qOpen := rfl
@[simp] theorem Chip.fresh_qPressed : (s.fresh).qPressed = s.qPressed := rfl
@[simp] theorem Chip.fresh_markers : (s.fresh).markers = s.markers := rfl
@[simp] theorem Chip.fresh_stats : (s.fresh).stats = s.stats := rfl
@[simp] theorem Chip.fresh_inners : (s.fresh).inners = s.inners := rfl
@[simp] theorem Chip.fresh_snf : (s.fresh).snf = s.snf := rfl
@[simp] theorem Chip.fresh_plru : (s.fresh).plru = s.plru := rfl
@[simp] theorem Chip.fresh_txns : (s.fresh).txns = s.txns := rfl
@[simp] theorem Chip.fresh_copies : (s.fresh).copies = s.copies := rfl
@[simp] theorem Chip.fresh_snooped : (s.fresh).snooped = s.snooped := rfl
@[simp] theorem Chip.fresh_gjobs : (s.fresh).gjobs = s.gjobs := rfl
@[simp] theorem Chip.fresh_gholds : (s.fresh).gholds = s.gholds := rfl
@[simp] theorem Chip.fresh_movAt : (s.fresh).movAt = s.movAt := rfl
@[simp] theorem Chip.fresh_movLast : (s.fresh).movLast = s.movLast := rfl
@[simp] theorem Chip.fresh_ert : (s.fresh).ert = s.ert := rfl
@[simp] theorem Chip.fresh_mirrors : (s.fresh).mirrors = s.mirrors := rfl
@[simp] theorem Chip.fresh_removals : (s.fresh).removals = s.removals := rfl
@[simp] theorem Chip.fresh_imgBinds : (s.fresh).imgBinds = s.imgBinds := rfl
@[simp] theorem Chip.fresh_imgInsts : (s.fresh).imgInsts = s.imgInsts := rfl
@[simp] theorem Chip.fresh_settles : (s.fresh).settles = s.settles := rfl
@[simp] theorem Chip.fresh_unpassed : (s.fresh).unpassed = s.unpassed := rfl
@[simp] theorem Chip.fresh_slots : (s.fresh).slots = s.slots := rfl
@[simp] theorem Chip.fresh_vinSnsBad : (s.fresh).vinSnsBad = s.vinSnsBad := rfl
@[simp] theorem Chip.fresh_slotHold : (s.fresh).slotHold = s.slotHold := rfl
@[simp] theorem Chip.fresh_fatal : (s.fresh).fatal = s.fatal := rfl
@[simp] theorem Chip.fresh_failTest : (s.fresh).failTest = s.failTest := rfl
@[simp] theorem Chip.fresh_beatLost : (s.fresh).beatLost = s.beatLost := rfl
@[simp] theorem Chip.fresh_dieLost : (s.fresh).dieLost = s.dieLost := rfl
@[simp] theorem Chip.fresh_started : (s.fresh).started = s.started := rfl
@[simp] theorem Chip.fresh_merge : (s.fresh).merge = s.merge := rfl
@[simp] theorem Chip.fresh_dmaRam : (s.fresh).dmaRam = s.dmaRam := rfl
@[simp] theorem Chip.fresh_scrubs : (s.fresh).scrubs = s.scrubs := rfl
@[simp] theorem Chip.fresh_badWords : (s.fresh).badWords = s.badWords := rfl
@[simp] theorem Chip.fresh_fuses : (s.fresh).fuses = s.fuses := rfl
@[simp] theorem Chip.fresh_flash : (s.fresh).flash = s.flash := rfl
@[simp] theorem Chip.fresh_mgmt : (s.fresh).mgmt = s.mgmt := rfl
@[simp] theorem Chip.fresh_edges : (s.fresh).edges = s.edges := rfl
@[simp] theorem Chip.fresh_samp : (s.fresh).samp = s.samp := rfl
@[simp] theorem Chip.fresh_sampIrq : (s.fresh).sampIrq = s.sampIrq := rfl
@[simp] theorem Chip.fresh_latches : (s.fresh).latches = s.latches := rfl
@[simp] theorem Chip.fresh_pw : (s.fresh).pw = s.pw := rfl
@[simp] theorem Chip.fresh_test : (s.fresh).test = s.test := rfl
@[simp] theorem Chip.fresh_lcJob : (s.fresh).lcJob = s.lcJob := rfl
@[simp] theorem Chip.fresh_challenge : (s.fresh).challenge = s.challenge := rfl
@[simp] theorem Chip.fresh_jtag : (s.fresh).jtag = s.jtag := rfl
@[simp] theorem Chip.fresh_scanLinks : (s.fresh).scanLinks = s.scanLinks := rfl
@[simp] theorem Chip.fresh_boot : (s.fresh).boot = s.boot := rfl
@[simp] theorem Chip.fresh_resetAt : (s.fresh).resetAt = s.resetAt := rfl
@[simp] theorem Chip.fresh_eth : (s.fresh).eth = s.eth := rfl
@[simp] theorem Chip.fresh_relay : (s.fresh).relay = s.relay := rfl
@[simp] theorem Chip.fresh_mail : (s.fresh).mail = s.mail := rfl
@[simp] theorem Chip.fresh_outbox : (s.fresh).outbox = s.outbox := rfl
@[simp] theorem Chip.fresh_freeCtr : (s.fresh).freeCtr = s.freeCtr := rfl

@[simp] theorem Chip.useFree_regs : (s.useFree).regs = s.regs := rfl
@[simp] theorem Chip.useFree_sram : (s.useFree).sram = s.sram := rfl
@[simp] theorem Chip.useFree_time : (s.useFree).time = s.time := rfl
@[simp] theorem Chip.useFree_cnt : (s.useFree).cnt = s.cnt := rfl
@[simp] theorem Chip.useFree_hist : (s.useFree).hist = s.hist := rfl
@[simp] theorem Chip.useFree_ports : (s.useFree).ports = s.ports := rfl
@[simp] theorem Chip.useFree_lanes : (s.useFree).lanes = s.lanes := rfl
@[simp] theorem Chip.useFree_start : (s.useFree).start = s.start := rfl
@[simp] theorem Chip.useFree_waveZero : (s.useFree).waveZero = s.waveZero := rfl
@[simp] theorem Chip.useFree_waves : (s.useFree).waves = s.waves := rfl
@[simp] theorem Chip.useFree_taken : (s.useFree).taken = s.taken := rfl
@[simp] theorem Chip.useFree_noc : (s.useFree).noc = s.noc := rfl
@[simp] theorem Chip.useFree_msgs : (s.useFree).msgs = s.msgs := rfl
@[simp] theorem Chip.useFree_opens : (s.useFree).opens = s.opens := rfl
@[simp] theorem Chip.useFree_ended : (s.useFree).ended = s.ended := rfl
@[simp] theorem Chip.useFree_cuts : (s.useFree).cuts = s.cuts := rfl
@[simp] theorem Chip.useFree_vppbs : (s.useFree).vppbs = s.vppbs := rfl
@[simp] theorem Chip.useFree_vcs : (s.useFree).vcs = s.vcs := rfl
@[simp] theorem Chip.useFree_pbr : (s.useFree).pbr = s.pbr := rfl
@[simp] theorem Chip.useFree_wins : (s.useFree).wins = s.wins := rfl
@[simp] theorem Chip.useFree_epochs : (s.useFree).epochs = s.epochs := rfl
@[simp] theorem Chip.useFree_stalls : (s.useFree).stalls = s.stalls := rfl
@[simp] theorem Chip.useFree_engOwn : (s.useFree).engOwn = s.engOwn := rfl
@[simp] theorem Chip.useFree_engCmd : (s.useFree).engCmd = s.engCmd := rfl
@[simp] theorem Chip.useFree_qOpen : (s.useFree).qOpen = s.qOpen := rfl
@[simp] theorem Chip.useFree_qPressed : (s.useFree).qPressed = s.qPressed := rfl
@[simp] theorem Chip.useFree_markers : (s.useFree).markers = s.markers := rfl
@[simp] theorem Chip.useFree_stats : (s.useFree).stats = s.stats := rfl
@[simp] theorem Chip.useFree_inners : (s.useFree).inners = s.inners := rfl
@[simp] theorem Chip.useFree_snf : (s.useFree).snf = s.snf := rfl
@[simp] theorem Chip.useFree_plru : (s.useFree).plru = s.plru := rfl
@[simp] theorem Chip.useFree_txns : (s.useFree).txns = s.txns := rfl
@[simp] theorem Chip.useFree_copies : (s.useFree).copies = s.copies := rfl
@[simp] theorem Chip.useFree_snooped : (s.useFree).snooped = s.snooped := rfl
@[simp] theorem Chip.useFree_gjobs : (s.useFree).gjobs = s.gjobs := rfl
@[simp] theorem Chip.useFree_gholds : (s.useFree).gholds = s.gholds := rfl
@[simp] theorem Chip.useFree_movAt : (s.useFree).movAt = s.movAt := rfl
@[simp] theorem Chip.useFree_movLast : (s.useFree).movLast = s.movLast := rfl
@[simp] theorem Chip.useFree_ert : (s.useFree).ert = s.ert := rfl
@[simp] theorem Chip.useFree_mirrors : (s.useFree).mirrors = s.mirrors := rfl
@[simp] theorem Chip.useFree_removals : (s.useFree).removals = s.removals := rfl
@[simp] theorem Chip.useFree_imgBinds : (s.useFree).imgBinds = s.imgBinds := rfl
@[simp] theorem Chip.useFree_imgInsts : (s.useFree).imgInsts = s.imgInsts := rfl
@[simp] theorem Chip.useFree_settles : (s.useFree).settles = s.settles := rfl
@[simp] theorem Chip.useFree_unpassed : (s.useFree).unpassed = s.unpassed := rfl
@[simp] theorem Chip.useFree_slots : (s.useFree).slots = s.slots := rfl
@[simp] theorem Chip.useFree_vinSnsBad : (s.useFree).vinSnsBad = s.vinSnsBad := rfl
@[simp] theorem Chip.useFree_slotHold : (s.useFree).slotHold = s.slotHold := rfl
@[simp] theorem Chip.useFree_fatal : (s.useFree).fatal = s.fatal := rfl
@[simp] theorem Chip.useFree_failTest : (s.useFree).failTest = s.failTest := rfl
@[simp] theorem Chip.useFree_beatLost : (s.useFree).beatLost = s.beatLost := rfl
@[simp] theorem Chip.useFree_dieLost : (s.useFree).dieLost = s.dieLost := rfl
@[simp] theorem Chip.useFree_started : (s.useFree).started = s.started := rfl
@[simp] theorem Chip.useFree_merge : (s.useFree).merge = s.merge := rfl
@[simp] theorem Chip.useFree_dmaRam : (s.useFree).dmaRam = s.dmaRam := rfl
@[simp] theorem Chip.useFree_scrubs : (s.useFree).scrubs = s.scrubs := rfl
@[simp] theorem Chip.useFree_badWords : (s.useFree).badWords = s.badWords := rfl
@[simp] theorem Chip.useFree_fuses : (s.useFree).fuses = s.fuses := rfl
@[simp] theorem Chip.useFree_flash : (s.useFree).flash = s.flash := rfl
@[simp] theorem Chip.useFree_mgmt : (s.useFree).mgmt = s.mgmt := rfl
@[simp] theorem Chip.useFree_edges : (s.useFree).edges = s.edges := rfl
@[simp] theorem Chip.useFree_samp : (s.useFree).samp = s.samp := rfl
@[simp] theorem Chip.useFree_sampIrq : (s.useFree).sampIrq = s.sampIrq := rfl
@[simp] theorem Chip.useFree_latches : (s.useFree).latches = s.latches := rfl
@[simp] theorem Chip.useFree_pw : (s.useFree).pw = s.pw := rfl
@[simp] theorem Chip.useFree_test : (s.useFree).test = s.test := rfl
@[simp] theorem Chip.useFree_lcJob : (s.useFree).lcJob = s.lcJob := rfl
@[simp] theorem Chip.useFree_challenge : (s.useFree).challenge = s.challenge := rfl
@[simp] theorem Chip.useFree_jtag : (s.useFree).jtag = s.jtag := rfl
@[simp] theorem Chip.useFree_scanLinks : (s.useFree).scanLinks = s.scanLinks := rfl
@[simp] theorem Chip.useFree_boot : (s.useFree).boot = s.boot := rfl
@[simp] theorem Chip.useFree_resetAt : (s.useFree).resetAt = s.resetAt := rfl
@[simp] theorem Chip.useFree_eth : (s.useFree).eth = s.eth := rfl
@[simp] theorem Chip.useFree_relay : (s.useFree).relay = s.relay := rfl
@[simp] theorem Chip.useFree_mail : (s.useFree).mail = s.mail := rfl
@[simp] theorem Chip.useFree_outbox : (s.useFree).outbox = s.outbox := rfl
@[simp] theorem Chip.useFree_nextId : (s.useFree).nextId = s.nextId := rfl

/-- Counting changes counters, their sticky bits and words found uncorrectable, and nothing else (R354, R355). -/
theorem Chip.count_only (n k : Nat) :
    { s.count n k with cnt := s.cnt, badWords := s.badWords, regs := s.regs } = s := by
  unfold Chip.count Chip.freshCount Chip.sticky
  simp only
  split <;> split <;> rfl

@[simp] theorem Chip.count_sram (n k : Nat) : (s.count n k).sram = s.sram :=
  (congrArg Chip.sram (Chip.count_only s n k) :)
@[simp] theorem Chip.count_time (n k : Nat) : (s.count n k).time = s.time :=
  (congrArg Chip.time (Chip.count_only s n k) :)
@[simp] theorem Chip.count_hist (n k : Nat) : (s.count n k).hist = s.hist :=
  (congrArg Chip.hist (Chip.count_only s n k) :)
@[simp] theorem Chip.count_ports (n k : Nat) : (s.count n k).ports = s.ports :=
  (congrArg Chip.ports (Chip.count_only s n k) :)
@[simp] theorem Chip.count_lanes (n k : Nat) : (s.count n k).lanes = s.lanes :=
  (congrArg Chip.lanes (Chip.count_only s n k) :)
@[simp] theorem Chip.count_start (n k : Nat) : (s.count n k).start = s.start :=
  (congrArg Chip.start (Chip.count_only s n k) :)
@[simp] theorem Chip.count_waveZero (n k : Nat) : (s.count n k).waveZero = s.waveZero :=
  (congrArg Chip.waveZero (Chip.count_only s n k) :)
@[simp] theorem Chip.count_waves (n k : Nat) : (s.count n k).waves = s.waves :=
  (congrArg Chip.waves (Chip.count_only s n k) :)
@[simp] theorem Chip.count_taken (n k : Nat) : (s.count n k).taken = s.taken :=
  (congrArg Chip.taken (Chip.count_only s n k) :)
@[simp] theorem Chip.count_noc (n k : Nat) : (s.count n k).noc = s.noc :=
  (congrArg Chip.noc (Chip.count_only s n k) :)
@[simp] theorem Chip.count_msgs (n k : Nat) : (s.count n k).msgs = s.msgs :=
  (congrArg Chip.msgs (Chip.count_only s n k) :)
@[simp] theorem Chip.count_opens (n k : Nat) : (s.count n k).opens = s.opens :=
  (congrArg Chip.opens (Chip.count_only s n k) :)
@[simp] theorem Chip.count_ended (n k : Nat) : (s.count n k).ended = s.ended :=
  (congrArg Chip.ended (Chip.count_only s n k) :)
@[simp] theorem Chip.count_cuts (n k : Nat) : (s.count n k).cuts = s.cuts :=
  (congrArg Chip.cuts (Chip.count_only s n k) :)
@[simp] theorem Chip.count_vppbs (n k : Nat) : (s.count n k).vppbs = s.vppbs :=
  (congrArg Chip.vppbs (Chip.count_only s n k) :)
@[simp] theorem Chip.count_vcs (n k : Nat) : (s.count n k).vcs = s.vcs :=
  (congrArg Chip.vcs (Chip.count_only s n k) :)
@[simp] theorem Chip.count_pbr (n k : Nat) : (s.count n k).pbr = s.pbr :=
  (congrArg Chip.pbr (Chip.count_only s n k) :)
@[simp] theorem Chip.count_wins (n k : Nat) : (s.count n k).wins = s.wins :=
  (congrArg Chip.wins (Chip.count_only s n k) :)
@[simp] theorem Chip.count_epochs (n k : Nat) : (s.count n k).epochs = s.epochs :=
  (congrArg Chip.epochs (Chip.count_only s n k) :)
@[simp] theorem Chip.count_stalls (n k : Nat) : (s.count n k).stalls = s.stalls :=
  (congrArg Chip.stalls (Chip.count_only s n k) :)
@[simp] theorem Chip.count_engOwn (n k : Nat) : (s.count n k).engOwn = s.engOwn :=
  (congrArg Chip.engOwn (Chip.count_only s n k) :)
@[simp] theorem Chip.count_engCmd (n k : Nat) : (s.count n k).engCmd = s.engCmd :=
  (congrArg Chip.engCmd (Chip.count_only s n k) :)
@[simp] theorem Chip.count_qOpen (n k : Nat) : (s.count n k).qOpen = s.qOpen :=
  (congrArg Chip.qOpen (Chip.count_only s n k) :)
@[simp] theorem Chip.count_qPressed (n k : Nat) : (s.count n k).qPressed = s.qPressed :=
  (congrArg Chip.qPressed (Chip.count_only s n k) :)
@[simp] theorem Chip.count_markers (n k : Nat) : (s.count n k).markers = s.markers :=
  (congrArg Chip.markers (Chip.count_only s n k) :)
@[simp] theorem Chip.count_stats (n k : Nat) : (s.count n k).stats = s.stats :=
  (congrArg Chip.stats (Chip.count_only s n k) :)
@[simp] theorem Chip.count_inners (n k : Nat) : (s.count n k).inners = s.inners :=
  (congrArg Chip.inners (Chip.count_only s n k) :)
@[simp] theorem Chip.count_snf (n k : Nat) : (s.count n k).snf = s.snf :=
  (congrArg Chip.snf (Chip.count_only s n k) :)
@[simp] theorem Chip.count_plru (n k : Nat) : (s.count n k).plru = s.plru :=
  (congrArg Chip.plru (Chip.count_only s n k) :)
@[simp] theorem Chip.count_txns (n k : Nat) : (s.count n k).txns = s.txns :=
  (congrArg Chip.txns (Chip.count_only s n k) :)
@[simp] theorem Chip.count_copies (n k : Nat) : (s.count n k).copies = s.copies :=
  (congrArg Chip.copies (Chip.count_only s n k) :)
@[simp] theorem Chip.count_snooped (n k : Nat) : (s.count n k).snooped = s.snooped :=
  (congrArg Chip.snooped (Chip.count_only s n k) :)
@[simp] theorem Chip.count_gjobs (n k : Nat) : (s.count n k).gjobs = s.gjobs :=
  (congrArg Chip.gjobs (Chip.count_only s n k) :)
@[simp] theorem Chip.count_gholds (n k : Nat) : (s.count n k).gholds = s.gholds :=
  (congrArg Chip.gholds (Chip.count_only s n k) :)
@[simp] theorem Chip.count_movAt (n k : Nat) : (s.count n k).movAt = s.movAt :=
  (congrArg Chip.movAt (Chip.count_only s n k) :)
@[simp] theorem Chip.count_movLast (n k : Nat) : (s.count n k).movLast = s.movLast :=
  (congrArg Chip.movLast (Chip.count_only s n k) :)
@[simp] theorem Chip.count_ert (n k : Nat) : (s.count n k).ert = s.ert :=
  (congrArg Chip.ert (Chip.count_only s n k) :)
@[simp] theorem Chip.count_mirrors (n k : Nat) : (s.count n k).mirrors = s.mirrors :=
  (congrArg Chip.mirrors (Chip.count_only s n k) :)
@[simp] theorem Chip.count_removals (n k : Nat) : (s.count n k).removals = s.removals :=
  (congrArg Chip.removals (Chip.count_only s n k) :)
@[simp] theorem Chip.count_imgBinds (n k : Nat) : (s.count n k).imgBinds = s.imgBinds :=
  (congrArg Chip.imgBinds (Chip.count_only s n k) :)
@[simp] theorem Chip.count_imgInsts (n k : Nat) : (s.count n k).imgInsts = s.imgInsts :=
  (congrArg Chip.imgInsts (Chip.count_only s n k) :)
@[simp] theorem Chip.count_settles (n k : Nat) : (s.count n k).settles = s.settles :=
  (congrArg Chip.settles (Chip.count_only s n k) :)
@[simp] theorem Chip.count_unpassed (n k : Nat) : (s.count n k).unpassed = s.unpassed :=
  (congrArg Chip.unpassed (Chip.count_only s n k) :)
@[simp] theorem Chip.count_slots (n k : Nat) : (s.count n k).slots = s.slots :=
  (congrArg Chip.slots (Chip.count_only s n k) :)
@[simp] theorem Chip.count_vinSnsBad (n k : Nat) : (s.count n k).vinSnsBad = s.vinSnsBad :=
  (congrArg Chip.vinSnsBad (Chip.count_only s n k) :)
@[simp] theorem Chip.count_slotHold (n k : Nat) : (s.count n k).slotHold = s.slotHold :=
  (congrArg Chip.slotHold (Chip.count_only s n k) :)
@[simp] theorem Chip.count_fatal (n k : Nat) : (s.count n k).fatal = s.fatal :=
  (congrArg Chip.fatal (Chip.count_only s n k) :)
@[simp] theorem Chip.count_failTest (n k : Nat) : (s.count n k).failTest = s.failTest :=
  (congrArg Chip.failTest (Chip.count_only s n k) :)
@[simp] theorem Chip.count_beatLost (n k : Nat) : (s.count n k).beatLost = s.beatLost :=
  (congrArg Chip.beatLost (Chip.count_only s n k) :)
@[simp] theorem Chip.count_dieLost (n k : Nat) : (s.count n k).dieLost = s.dieLost :=
  (congrArg Chip.dieLost (Chip.count_only s n k) :)
@[simp] theorem Chip.count_started (n k : Nat) : (s.count n k).started = s.started :=
  (congrArg Chip.started (Chip.count_only s n k) :)
@[simp] theorem Chip.count_merge (n k : Nat) : (s.count n k).merge = s.merge :=
  (congrArg Chip.merge (Chip.count_only s n k) :)
@[simp] theorem Chip.count_dmaRam (n k : Nat) : (s.count n k).dmaRam = s.dmaRam :=
  (congrArg Chip.dmaRam (Chip.count_only s n k) :)
@[simp] theorem Chip.count_scrubs (n k : Nat) : (s.count n k).scrubs = s.scrubs :=
  (congrArg Chip.scrubs (Chip.count_only s n k) :)
@[simp] theorem Chip.count_fuses (n k : Nat) : (s.count n k).fuses = s.fuses :=
  (congrArg Chip.fuses (Chip.count_only s n k) :)
@[simp] theorem Chip.count_flash (n k : Nat) : (s.count n k).flash = s.flash :=
  (congrArg Chip.flash (Chip.count_only s n k) :)
@[simp] theorem Chip.count_mgmt (n k : Nat) : (s.count n k).mgmt = s.mgmt :=
  (congrArg Chip.mgmt (Chip.count_only s n k) :)
@[simp] theorem Chip.count_edges (n k : Nat) : (s.count n k).edges = s.edges :=
  (congrArg Chip.edges (Chip.count_only s n k) :)
@[simp] theorem Chip.count_samp (n k : Nat) : (s.count n k).samp = s.samp :=
  (congrArg Chip.samp (Chip.count_only s n k) :)
@[simp] theorem Chip.count_sampIrq (n k : Nat) : (s.count n k).sampIrq = s.sampIrq :=
  (congrArg Chip.sampIrq (Chip.count_only s n k) :)
@[simp] theorem Chip.count_latches (n k : Nat) : (s.count n k).latches = s.latches :=
  (congrArg Chip.latches (Chip.count_only s n k) :)
@[simp] theorem Chip.count_pw (n k : Nat) : (s.count n k).pw = s.pw :=
  (congrArg Chip.pw (Chip.count_only s n k) :)
@[simp] theorem Chip.count_test (n k : Nat) : (s.count n k).test = s.test :=
  (congrArg Chip.test (Chip.count_only s n k) :)
@[simp] theorem Chip.count_lcJob (n k : Nat) : (s.count n k).lcJob = s.lcJob :=
  (congrArg Chip.lcJob (Chip.count_only s n k) :)
@[simp] theorem Chip.count_challenge (n k : Nat) : (s.count n k).challenge = s.challenge :=
  (congrArg Chip.challenge (Chip.count_only s n k) :)
@[simp] theorem Chip.count_jtag (n k : Nat) : (s.count n k).jtag = s.jtag :=
  (congrArg Chip.jtag (Chip.count_only s n k) :)
@[simp] theorem Chip.count_scanLinks (n k : Nat) : (s.count n k).scanLinks = s.scanLinks :=
  (congrArg Chip.scanLinks (Chip.count_only s n k) :)
@[simp] theorem Chip.count_boot (n k : Nat) : (s.count n k).boot = s.boot :=
  (congrArg Chip.boot (Chip.count_only s n k) :)
@[simp] theorem Chip.count_resetAt (n k : Nat) : (s.count n k).resetAt = s.resetAt :=
  (congrArg Chip.resetAt (Chip.count_only s n k) :)
@[simp] theorem Chip.count_eth (n k : Nat) : (s.count n k).eth = s.eth :=
  (congrArg Chip.eth (Chip.count_only s n k) :)
@[simp] theorem Chip.count_relay (n k : Nat) : (s.count n k).relay = s.relay :=
  (congrArg Chip.relay (Chip.count_only s n k) :)
@[simp] theorem Chip.count_mail (n k : Nat) : (s.count n k).mail = s.mail :=
  (congrArg Chip.mail (Chip.count_only s n k) :)
@[simp] theorem Chip.count_outbox (n k : Nat) : (s.count n k).outbox = s.outbox :=
  (congrArg Chip.outbox (Chip.count_only s n k) :)
@[simp] theorem Chip.count_nextId (n k : Nat) : (s.count n k).nextId = s.nextId :=
  (congrArg Chip.nextId (Chip.count_only s n k) :)
@[simp] theorem Chip.count_freeCtr (n k : Nat) : (s.count n k).freeCtr = s.freeCtr :=
  (congrArg Chip.freeCtr (Chip.count_only s n k) :)

/-- What the recording of errors may change of a chip (R273 to R276, R291): registers, counters, what waits to be passed upward, the
class F error of the command, and what is posted. -/
def Chip.LoggedFrom (s t : Chip) : Prop :=
  { t with regs := s.regs, fatal := s.fatal, cnt := s.cnt, badWords := s.badWords, unpassed := s.unpassed, mail := s.mail } = s

theorem Chip.LoggedFrom.wr {s t : Chip} (h : s.LoggedFrom t) (n : RName) (i j : Nat) (v : W) : s.LoggedFrom (t.wr n i j v) := h
theorem Chip.LoggedFrom.set {s t : Chip} (h : s.LoggedFrom t) (f : Fld) (v i j : Nat) : s.LoggedFrom (t.set f v i j) := h
theorem Chip.LoggedFrom.count {s t : Chip} (h : s.LoggedFrom t) (n k : Nat) : s.LoggedFrom (t.count n k) := by
  unfold Chip.count Chip.freshCount Chip.sticky
  simp only
  split <;> split <;> exact h
theorem Chip.LoggedFrom.unpass {s t : Chip} (h : s.LoggedFrom t) (c : Nat) : s.LoggedFrom (t.unpass c) := by
  unfold Chip.unpass; split <;> exact h
theorem Chip.LoggedFrom.faultEvent {s t : Chip} (h : s.LoggedFrom t) (c : Nat) : s.LoggedFrom (t.faultEvent c) := by
  unfold Chip.faultEvent; split <;> exact h

theorem Chip.LoggedFrom.raiseBits {s t : Chip} (h : s.LoggedFrom t) (c b cls n : Nat) : s.LoggedFrom (t.raiseBits c b cls n) := by
  unfold Chip.raiseBits
  have h1 : s.LoggedFrom (if cls = clsF ∧ t.fatal = none then { t with fatal := some c } else t) := by split <;> exact h
  generalize (if cls = clsF ∧ t.fatal = none then { t with fatal := some c } else t) = t1 at h1
  simp only
  split
  · have h2 := ((h1.set F.FLT_REC_STS.MERGED (min (t1.fld F.FLT_REC_STS.MERGED c + n) 255) c 0).set F.FLT_REC_STS.CLASS
      (max (t1.fld F.FLT_REC_STS.CLASS c) cls) c 0).wr .FLT_REC_SRC c 0 (w32 ((t1.rd .FLT_REC_SRC c).toNat ||| b))
    split
    · exact (h2.unpass c).faultEvent c
    · exact h2
  · exact ((((((((h1.set F.FLT_REC_STS.OPEN 1 c 0).set F.FLT_REC_STS.CLASS cls c 0).set F.FLT_REC_STS.MERGED (min (n - 1) 255) c 0).wr
      .FLT_REC_SRC c 0 (w32 b)).wr .FLT_REC_TIME_LO c 0 _).wr .FLT_REC_TIME_HI c 0 _).count (cntChip cls) 1).unpass c).faultEvent c

/-- An error at a collector changes nothing but what records it. -/
theorem Chip.raiseBits_only (c b cls n : Nat) :
    { s.raiseBits c b cls n with
      regs := s.regs, fatal := s.fatal, cnt := s.cnt, badWords := s.badWords, unpassed := s.unpassed, mail := s.mail } = s :=
  Chip.LoggedFrom.raiseBits (s := s) (t := s) rfl c b cls n

@[simp] theorem Chip.raiseBits_sram (c b cls n : Nat) : (s.raiseBits c b cls n).sram = s.sram :=
  (congrArg Chip.sram (Chip.raiseBits_only s c b cls n) :)
@[simp] theorem Chip.raiseBits_time (c b cls n : Nat) : (s.raiseBits c b cls n).time = s.time :=
  (congrArg Chip.time (Chip.raiseBits_only s c b cls n) :)
@[simp] theorem Chip.raiseBits_hist (c b cls n : Nat) : (s.raiseBits c b cls n).hist = s.hist :=
  (congrArg Chip.hist (Chip.raiseBits_only s c b cls n) :)
@[simp] theorem Chip.raiseBits_ports (c b cls n : Nat) : (s.raiseBits c b cls n).ports = s.ports :=
  (congrArg Chip.ports (Chip.raiseBits_only s c b cls n) :)
@[simp] theorem Chip.raiseBits_lanes (c b cls n : Nat) : (s.raiseBits c b cls n).lanes = s.lanes :=
  (congrArg Chip.lanes (Chip.raiseBits_only s c b cls n) :)
@[simp] theorem Chip.raiseBits_start (c b cls n : Nat) : (s.raiseBits c b cls n).start = s.start :=
  (congrArg Chip.start (Chip.raiseBits_only s c b cls n) :)
@[simp] theorem Chip.raiseBits_waveZero (c b cls n : Nat) : (s.raiseBits c b cls n).waveZero = s.waveZero :=
  (congrArg Chip.waveZero (Chip.raiseBits_only s c b cls n) :)
@[simp] theorem Chip.raiseBits_waves (c b cls n : Nat) : (s.raiseBits c b cls n).waves = s.waves :=
  (congrArg Chip.waves (Chip.raiseBits_only s c b cls n) :)
@[simp] theorem Chip.raiseBits_taken (c b cls n : Nat) : (s.raiseBits c b cls n).taken = s.taken :=
  (congrArg Chip.taken (Chip.raiseBits_only s c b cls n) :)
@[simp] theorem Chip.raiseBits_noc (c b cls n : Nat) : (s.raiseBits c b cls n).noc = s.noc :=
  (congrArg Chip.noc (Chip.raiseBits_only s c b cls n) :)
@[simp] theorem Chip.raiseBits_msgs (c b cls n : Nat) : (s.raiseBits c b cls n).msgs = s.msgs :=
  (congrArg Chip.msgs (Chip.raiseBits_only s c b cls n) :)
@[simp] theorem Chip.raiseBits_opens (c b cls n : Nat) : (s.raiseBits c b cls n).opens = s.opens :=
  (congrArg Chip.opens (Chip.raiseBits_only s c b cls n) :)
@[simp] theorem Chip.raiseBits_ended (c b cls n : Nat) : (s.raiseBits c b cls n).ended = s.ended :=
  (congrArg Chip.ended (Chip.raiseBits_only s c b cls n) :)
@[simp] theorem Chip.raiseBits_cuts (c b cls n : Nat) : (s.raiseBits c b cls n).cuts = s.cuts :=
  (congrArg Chip.cuts (Chip.raiseBits_only s c b cls n) :)
@[simp] theorem Chip.raiseBits_vppbs (c b cls n : Nat) : (s.raiseBits c b cls n).vppbs = s.vppbs :=
  (congrArg Chip.vppbs (Chip.raiseBits_only s c b cls n) :)
@[simp] theorem Chip.raiseBits_vcs (c b cls n : Nat) : (s.raiseBits c b cls n).vcs = s.vcs :=
  (congrArg Chip.vcs (Chip.raiseBits_only s c b cls n) :)
@[simp] theorem Chip.raiseBits_pbr (c b cls n : Nat) : (s.raiseBits c b cls n).pbr = s.pbr :=
  (congrArg Chip.pbr (Chip.raiseBits_only s c b cls n) :)
@[simp] theorem Chip.raiseBits_wins (c b cls n : Nat) : (s.raiseBits c b cls n).wins = s.wins :=
  (congrArg Chip.wins (Chip.raiseBits_only s c b cls n) :)
@[simp] theorem Chip.raiseBits_epochs (c b cls n : Nat) : (s.raiseBits c b cls n).epochs = s.epochs :=
  (congrArg Chip.epochs (Chip.raiseBits_only s c b cls n) :)
@[simp] theorem Chip.raiseBits_stalls (c b cls n : Nat) : (s.raiseBits c b cls n).stalls = s.stalls :=
  (congrArg Chip.stalls (Chip.raiseBits_only s c b cls n) :)
@[simp] theorem Chip.raiseBits_engOwn (c b cls n : Nat) : (s.raiseBits c b cls n).engOwn = s.engOwn :=
  (congrArg Chip.engOwn (Chip.raiseBits_only s c b cls n) :)
@[simp] theorem Chip.raiseBits_engCmd (c b cls n : Nat) : (s.raiseBits c b cls n).engCmd = s.engCmd :=
  (congrArg Chip.engCmd (Chip.raiseBits_only s c b cls n) :)
@[simp] theorem Chip.raiseBits_qOpen (c b cls n : Nat) : (s.raiseBits c b cls n).qOpen = s.qOpen :=
  (congrArg Chip.qOpen (Chip.raiseBits_only s c b cls n) :)
@[simp] theorem Chip.raiseBits_qPressed (c b cls n : Nat) : (s.raiseBits c b cls n).qPressed = s.qPressed :=
  (congrArg Chip.qPressed (Chip.raiseBits_only s c b cls n) :)
@[simp] theorem Chip.raiseBits_markers (c b cls n : Nat) : (s.raiseBits c b cls n).markers = s.markers :=
  (congrArg Chip.markers (Chip.raiseBits_only s c b cls n) :)
@[simp] theorem Chip.raiseBits_stats (c b cls n : Nat) : (s.raiseBits c b cls n).stats = s.stats :=
  (congrArg Chip.stats (Chip.raiseBits_only s c b cls n) :)
@[simp] theorem Chip.raiseBits_inners (c b cls n : Nat) : (s.raiseBits c b cls n).inners = s.inners :=
  (congrArg Chip.inners (Chip.raiseBits_only s c b cls n) :)
@[simp] theorem Chip.raiseBits_snf (c b cls n : Nat) : (s.raiseBits c b cls n).snf = s.snf :=
  (congrArg Chip.snf (Chip.raiseBits_only s c b cls n) :)
@[simp] theorem Chip.raiseBits_plru (c b cls n : Nat) : (s.raiseBits c b cls n).plru = s.plru :=
  (congrArg Chip.plru (Chip.raiseBits_only s c b cls n) :)
@[simp] theorem Chip.raiseBits_txns (c b cls n : Nat) : (s.raiseBits c b cls n).txns = s.txns :=
  (congrArg Chip.txns (Chip.raiseBits_only s c b cls n) :)
@[simp] theorem Chip.raiseBits_copies (c b cls n : Nat) : (s.raiseBits c b cls n).copies = s.copies :=
  (congrArg Chip.copies (Chip.raiseBits_only s c b cls n) :)
@[simp] theorem Chip.raiseBits_snooped (c b cls n : Nat) : (s.raiseBits c b cls n).snooped = s.snooped :=
  (congrArg Chip.snooped (Chip.raiseBits_only s c b cls n) :)
@[simp] theorem Chip.raiseBits_gjobs (c b cls n : Nat) : (s.raiseBits c b cls n).gjobs = s.gjobs :=
  (congrArg Chip.gjobs (Chip.raiseBits_only s c b cls n) :)
@[simp] theorem Chip.raiseBits_gholds (c b cls n : Nat) : (s.raiseBits c b cls n).gholds = s.gholds :=
  (congrArg Chip.gholds (Chip.raiseBits_only s c b cls n) :)
@[simp] theorem Chip.raiseBits_movAt (c b cls n : Nat) : (s.raiseBits c b cls n).movAt = s.movAt :=
  (congrArg Chip.movAt (Chip.raiseBits_only s c b cls n) :)
@[simp] theorem Chip.raiseBits_movLast (c b cls n : Nat) : (s.raiseBits c b cls n).movLast = s.movLast :=
  (congrArg Chip.movLast (Chip.raiseBits_only s c b cls n) :)
@[simp] theorem Chip.raiseBits_ert (c b cls n : Nat) : (s.raiseBits c b cls n).ert = s.ert :=
  (congrArg Chip.ert (Chip.raiseBits_only s c b cls n) :)
@[simp] theorem Chip.raiseBits_mirrors (c b cls n : Nat) : (s.raiseBits c b cls n).mirrors = s.mirrors :=
  (congrArg Chip.mirrors (Chip.raiseBits_only s c b cls n) :)
@[simp] theorem Chip.raiseBits_removals (c b cls n : Nat) : (s.raiseBits c b cls n).removals = s.removals :=
  (congrArg Chip.removals (Chip.raiseBits_only s c b cls n) :)
@[simp] theorem Chip.raiseBits_imgBinds (c b cls n : Nat) : (s.raiseBits c b cls n).imgBinds = s.imgBinds :=
  (congrArg Chip.imgBinds (Chip.raiseBits_only s c b cls n) :)
@[simp] theorem Chip.raiseBits_imgInsts (c b cls n : Nat) : (s.raiseBits c b cls n).imgInsts = s.imgInsts :=
  (congrArg Chip.imgInsts (Chip.raiseBits_only s c b cls n) :)
@[simp] theorem Chip.raiseBits_settles (c b cls n : Nat) : (s.raiseBits c b cls n).settles = s.settles :=
  (congrArg Chip.settles (Chip.raiseBits_only s c b cls n) :)
@[simp] theorem Chip.raiseBits_slots (c b cls n : Nat) : (s.raiseBits c b cls n).slots = s.slots :=
  (congrArg Chip.slots (Chip.raiseBits_only s c b cls n) :)
@[simp] theorem Chip.raiseBits_vinSnsBad (c b cls n : Nat) : (s.raiseBits c b cls n).vinSnsBad = s.vinSnsBad :=
  (congrArg Chip.vinSnsBad (Chip.raiseBits_only s c b cls n) :)
@[simp] theorem Chip.raiseBits_slotHold (c b cls n : Nat) : (s.raiseBits c b cls n).slotHold = s.slotHold :=
  (congrArg Chip.slotHold (Chip.raiseBits_only s c b cls n) :)
@[simp] theorem Chip.raiseBits_failTest (c b cls n : Nat) : (s.raiseBits c b cls n).failTest = s.failTest :=
  (congrArg Chip.failTest (Chip.raiseBits_only s c b cls n) :)
@[simp] theorem Chip.raiseBits_beatLost (c b cls n : Nat) : (s.raiseBits c b cls n).beatLost = s.beatLost :=
  (congrArg Chip.beatLost (Chip.raiseBits_only s c b cls n) :)
@[simp] theorem Chip.raiseBits_dieLost (c b cls n : Nat) : (s.raiseBits c b cls n).dieLost = s.dieLost :=
  (congrArg Chip.dieLost (Chip.raiseBits_only s c b cls n) :)
@[simp] theorem Chip.raiseBits_started (c b cls n : Nat) : (s.raiseBits c b cls n).started = s.started :=
  (congrArg Chip.started (Chip.raiseBits_only s c b cls n) :)
@[simp] theorem Chip.raiseBits_merge (c b cls n : Nat) : (s.raiseBits c b cls n).merge = s.merge :=
  (congrArg Chip.merge (Chip.raiseBits_only s c b cls n) :)
@[simp] theorem Chip.raiseBits_dmaRam (c b cls n : Nat) : (s.raiseBits c b cls n).dmaRam = s.dmaRam :=
  (congrArg Chip.dmaRam (Chip.raiseBits_only s c b cls n) :)
@[simp] theorem Chip.raiseBits_scrubs (c b cls n : Nat) : (s.raiseBits c b cls n).scrubs = s.scrubs :=
  (congrArg Chip.scrubs (Chip.raiseBits_only s c b cls n) :)
@[simp] theorem Chip.raiseBits_fuses (c b cls n : Nat) : (s.raiseBits c b cls n).fuses = s.fuses :=
  (congrArg Chip.fuses (Chip.raiseBits_only s c b cls n) :)
@[simp] theorem Chip.raiseBits_flash (c b cls n : Nat) : (s.raiseBits c b cls n).flash = s.flash :=
  (congrArg Chip.flash (Chip.raiseBits_only s c b cls n) :)
@[simp] theorem Chip.raiseBits_mgmt (c b cls n : Nat) : (s.raiseBits c b cls n).mgmt = s.mgmt :=
  (congrArg Chip.mgmt (Chip.raiseBits_only s c b cls n) :)
@[simp] theorem Chip.raiseBits_edges (c b cls n : Nat) : (s.raiseBits c b cls n).edges = s.edges :=
  (congrArg Chip.edges (Chip.raiseBits_only s c b cls n) :)
@[simp] theorem Chip.raiseBits_samp (c b cls n : Nat) : (s.raiseBits c b cls n).samp = s.samp :=
  (congrArg Chip.samp (Chip.raiseBits_only s c b cls n) :)
@[simp] theorem Chip.raiseBits_sampIrq (c b cls n : Nat) : (s.raiseBits c b cls n).sampIrq = s.sampIrq :=
  (congrArg Chip.sampIrq (Chip.raiseBits_only s c b cls n) :)
@[simp] theorem Chip.raiseBits_latches (c b cls n : Nat) : (s.raiseBits c b cls n).latches = s.latches :=
  (congrArg Chip.latches (Chip.raiseBits_only s c b cls n) :)
@[simp] theorem Chip.raiseBits_pw (c b cls n : Nat) : (s.raiseBits c b cls n).pw = s.pw :=
  (congrArg Chip.pw (Chip.raiseBits_only s c b cls n) :)
@[simp] theorem Chip.raiseBits_test (c b cls n : Nat) : (s.raiseBits c b cls n).test = s.test :=
  (congrArg Chip.test (Chip.raiseBits_only s c b cls n) :)
@[simp] theorem Chip.raiseBits_lcJob (c b cls n : Nat) : (s.raiseBits c b cls n).lcJob = s.lcJob :=
  (congrArg Chip.lcJob (Chip.raiseBits_only s c b cls n) :)
@[simp] theorem Chip.raiseBits_challenge (c b cls n : Nat) : (s.raiseBits c b cls n).challenge = s.challenge :=
  (congrArg Chip.challenge (Chip.raiseBits_only s c b cls n) :)
@[simp] theorem Chip.raiseBits_jtag (c b cls n : Nat) : (s.raiseBits c b cls n).jtag = s.jtag :=
  (congrArg Chip.jtag (Chip.raiseBits_only s c b cls n) :)
@[simp] theorem Chip.raiseBits_scanLinks (c b cls n : Nat) : (s.raiseBits c b cls n).scanLinks = s.scanLinks :=
  (congrArg Chip.scanLinks (Chip.raiseBits_only s c b cls n) :)
@[simp] theorem Chip.raiseBits_boot (c b cls n : Nat) : (s.raiseBits c b cls n).boot = s.boot :=
  (congrArg Chip.boot (Chip.raiseBits_only s c b cls n) :)
@[simp] theorem Chip.raiseBits_resetAt (c b cls n : Nat) : (s.raiseBits c b cls n).resetAt = s.resetAt :=
  (congrArg Chip.resetAt (Chip.raiseBits_only s c b cls n) :)
@[simp] theorem Chip.raiseBits_eth (c b cls n : Nat) : (s.raiseBits c b cls n).eth = s.eth :=
  (congrArg Chip.eth (Chip.raiseBits_only s c b cls n) :)
@[simp] theorem Chip.raiseBits_relay (c b cls n : Nat) : (s.raiseBits c b cls n).relay = s.relay :=
  (congrArg Chip.relay (Chip.raiseBits_only s c b cls n) :)
@[simp] theorem Chip.raiseBits_outbox (c b cls n : Nat) : (s.raiseBits c b cls n).outbox = s.outbox :=
  (congrArg Chip.outbox (Chip.raiseBits_only s c b cls n) :)
@[simp] theorem Chip.raiseBits_nextId (c b cls n : Nat) : (s.raiseBits c b cls n).nextId = s.nextId :=
  (congrArg Chip.nextId (Chip.raiseBits_only s c b cls n) :)
@[simp] theorem Chip.raiseBits_freeCtr (c b cls n : Nat) : (s.raiseBits c b cls n).freeCtr = s.freeCtr :=
  (congrArg Chip.freeCtr (Chip.raiseBits_only s c b cls n) :)

end

/-! ## Registers after a write -/

@[simp] theorem Chip.rd_wr_self (s : Chip) (n : RName) (i j : Nat) (v : W) : (s.wr n i j v).rd n i j = v := by
  simp [Chip.rd, Chip.wr]

theorem Chip.rd_wr_ne (s : Chip) {n n' : RName} {i j i' j' : Nat} (v : W) (h : (⟨n, i, j⟩ : Reg) ≠ ⟨n', i', j'⟩) :
    (s.wr n i j v).rd n' i' j' = s.rd n' i' j' := by
  simp only [Chip.rd, Chip.wr]
  exact tget_tput_ne _ _ _ _ _ h

/-- Every register after one is written. -/
theorem Chip.rd_wr (s : Chip) (n n' : RName) (i j i' j' : Nat) (v : W) :
    (s.wr n i j v).rd n' i' j' = if (⟨n, i, j⟩ : Reg) = ⟨n', i', j'⟩ then v else s.rd n' i' j' := by
  split
  · rename_i h; cases h; simp
  · rename_i h; exact s.rd_wr_ne v h

theorem Chip.rd_set (s : Chip) (f : Fld) (v i j : Nat) (n' : RName) (i' j' : Nat) :
    (s.set f v i j).rd n' i' j' =
      if (⟨f.reg, i, j⟩ : Reg) = ⟨n', i', j'⟩ then w32 (putBits (s.rd f.reg i j).toNat f.lo f.width v) else s.rd n' i' j' :=
  s.rd_wr _ _ _ _ _ _ _

/-- A field that is set reads as what it was set to. -/
theorem Chip.fld_set_self (s : Chip) (f : Fld) (v i j : Nat) (h : f.lo + f.width ≤ 32) : (s.set f v i j).fld f i j = v % 2 ^ f.width := by
  simp only [Chip.fld, Chip.rd_set, if_true]
  rw [bitsOf_w32 _ _ _ h, bitsOf_putBits_self]

/-- A field of another register reads as before. -/
theorem Chip.fld_set_reg (s : Chip) {f g : Fld} (v i j i' j' : Nat) (h : (⟨f.reg, i, j⟩ : Reg) ≠ ⟨g.reg, i', j'⟩) :
    (s.set f v i j).fld g i' j' = s.fld g i' j' := by
  simp only [Chip.fld, Chip.rd_set, if_neg h]

/-- Another field of the same register reads as before. -/
theorem Chip.fld_set_ne (s : Chip) {f g : Fld} (v i j : Nat) (hr : f.reg = g.reg) (h : g.lo + g.width ≤ f.lo ∨ f.lo + f.width ≤ g.lo)
    (hg : g.lo + g.width ≤ 32) : (s.set f v i j).fld g i j = s.fld g i j := by
  simp only [Chip.fld, Chip.rd_set, hr, if_true]
  rw [bitsOf_w32 _ _ _ hg, bitsOf_putBits_ne _ _ _ _ _ _ h]

/-- Counting changes no register but the counters' sticky bits. -/
theorem Chip.rd_count (s : Chip) (m k : Nat) (n : RName) (i j : Nat) (h : n ≠ .CNT_OVF) : (s.count m k).rd n i j = s.rd n i j := by
  have hs : ∀ t : Chip, (t.sticky m).rd n i j = t.rd n i j := fun t => t.rd_wr_ne _ (fun e => h (by cases e; rfl))
  unfold Chip.count Chip.freshCount
  simp only
  split <;> split <;> first | rfl | exact hs _ | exact (hs _).trans (hs _)

theorem Chip.fld_count (s : Chip) (m k : Nat) (f : Fld) (i j : Nat) (h : f.reg ≠ .CNT_OVF) : (s.count m k).fld f i j = s.fld f i j := by
  unfold Chip.fld
  rw [s.rd_count m k _ i j h]

theorem Chip.is_count (s : Chip) (m k : Nat) (f : Fld) (i j : Nat) (h : f.reg ≠ .CNT_OVF) : (s.count m k).is f i j = s.is f i j := by
  unfold Chip.is
  rw [s.fld_count m k f i j h]

/-- A counter that holds no uncorrectable word counts modulo 2^48 (R354, R355). -/
theorem Chip.counter_count (s : Chip) (n k : Nat) (h : s.badWords.contains (3, n) = false) :
    (s.count n k).counter n = (s.counter n + k) % 2 ^ 48 := by
  unfold Chip.count Chip.freshCount
  simp only [h, Bool.false_eq_true, if_false]
  split
  · simp [Chip.counter]
  · simp [Chip.counter, Chip.sticky]

/-- The register file keeps its canonical form. -/
theorem Reg.lt_trans (a b c : Reg) (h : Reg.lt a b = true) (h' : Reg.lt b c = true) : Reg.lt a c = true := by
  simp [Reg.lt] at *; omega

theorem RName.idx_inj (a b : RName) (h : a.idx = b.idx) : a = b := by
  have := congrArg RName.ofNat h
  simpa [RName.idx, RName.ofNat_ctorIdx] using this

theorem Reg.lt_total (a b : Reg) (h : a ≠ b) (h' : Reg.lt a b = false) : Reg.lt b a = true := by
  obtain ⟨n, i, j⟩ := a
  obtain ⟨n', i', j'⟩ := b
  by_cases hn : n.idx = n'.idx
  · have := RName.idx_inj _ _ hn
    subst this
    simp [Reg.lt] at *
    omega
  · simp [Reg.lt] at *
    omega

theorem Chip.wr_wf (s : Chip) (n : RName) (i j : Nat) (v : W) (h : twf Reg.lt Reg.reset s.regs = true) :
    twf Reg.lt Reg.reset (s.wr n i j v).regs = true :=
  twf_tput Reg.lt Reg.lt_trans Reg.lt_total Reg.reset s.regs ⟨n, i, j⟩ v h

theorem Chip.set_wf (s : Chip) (f : Fld) (v i j : Nat) (h : twf Reg.lt Reg.reset s.regs = true) :
    twf Reg.lt Reg.reset (s.set f v i j).regs = true := s.wr_wf _ _ _ _ h

/-! ## Management SRAM after a write -/

@[simp] theorem Chip.ramByte_setRamByte_self (s : Chip) (a : Nat) (v : Byte) : (s.setRamByte a v).ramByte a = v := by
  simp [Chip.ramByte, Chip.setRamByte]

theorem Chip.ramByte_setRamByte_ne (s : Chip) {a a' : Nat} (v : Byte) (h : a ≠ a') : (s.setRamByte a v).ramByte a' = s.ramByte a' := by
  simp only [Chip.ramByte, Chip.setRamByte]
  exact tget_tput_ne _ _ _ _ _ h

/-! ## Tables after a write -/

@[simp] theorem Chip.port_setPort_self (s : Chip) (p : Nat) (x : PortX) : (s.setPort p x).port p = x := Tab.get_set_self _ _ _ _
theorem Chip.port_setPort_ne (s : Chip) {p p' : Nat} (x : PortX) (h : p ≠ p') : (s.setPort p x).port p' = s.port p' :=
  Tab.get_set_ne _ _ _ h
@[simp] theorem Chip.vppb_setVppb_self (s : Chip) (n v : Nat) (x : Vppb) : (s.setVppb n v x).vppb n v = x := Tab.get_set_self _ _ _ _
@[simp] theorem Chip.vsw_setVsw_self (s : Chip) (n : Nat) (x : VcsX) : (s.setVsw n x).vsw n = x := Tab.get_set_self _ _ _ _
theorem Chip.vsw_setVsw_ne (s : Chip) {n n' : Nat} (x : VcsX) (h : n ≠ n') : (s.setVsw n x).vsw n' = s.vsw n' := Tab.get_set_ne _ _ _ h
@[simp] theorem Chip.win_setWin_self (s : Chip) (n w : Nat) (x : Win) : (s.setWin n w x).win n w = x := Tab.get_set_self _ _ _ _

end Sys2Proof.Machine
end

