-- ==== Sys2Proof/Safety.lean ====
section
/-! DEFINITION. What claims about runs are said in: a step that goes on, a chip in which nothing is about to happen by itself, what a
command leaves as it was, a request that starts, the limits of the sessions. -/

namespace Sys2Proof.Machine

/-- A step goes on. -/
def State.goesOn (s : State) : Prop := ∃ t, step s = .next t

/-- Every command that waits can reach the TH512. -/
def State.queueWf (s : State) : Prop := ∀ c ∈ s.pending, c.wf = true

/-! ## A chip at rest -/

/-- Nothing is about to happen by itself: no class F error, no notice unsent, no change waits for the binding engine (R106) or the
power controller (R313), no self-test runs (R370), no reply is held for a grove (R188). A chip may be at rest with any traffic. -/
abbrev Chip.AtRest (c : Chip) : Prop :=
  c.fatal = none ∧ c.mail = [] ∧ c.engOwn = [] ∧ c.engCmd = [] ∧ c.test = none ∧ c.pw.cmd = none ∧ c.pw.queue = [] ∧ c.gholds = []

/-- A chip at rest that holds no message, open request, graft or grove. -/
abbrev Chip.Still (c : Chip) : Prop :=
  c.AtRest ∧ c.msgs = [] ∧ c.opens = [] ∧ c.inners = [] ∧ c.cuts = [] ∧ c.ert = [] ∧ c.badWords = [] ∧
    ∀ g, g < 32 → c.joined g = 0 ∧ c.gwins g = []

/-- The chip with what it sent shown no more: a command begins here. -/
def State.fresh (s : State) : Chip := { s.chip with outbox := [] }

/-- Events for the sessions, delivered in order (R244). -/
def State.tell (s : State) (l : List (Nat × List Nat)) : State :=
  foldl' l (fun e s => s.deliver (.event e.1 (e.2.map w32))) s

/-! ## What a command leaves as it was -/

/-- No register but those listed has changed. -/
def Chip.RegsBut (l : List Reg) (c d : Chip) : Prop :=
  ∀ n i j, (⟨n, i, j⟩ : Reg) ∉ l → d.rd n i j = c.rd n i j

/-- No register but those named has changed, the wrap bits of counters apart, nor any memory, fuse, slot, window or domain. -/
def Chip.Apart (l : List RName) (c d : Chip) : Prop :=
  (∀ n i j, n ≠ .CNT_OVF → n ∉ l → d.rd n i j = c.rd n i j) ∧ d.sram = c.sram ∧ d.flash = c.flash ∧ d.fuses = c.fuses ∧ d.pw = c.pw ∧
    d.slots = c.slots ∧ d.wins = c.wins ∧ d.snf = c.snf ∧ d.time = c.time

/-- The record of collector `c` is open, holds source bit `bit`, and is of class `cls` or a graver one. -/
def Chip.Raised (c : Chip) (col bit cls : Nat) : Prop :=
  c.is F.FLT_REC_STS.OPEN col = true ∧ bitAt (c.rd .FLT_REC_SRC col).toNat bit = true ∧ cls ≤ c.fld F.FLT_REC_STS.CLASS col

/-- The registers of a fault record. -/
def recRegs : List RName := [.FLT_REC_STS, .FLT_REC_SRC, .FLT_REC_TIME_LO, .FLT_REC_TIME_HI]

/-- Counter `n` has counted `k` more events. -/
def Chip.Counted (c d : Chip) (n k : Nat) : Prop := d.counter n = (c.counter n + k) % 2 ^ 48

/-- Nothing has changed but the registers listed. -/
def State.OnlyRegs (l : List Reg) (s t : State) : Prop :=
  t.pending = s.pending ∧ t.kmp = s.kmp ∧ { t.chip with regs := s.chip.regs } = s.fresh ∧ s.chip.RegsBut l t.chip

/-! ## KMP requests -/

/-- A session's request is next in its turn and nothing turns it away: its port carries it (R228, R233), it comes from the key of an
open session (R238) under its major version (R236), the image is active (R240), its life-cycle state accepts it (Table 19.6), no halt
of its DMA engine loses it (R300), fewer than 16 requests are in progress and none is held (R241). -/
def State.Hears (s : State) (opcode : Nat) (q : KmpReq) (x : Sess) : Prop :=
  s.chip.ethCarries q.eth = true ∧ s.chip.kmpOver q.ipv6 = true ∧ s.kmp.named q = some x ∧ q.major = x.major ∧
    s.chip.fld F.IMG_STS.STATE = 1 ∧ lcAccepts opcode s.chip.lc = true ∧ (dmaServed opcode && s.chip.dmaHalted q.eth) = false ∧
    q.seq = x.expect ∧ x.prog.length < maxProg ∧ x.held = []

/-- The request's identity. -/
def Sess.req (x : Sess) (opcode : Nat) : ReqId := { uid := x.uid, seq := x.expect, opcode := opcode }

/-- The request has started (R241): its session has been heard from, expects the next one, and has this one in progress. -/
def State.begun (s : State) (opcode : Nat) (q : KmpReq) (x : Sess) : State :=
  (s.putSess { x with heard := s.chip.time, mac := q.mac, expect := (x.expect + 1) % 2 ^ 32, started := x.started + 1
                      prog := x.prog ++ [x.req opcode] }).withChip (s.fresh.count (cntEth x.eth 7))

/-- A request that starts does to the chip what `u` shows, and is answered with a status and the payloads of its datagrams. -/
def State.Answers (s : State) (c : Instr) (opcode : Nat) (q : KmpReq) (x : Sess) (u : Chip) (status : Nat) (parts : List (List W)) : Prop :=
  exec c s = .next (((s.begun opcode q x).withChip u).deliver (.reply (x.req opcode) status parts))

/-- A command answers a next state of which `P` holds, and leaves the queue of commands as it was. -/
def State.Does (s : State) (c : Instr) (P : State → Prop) : Prop := ∃ t, exec c s = .next t ∧ t.pending = s.pending ∧ P t

/-- The request of session `x` has been answered with a status and one datagram of words. -/
def State.Replied (t : State) (x : Sess) (opcode status : Nat) (ws : List W) : Prop :=
  ∃ m : KmpOut, .kmp m ∈ t.chip.outbox ∧ m.eth = x.eth ∧ m.session = x.num ∧ m.opcode = opcode ∧ m.seq = x.expect ∧
    m.flags = flagReply + status ∧ m.words = ws

/-- A reply is owed to request `q` of session `x`, and its port can carry it. -/
def State.Owes (s : State) (q : ReqId) (x : Sess) : Prop := s.kmp.find q.uid = some x ∧ s.chip.ethCarries x.eth = true

/-- Request `q` of session `x` has been answered with a status and one datagram of words. -/
def State.Answered (t : State) (x : Sess) (q : ReqId) (status : Nat) (ws : List W) : Prop :=
  ∃ m : KmpOut, .kmp m ∈ t.chip.outbox ∧ m.eth = x.eth ∧ m.session = x.num ∧ m.opcode = q.opcode ∧ m.seq = q.seq ∧
    m.flags = flagReply + status ∧ m.words = ws

/-- The request of session `x` is in progress: its reply is still to come. -/
def State.Awaits (t : State) (x : Sess) (opcode : Nat) : Prop := ∃ y, t.kmp.find x.uid = some y ∧ x.req opcode ∈ y.prog

/-! ## Register accesses -/

/-- Registers whose read latches others (R386). -/
def RName.latches : RName → Bool
  | .CNT_VAL_LO | .CNT_HIST_LO | .TMB_NOW_LO | .SLT_MEAS_I => true
  | _ => false

/-- Registers of which a write does no more than their fields' access types say (Table 0.3). -/
def RName.ordinary (n : RName) : Bool :=
  !([.CEL_PORT_CFG, .CEL_LINK_CFG, .LNK_PRBS, .LNK_MARGIN, .LNK_EQ, .BUF_POOL_MIN, .BUF_EQ, .QOS_CON_CFG, .QOS_CON_MIN,
    .QOS_CON_CAP, .QOS_EPOL_CFG, .VCS_INST_CFG, .VCS_PORT_ADM,
    .DEC_STG_CTRL, .ACC_DENY_CNT, .MPU_CFG, .MPU_BASE, .MPU_ATTR, .GRV_SLICE_PEAK, .SNF_EVICT, .SNF_PROBE_ADDR_HI, .GRV_SET_WAIT,
    .GRV_STRAY, .GRV_CONFLICT, .SNF_ERR, .ERT_PROBE_SRC, .MOV_CH_STS, .NOC_BND_WAKES, .NOC_ERR, .NOC_ROUTE, .NOC_ROUTE_CTRL,
    .NOC_STAT_CTRL, .ETH_PORT_CFG, .ETH_PORT_STS, .ETH_MACSEC_DROP, .ETH_UNSEC_DROP, .KMP_CFG, .FLT_REC_CTRL, .FLT_CFG, .ECC_CL_ERR,
    .ECC_SCRUB_CTRL, .ECC_MP_STS, .ECC_DMA_STS, .PWR_CMD, .PWR_DROOP_CFG, .PWR_DROOP_STS, .SLT_CTRL, .SLT_CFG, .SLT_SHUNT, .SLT_LIMIT,
    .SLT_EVT, .CNT_SAMP_CFG, .CNT_SAMP_STS, .CNT_HIST_CTRL, .CNT_HIST_SEL, .VCS_VPPB_STS, .ACC_CFG, .GRV_CFG].contains n)

/-- The register `g` at address `a` can be reached: the address is its own, the domain it lies in is on, and the boundary in front of
it, if any, is Open (R22, R384). -/
def Chip.Reaches (c : Chip) (a : Nat) (g : Reg) (inst : Nat) : Prop :=
  a % 4 = 0 ∧ masAt a = .reg g inst ∧ ∀ d w, masDomain g inst = some (d, w) →
    c.domOn d = true ∧ ∀ n h, domBnd d = some (n, h) → c.fld F.NOC_BND_STS.STATE n h = 0

/-- The instances of a register block (R381): 128 cells, 169 collectors, eight regions, the interior network's and the stored-data blocks
of the regions and of the hub; one of every other. -/
def RBlock.instances : RBlock → List Nat
  | .cell => List.range 128
  | .flt => List.range 169
  | .rgn | .buf | .dec | .grv | .ert => List.range 8
  | .noc | .ecc => List.range 9
  | .eth | .vcs | .mpu | .mov | .nochub | .img | .fltchip | .ecchub | .pwr | .tmb | .slt | .cnt | .bst | .chp => [0]

/-! ## The limits of the sessions -/

/-- The limits of one session (R241, R243, R244). -/
def Sess.Within (x : Sess) : Prop :=
  1 ≤ x.num ∧ x.num ≤ maxSessions ∧ x.prog.length ≤ maxProg ∧ x.kept.length ≤ maxKept ∧ x.unacked.length ≤ maxUnacked

/-- The limits of the sessions (R238): at most eight, each with a number and an identity of its own. -/
def Kmp.Within (k : Kmp) : Prop :=
  k.sess.length ≤ maxSessions ∧ (∀ x ∈ k.sess, x.Within ∧ x.uid < k.nextUid) ∧ (k.sess.map (·.num)).Nodup ∧ (k.sess.map (·.uid)).Nodup

end Sys2Proof.Machine
end

