-- ==== Sys2Proof/Laws/Settle.lean ====
section
/-! SUPPORT. What follows a command by itself: nothing on a chip at rest; the sending of events and replies, which changes nothing of
the chip but what it sends and what counts it. -/

namespace Sys2Proof.Machine

/-! ## A chip with nothing to do -/

/-- A chip at rest but for notices that wait to be sent. -/
abbrev Chip.Idle (c : Chip) : Prop :=
  c.fatal = none ∧ c.engOwn = [] ∧ c.engCmd = [] ∧ c.test = none ∧ c.pw.cmd = none ∧ c.pw.queue = [] ∧ c.gholds = []

theorem Chip.engine_rest (c : Chip) (h : c.engOwn = []) (h' : c.engCmd = []) : c.engine = c := by
  unfold Chip.engine
  rw [h, h']
  show engineRun (4095 + 1) c = c
  simp only [engineRun, h, h']

theorem Chip.pwrPump_rest (c : Chip) (h : c.pw.cmd = none) (h' : c.pw.queue = []) : c.pwrPump = c := by
  unfold Chip.pwrPump
  rw [h']
  show pwrRun (2 + 1) c = c
  simp only [pwrRun, h, h']

/-- On an idle chip nothing follows by itself. -/
theorem Chip.tidy_idle {c : Chip} (h : c.Idle) : c.tidy = c := by
  obtain ⟨hf, ho, hc, ht, hp, hq, hg⟩ := h
  have h1 : c.enterFatal = c := by simp [Chip.enterFatal, hf]
  have h2 : c.testSlots = c := by simp [Chip.testSlots, ht]
  unfold Chip.tidy
  simp only [h1, c.engine_rest ho hc, hg, List.filter_nil, List.map_nil, foldl', List.foldl_nil, h2, c.pwrPump_rest hp hq]

theorem settleN_rest (n : Nat) {s : State} (h : s.chip.AtRest) : settleN n s = s := by
  cases n with
  | zero => rfl
  | succ n =>
    obtain ⟨hf, hm, hr⟩ := h
    have ht : s.chip.tidy = s.chip := Chip.tidy_idle ⟨hf, hr⟩
    simp only [settleN, ht, hm]
    rfl

/-- A chip at rest stays as it is. -/
theorem State.settle_rest {s : State} (h : s.chip.AtRest) : s.settle = s := settleN_rest 4 h

/-! ## Sending -/

/-- What the sending of datagrams may change of a chip: what it shows as sent, and what counts it. -/
def Chip.SentFrom (s t : Chip) : Prop :=
  { t with regs := s.regs, cnt := s.cnt, badWords := s.badWords, outbox := s.outbox } = s ∧
    ∀ n i j, n ≠ .CNT_OVF → t.rd n i j = s.rd n i j

theorem Chip.SentFrom.refl (s : Chip) : s.SentFrom s := ⟨rfl, fun _ _ _ _ => rfl⟩
theorem Chip.SentFrom.trans {s t u : Chip} (h : s.SentFrom t) (h' : t.SentFrom u) : s.SentFrom u := by
  refine ⟨?_, fun n i j hn => (h'.2 n i j hn).trans (h.2 n i j hn)⟩
  have h1 := h.1
  have h2 := h'.1
  rw [← h2] at h1
  exact h1
theorem Chip.SentFrom.out {s t : Chip} (h : s.SentFrom t) (o : Output) : s.SentFrom (t.out o) := h
theorem Chip.SentFrom.count {s t : Chip} (h : s.SentFrom t) (n k : Nat) : s.SentFrom (t.count n k) := by
  refine ⟨?_, fun m i j hm => (t.rd_count n k m i j hm).trans (h.2 m i j hm)⟩
  have h1 := h.1
  unfold Chip.count Chip.freshCount Chip.sticky
  simp only
  split <;> split <;> exact h1
theorem Chip.SentFrom.kmpSend {s t : Chip} (h : s.SentFrom t) (x : Sess) (a b c d : Nat) (ws : List W) : s.SentFrom (t.kmpSend x a b c d ws) := by
  unfold Chip.kmpSend
  split
  · exact (h.out _).count _ _
  · exact h
theorem Chip.SentFrom.sendParts {s t : Chip} (h : s.SentFrom t) (x : Sess) (a b c d : Nat) (l : List (List W)) :
    s.SentFrom (t.sendParts x a b c d l) := by
  induction l generalizing t with
  | nil => exact h
  | cons ws l ih =>
    cases l with
    | nil => exact h.kmpSend ..
    | cons ws' l => exact ih (h.kmpSend ..)
theorem Chip.SentFrom.pump {s : Chip} (n : Nat) : ∀ {t : Chip} (_ : s.SentFrom t) (x : Sess), s.SentFrom (pump n t x).1 := by
  induction n with
  | zero => intro t h x; exact h
  | succ n ih =>
    intro t h x
    unfold Machine.pump
    split
    · exact h
    · split
      · exact h
      · exact ih ((h.kmpSend ..).count ..) _
theorem Chip.SentFrom.flow {s t : Chip} (h : s.SentFrom t) (x : Sess) : s.SentFrom (t.flow x).1 := by
  exact Chip.SentFrom.pump _ (Chip.SentFrom.pump (x.queue.length + 1) h x) _
theorem Chip.SentFrom.pushEvent {s t : Chip} (h : s.SentFrom t) (x : Sess) (c : Nat) (ws : List W) : s.SentFrom (t.pushEvent x c ws).1 := by
  unfold Chip.pushEvent
  split
  · exact h.flow _
  · exact h.count ..
theorem Chip.SentFrom.pushRelay {s t : Chip} (h : s.SentFrom t) (x : Sess) (ws : List W) : s.SentFrom (t.pushRelay x ws).1 := h.flow _

theorem Chip.SentFrom.idle {s t : Chip} (h : s.SentFrom t) (hs : s.Idle) : t.Idle := by
  have h1 := h.1
  rw [← h1] at hs
  exact hs
theorem Chip.SentFrom.mail {s t : Chip} (h : s.SentFrom t) : t.mail = s.mail := by
  have h1 := h.1
  rw [← h1]

/-- Notices that are only sent: events, relayed mailbox commands, replies. -/
def Mail.plain : Mail → Bool
  | .reply .. | .event .. | .relay .. => true
  | _ => false

/-- The delivery of a plain notice changes nothing of the chip but what it sends and counts. -/
theorem State.deliver_sent {s : State} {m : Mail} (hm : m.plain = true) : s.chip.SentFrom (s.deliver m).chip := by
  cases m with
  | reply q st parts =>
    simp only [State.deliver, State.deliverReply]
    split
    · exact Chip.SentFrom.refl _
    · exact (Chip.SentFrom.refl _).sendParts ..
  | event c ws =>
    simp only [State.deliver]
    generalize s.kmp.sess.map (·.uid) = l
    have : ∀ (l : List Nat) (u : State), s.chip.SentFrom u.chip → s.chip.SentFrom (foldl' l (fun uid s =>
        match s.kmp.find uid with
        | some x => let (c', x') := s.chip.pushEvent x c ws; (s.withChip c').putSess x'
        | none => s) u).chip := by
      intro l
      induction l with
      | nil => intro u h; exact h
      | cons a l ih =>
        intro u h
        refine ih _ ?_
        dsimp only
        split
        · exact h.pushEvent ..
        · exact h
    exact this l s (Chip.SentFrom.refl _)
  | relay ws =>
    simp only [State.deliver]
    repeat' split
    · exact (Chip.SentFrom.refl _).pushRelay ..
    · exact Chip.SentFrom.refl _
    · exact Chip.SentFrom.refl _
  | endAll => cases hm
  | dark => cases hm
  | endPort => cases hm
  | endOne => cases hm
  | reset => cases hm

/-- The queue of commands is not touched. -/
theorem State.deliver_pending (s : State) (m : Mail) (hm : m.plain = true) : (s.deliver m).pending = s.pending := by
  cases m with
  | reply q st parts =>
    simp only [State.deliver, State.deliverReply]
    split <;> rfl
  | event c ws =>
    simp only [State.deliver]
    have : ∀ (l : List Nat) (u : State), u.pending = s.pending → (foldl' l (fun uid s =>
        match s.kmp.find uid with
        | some x => let (c', x') := s.chip.pushEvent x c ws; (s.withChip c').putSess x'
        | none => s) u).pending = s.pending := by
      intro l
      induction l with
      | nil => intro u h; exact h
      | cons a l ih =>
        intro u h
        refine ih _ ?_
        dsimp only
        split <;> exact h
    exact this _ s rfl
  | relay ws =>
    simp only [State.deliver]
    repeat' split
    all_goals rfl
  | endAll => cases hm
  | dark => cases hm
  | endPort => cases hm
  | endOne => cases hm
  | reset => cases hm

theorem State.deliverAll_sent (l : List Mail) : ∀ {s : State}, (∀ m ∈ l, m.plain = true) →
    s.chip.SentFrom (foldl' l (fun m s => s.deliver m) s).chip := by
  induction l with
  | nil => intro s _; exact Chip.SentFrom.refl _
  | cons m l ih =>
    intro s h
    have h1 := State.deliver_sent (s := s) (h m (by simp))
    have h2 := ih (s := s.deliver m) (fun m' hm' => h m' (by simp [hm']))
    show s.chip.SentFrom (foldl' l (fun m s => s.deliver m) (s.deliver m)).chip
    exact Chip.SentFrom.trans h1 h2

/-- Where only plain notices wait on an otherwise idle chip, the end of a command delivers them, and that is all. -/
theorem State.settle_plain {s : State} (h : s.chip.Idle) (hm : ∀ m ∈ s.chip.mail, m.plain = true) :
    s.settle = foldl' s.chip.mail (fun m s => s.deliver m) (s.withChip { s.chip with mail := [] }) := by
  have ht : s.chip.tidy = s.chip := Chip.tidy_idle h
  show settleN (3 + 1) s = _
  unfold settleN
  simp only [ht]
  split
  · rename_i h0
    have h1 : ({ s.chip with mail := [] } : Chip) = s.chip := by rw [← h0]
    rw [h1, h0]
    rfl
  · rename_i l hl
    have h1 := State.deliverAll_sent s.chip.mail (s := s.withChip { s.chip with mail := [] }) hm
    generalize hu : foldl' s.chip.mail (fun m s => s.deliver m) (s.withChip { s.chip with mail := [] }) = u at h1 ⊢
    have hi : u.chip.Idle := h1.idle h
    have h2 : u.chip.mail = [] := h1.mail
    exact settleN_rest 3 ⟨hi.1, h2, hi.2⟩

theorem State.tell_pending (s : State) (l : List (Nat × List Nat)) : (s.tell l).pending = s.pending := by
  induction l generalizing s with
  | nil => rfl
  | cons e l ih =>
    show (State.tell (s.deliver _) l).pending = _
    rw [ih, State.deliver_pending _ _ rfl]

/-- The chip of a state that has told its sessions of events. -/
theorem State.tell_sent (l : List (Nat × List Nat)) : ∀ s : State, s.chip.SentFrom (s.tell l).chip := by
  intro s
  have := State.deliverAll_sent (l.map (fun e => Mail.event e.1 (e.2.map w32))) (s := s) (by
    intro m hm
    obtain ⟨e, _, rfl⟩ := List.mem_map.mp hm
    rfl)
  simpa [State.tell, foldl', List.foldl_map] using this

/-- Telling sessions of events changes no register but the counters' sticky bits. -/
theorem State.tell_rd (s : State) (l : List (Nat × List Nat)) (n : RName) (i j : Nat) (h : n ≠ .CNT_OVF) :
    (s.tell l).chip.rd n i j = s.chip.rd n i j := (State.tell_sent l s).2 n i j h

theorem State.tell_fld (s : State) (l : List (Nat × List Nat)) (f : Fld) (i j : Nat) (h : f.reg ≠ .CNT_OVF) :
    (s.tell l).chip.fld f i j = s.chip.fld f i j := by
  unfold Chip.fld
  rw [s.tell_rd l _ i j h]

/-! ## Running a command -/

/-- A command of the chip that leaves it at rest ends there. -/
theorem onChip_rest {ok : Bool} {f : Chip → Chip} {s : State} (hok : ok = true) (h : (f s.fresh).AtRest) :
    onChip ok f s = .next (s.withChip (f s.fresh)) := by
  subst hok
  have : State.settle (s.withChip (f s.fresh)) = s.withChip (f s.fresh) := State.settle_rest h
  exact congrArg Host.Outcome.next this

/-- A command of the chip that posts events ends when they are delivered. -/
theorem onChip_tell {ok : Bool} {f : Chip → Chip} {s : State} {l : List (Nat × List Nat)} (hok : ok = true) (h : (f s.fresh).Idle)
    (hm : (f s.fresh).mail = l.map (fun e => Mail.event e.1 (e.2.map w32))) :
    onChip ok f s = .next ((s.withChip { f s.fresh with mail := [] }).tell l) := by
  subst hok
  have h1 : State.settle (s.withChip (f s.fresh)) = _ := State.settle_plain (s := s.withChip (f s.fresh)) h (by
    intro m hmm
    have : (s.withChip (f s.fresh)).chip.mail = l.map (fun e => Mail.event e.1 (e.2.map w32)) := hm
    rw [this] at hmm
    obtain ⟨e, _, rfl⟩ := List.mem_map.mp hmm
    rfl)
  have h2 : (s.withChip (f s.fresh)).chip.mail = l.map (fun e => Mail.event e.1 (e.2.map w32)) := hm
  rw [h2] at h1
  show Host.Outcome.next (State.settle (s.withChip (f s.fresh))) = _
  rw [h1]
  simp only [State.tell, foldl', List.foldl_map]
  rfl

end Sys2Proof.Machine
end

