-- ==== Sys2Proof/Laws/Kmp.lean ====
section
/-! SUPPORT. What a KMP request comes to: a request that is next in its turn starts, its meaning acts on the chip, and its reply is
delivered (R240 to R243). -/

namespace Sys2Proof.Machine

/-- The end of a command where what follows by itself leaves an idle chip with plain notices. -/
theorem State.settle_tidy {s : State} {c : Chip} (ht : s.chip.tidy = c) (h : c.Idle) (hm : ∀ m ∈ c.mail, m.plain = true) :
    s.settle = foldl' c.mail (fun m s => s.deliver m) (s.withChip { c with mail := [] }) := by
  have h0 : State.settle (s.withChip c) = _ := State.settle_plain (s := s.withChip c) h hm
  have h1 : State.settle (s.withChip c) = s.settle := by
    have ht2 : c.tidy = c := Chip.tidy_idle h
    show settleN (3 + 1) (s.withChip c) = settleN (3 + 1) s
    unfold settleN
    have e1 : (s.withChip c).chip = c := rfl
    simp only [e1, ht2, ht]
    rfl
  rw [← h1, h0]
  rfl

theorem engineRun_rest (k : Nat) {c : Chip} (h : c.engOwn = []) (h' : c.engCmd = []) : engineRun k c = c := by
  cases k with
  | zero => rfl
  | succ k => rw [engineRun]; simp only [h, h']

theorem engineRun_cmd (k : Nat) {c c1 : Chip} {o : EngOp} (ho : c.engOwn = []) (hc : c.engCmd = [o])
    (hrun : Chip.runCmd { c with engCmd := [] } o = some c1) : engineRun (k + 1) c = engineRun k (c1.count (cntChip 6)) := by
  rw [engineRun]
  split
  · rename_i h
    rw [ho] at h
    cases h
  · rename_i h
    rw [hc] at h
    cases h
    rw [hrun]
  · rename_i h
    rw [hc] at h
    cases h

/-- The binding engine runs a command that waits alone. -/
theorem Chip.tidy_engine {c c1 : Chip} {o : EngOp} (hf : c.fatal = none) (ho : c.engOwn = []) (hc : c.engCmd = [o])
    (hrun : Chip.runCmd { c with engCmd := [] } o = some c1) (hi : (c1.count (cntChip 6)).Idle) : c.tidy = c1.count (cntChip 6) := by
  have h1 : c.enterFatal = c := by simp [Chip.enterFatal, hf]
  have h2 : c.engine = c1.count (cntChip 6) := by
    unfold Chip.engine
    rw [engineRun_cmd _ ho hc hrun, engineRun_rest _ hi.2.1 hi.2.2.1]
  unfold Chip.tidy
  rw [h1, h2]
  have := Chip.tidy_idle hi
  unfold Chip.tidy at this
  have h3 : (c1.count (cntChip 6)).enterFatal = c1.count (cntChip 6) := by unfold Chip.enterFatal; rw [hi.1]
  rw [h3, (c1.count (cntChip 6)).engine_rest hi.2.1 hi.2.2.1] at this
  exact this

theorem Kmp.find_put_self (k : Kmp) {x : Sess} (h : ∃ y ∈ k.sess, y.uid = x.uid) : (k.put x).find x.uid = some x := by
  obtain ⟨y, hy, hu⟩ := h
  unfold Kmp.find Kmp.put
  simp only
  generalize k.sess = l at hy
  induction l with
  | nil => cases hy
  | cons a l ih =>
    by_cases ha : a.uid = x.uid
    · simp [ha]
    · have : y ∈ l := by
        rcases List.mem_cons.mp hy with rfl | h
        · exact absurd hu ha
        · exact h
      simp [ha, ih this]

theorem Kmp.put_put (k : Kmp) (x y : Sess) (h : x.uid = y.uid) : (k.put x).put y = k.put y := by
  unfold Kmp.put
  simp only [List.map_map]
  congr 1
  apply List.map_congr_left
  intro z _
  by_cases hz : z.uid = y.uid <;> simp [h, hz]

theorem Kmp.mem_of_named {k : Kmp} {q : KmpReq} {x : Sess} (h : k.named q = some x) : x ∈ k.sess := by
  unfold Kmp.named Kmp.numbered at h
  rw [Option.filter_eq_some_iff] at h
  exact List.mem_of_find?_eq_some h.1

theorem State.startHeld_none {s : State} {x : Sess} {n : Nat} (h : s.kmp.find x.uid = some x) (hh : x.held = []) :
    startHeld n x.uid s = s := by
  cases n with
  | zero => rfl
  | succ n => simp [startHeld, h, hh]

/-- What has started is served on this chip. -/
def State.served (s : State) (opcode : Nat) (q : KmpReq) (x : Sess) : Chip :=
  serve { num := x.num, q := x.req opcode, r := q, view := (s.begun opcode q x).view } (s.fresh.count (cntEth x.eth 7))

/-- Starting a request leaves an idle chip. -/
theorem State.begun_idle (s : State) (op : Nat) (q : KmpReq) (x : Sess) (h : s.chip.AtRest) :
    (s.begun op q x).chip.Idle ∧ (s.begun op q x).chip.mail = [] := by
  have h1 : s.fresh.SentFrom (s.begun op q x).chip := (Chip.SentFrom.refl _).count ..
  exact ⟨h1.idle ⟨h.1, h.2.2⟩, h1.mail.trans h.2.1⟩

/-- A request that is heard comes to its own meaning. -/
theorem State.served_eq {s : State} {op : Nat} {q : KmpReq} {x : Sess} (hh : s.Hears op q x) : s.served op q x =
    serveOpcode { num := x.num, q := x.req op, r := q, view := (s.begun op q x).view } (s.begun op q x).chip := by
  obtain ⟨h1, h2, h3, h4, h5, h6, h7, h8, h9, h10⟩ := hh
  have e1 : (s.begun op q x).chip.fld F.IMG_STS.STATE = 1 := by
    rw [← h5]; exact s.fresh.fld_count _ _ _ _ _ (by decide)
  have e2 : (s.begun op q x).chip.lc = s.chip.lc := s.fresh.fld_count _ _ _ _ _ (by decide)
  unfold State.served serve
  have e3 : (s.fresh.count (cntEth x.eth 7)) = (s.begun op q x).chip := rfl
  rw [e3, e1, e2]
  have e4 : (x.req op).opcode = op := rfl
  simp only [e4, h6, Bool.not_true, ne_eq, not_true, false_and, if_false]
  rfl

/-- A request that is heard starts; what its meaning leaves behind, with what follows by itself, is the chip, and its reply goes out. -/
theorem kmp_answers {ok : Bool} {opcode : Nat} {q : KmpReq} {x : Sess} {s : State} {c : Chip} {st : Nat} {parts : List (List W)} (hok : ok = true)
    (hop : opcode ≠ 1) (hh : s.Hears opcode q x) (hs : (s.served opcode q x).tidy = c) (hi : c.Idle)
    (hm : c.mail = [.reply (x.req opcode) st parts]) :
    kmp ok opcode q s =
      .next (((s.begun opcode q x).withChip { c with mail := [] }).deliver (.reply (x.req opcode) st parts)) := by
  subst hok
  obtain ⟨h1, h2, h3, h4, h5, h6, h7, h8, h9, h10⟩ := hh
  have hmem := Kmp.mem_of_named h3
  set s0 := s.withChip s.fresh with hs0
  set x1 : Sess := { x with heard := s.chip.time, mac := q.mac } with hx1
  have hd : (q.seq + 2 ^ 32 - x1.expect) % 2 ^ 32 = 0 := by
    rw [h8]
    have : x.expect + 2 ^ 32 - x1.expect = 2 ^ 32 := by simp [hx1]
    rw [this]; rfl
  have hreq : State.request s0 opcode q = State.sequence (s0.putSess x1) x1 opcode q := by
    unfold State.request
    have e1 : s0.chip.ethCarries q.eth = true := h1
    have e2 : s0.chip.kmpOver q.ipv6 = true := h2
    have e3 : s0.kmp.named q = some x := h3
    have e5 : s0.chip.fld F.IMG_STS.STATE = 1 := h5
    have e7 : (dmaServed opcode && s0.chip.dmaHalted q.eth) = false := h7
    have e7' : ¬ (dmaServed opcode = true ∧ s0.chip.dmaHalted q.eth = true) := by
      intro h; rw [h.1, h.2] at e7; cases e7
    simp only [e1, e2, e3, e5, hop, h4, e7', Bool.not_true, Bool.or_self, Bool.false_eq_true, if_false, ne_eq, not_true,
      Nat.one_ne_zero, decide_false, or_self]
    rfl
  have hseq : State.sequence (s0.putSess x1) x1 opcode q = startHeld 16 x1.uid ((s0.putSess x1).start x1 opcode q) := by
    unfold State.sequence
    simp only [hd, if_true]
  have hstart : (s0.putSess x1).start x1 opcode q = ((s.begun opcode q x).withChip (s.served opcode q x)).settle := by
    unfold State.start
    have : ¬ maxProg ≤ x1.prog.length := by simpa [hx1] using h9
    simp only [this, if_false]
    have hput : ((s0.putSess x1).kmp.put { x1 with expect := (x1.expect + 1) % 2 ^ 32, started := x1.started + 1
                                                   prog := x1.prog ++ [{ uid := x1.uid, seq := q.seq, opcode := opcode }] }) =
        (s.begun opcode q x).kmp := by
      refine (Kmp.put_put s.kmp x1 { x1 with expect := (x1.expect + 1) % 2 ^ 32, started := x1.started + 1
                                             prog := x1.prog ++ [{ uid := x1.uid, seq := q.seq, opcode := opcode }] } rfl).trans ?_
      rw [h8]
      rfl
    have hview : ((s0.putSess x1).putSess { x1 with expect := (x1.expect + 1) % 2 ^ 32, started := x1.started + 1
                                                    prog := x1.prog ++ [{ uid := x1.uid, seq := q.seq, opcode := opcode }] }).view =
        (s.begun opcode q x).view := by
      unfold State.view State.sessWords
      have hk : ((s0.putSess x1).putSess { x1 with expect := (x1.expect + 1) % 2 ^ 32, started := x1.started + 1
                                                   prog := x1.prog ++ [{ uid := x1.uid, seq := q.seq, opcode := opcode }] }).kmp =
          (s.begun opcode q x).kmp := hput
      rw [hk]
      apply List.map_congr_left
      intro n _
      split
      · rfl
      · unfold Chip.holdsRelay
        have : (s.begun opcode q x).chip.relay = s.chip.relay := Chip.count_relay _ _ _
        rw [this]
        rfl
    unfold State.served
    rw [hview, h8]
    congr 1
    show State.mk _ _ _ = State.mk _ _ _
    congr 1
    rw [h8] at hput
    exact hput
  have hset : ((s.begun opcode q x).withChip (s.served opcode q x)).settle =
      ((s.begun opcode q x).withChip { c with mail := [] }).deliver (.reply (x.req opcode) st parts) := by
    have := State.settle_tidy (s := (s.begun opcode q x).withChip (s.served opcode q x)) hs hi (by rw [hm]; simp [Mail.plain])
    rw [this, hm]
    rfl
  set t := ((s.begun opcode q x).withChip { c with mail := [] }).deliver (.reply (x.req opcode) st parts) with ht
  have hsent : ({ c with mail := [] } : Chip).SentFrom t.chip :=
    State.deliver_sent (s := (s.begun opcode q x).withChip { c with mail := [] }) rfl
  have hrest : t.chip.AtRest := by
    have h1 := hsent.idle (s := { c with mail := [] }) hi
    exact ⟨h1.1, hsent.mail, h1.2⟩
  have hheld : startHeld 16 x1.uid t = t := by
    have hb : (s.begun opcode q x).kmp.find x.uid = some { x1 with expect := (x.expect + 1) % 2 ^ 32, started := x.started + 1
                                                                   prog := x.prog ++ [x.req opcode] } :=
      Kmp.find_put_self (x := { x1 with expect := (x.expect + 1) % 2 ^ 32, started := x.started + 1
                                        prog := x.prog ++ [x.req opcode] }) s.kmp ⟨x, hmem, rfl⟩
    have hf : ∃ y : Sess, y.uid = x.uid ∧ y.held = [] ∧ t.kmp.find x.uid = some y := by
      rw [ht]
      simp only [State.deliver, State.deliverReply]
      have e : (((s.begun opcode q x).withChip { c with mail := [] }).kmp.find (x.req opcode).uid) = _ := hb
      simp only [e]
      have key : ∀ z : Sess, z.uid = x.uid → ((s.begun opcode q x).kmp.put z).find x.uid = some z := by
        intro z hz
        rw [← hz]
        exact Kmp.find_put_self _ ⟨_, List.mem_of_find?_eq_some hb, by simp [hx1, hz]⟩
      refine ⟨_, ?_, ?_, key _ ?_⟩
      · split
        · split <;> rfl
        · rfl
      · split
        · split <;> exact h10
        · exact h10
      · split
        · split <;> rfl
        · rfl
    obtain ⟨y, hy1, hy2, hy3⟩ := hf
    have : x1.uid = y.uid := hy1.symm
    rw [this]
    refine State.startHeld_none ?_ hy2
    rw [hy1]; exact hy3
  show Host.Outcome.next (State.settle (State.request s0 opcode q)) = _
  rw [hreq, hseq, hstart, hset, hheld, State.settle_rest hrest]

end Sys2Proof.Machine
end

