-- ==== Sys2Proof/Certificates/Slice0/Obligations.lean ====
section
/-! DEFINITION. Statements about the TH512, for the provers. -/

open Sys2Proof Sys2Proof.Machine

/-! ## The machine as a whole -/

/-- A step takes the command at the front of the queue and runs it with the queue's rest. Where it reads or fixes more than the spec says,
the choice is the model's: log entry 3. -/
def Obligations.StepRunsTheFrontCommand : Prop :=
  ∀ (s : State) (c : Instr), step { s with pending := c :: s.pending } = exec c s

/-- On an empty queue one tick of the clock passes and nothing else changes (log entries 1 and 2: DESIGN CHOICE): the time base counts
one tick of 1/16 ns modulo 2^68 (R331), and only the always-on clock runs in Dormant (R319). -/
def Obligations.EmptyQueueTicks : Prop :=
  ∀ s : State, s.pending = [] →
    ∃ t, step s = .next t ∧ t.pending = [] ∧ t.kmp = s.kmp ∧
      { t.chip with time := s.chip.time, pw := s.chip.pw } = s.fresh ∧ { t.chip.pw with ao := s.chip.pw.ao } = s.chip.pw ∧
      (s.chip.pw.dormant = false → t.chip.time = (s.chip.time + 1) % 2 ^ 68) ∧
      (s.chip.pw.dormant = true → t.chip.pw.ao = s.chip.pw.ao + aoTick)

/-- Every command that can reach the chip completes, and leaves the queue as it is; a command that names a part the TH512 does not have
stops under one name; none is refused. Where it reads or fixes more than the spec says, the choice is the model's: log entry 5. -/
def Obligations.WellFormedCommandsComplete : Prop :=
  ∀ (c : Instr) (s : State),
    (c.wf = true → ∃ t, exec c s = .next t ∧ t.pending = s.pending) ∧ (c.wf = false → exec c s = .fault .noSuchPart)

/-- The limits of the sessions hold at reset. -/
def Obligations.ResetKeepsSessionLimits : Prop := State.reset.kmp.Within

/-- No step breaks the limits of the sessions (R238, R241, R243, R244): at most eight sessions, with numbers from 1 to 8 of their own;
at most 16 requests in progress, 64 kept replies and 32 unacknowledged events in each. -/
def Obligations.StepKeepsSessionLimits : Prop :=
  ∀ s t : State, s.kmp.Within → step s = .next t → t.kmp.Within

/-! ## KMP requests -/

/-- ECHO, BYE and RELAY_CLAIM (Table 12.5, R239, R247). -/
def Obligations.SessionRequestsAnswer : Prop :=
  ∀ (s : State) (q : KmpReq) (x : Sess), s.chip.AtRest → q.wf = true →
    (s.Hears 0x0003 q x → s.Answers (.echo q) 0x0003 q x (s.begun 0x0003 q x).chip 0 [q.words]) ∧
    (s.Hears 0x0002 q x → q.words = [] → s.chip.relay = none →
      ∃ t, exec (.bye q) s = .next t ∧ t.kmp.sess = s.kmp.sess.filter (fun y => decide (y.uid ≠ x.uid)) ∧ t.chip.relay = none ∧
        t.pending = s.pending) ∧
    (s.Hears 0x0004 q x → ∀ w, q.words = [w] → bitAt w.toNat 0 = true → (s.chip.relay = none ∨ s.chip.holdsRelay x.num = true) →
      s.Answers (.relayClaim q) 0x0004 q x { (s.begun 0x0004 q x).chip with relay := some (x.num, q.eth, q.ipv6) } 0 [[]])

/-- REG_READ and BULK_READ of registers that the MPU lets the port's DMA engine read answer their values in order; nothing changes but the
packets that the interior network's routers count (R19, R222, R245, R383). Where it reads or fixes more than the spec says, the choice is
the model's: log entry 138. -/
def Obligations.RegisterReadsAnswer : Prop :=
  ∀ (s : State) (q : KmpReq) (x : Sess), s.chip.AtRest → q.wf = true →
    let after (op : Nat) (l : List Nat) : Chip := l.foldl (fun c a => c.masPackets a) (s.begun op q x).chip
    let value (op : Nat) (l : List Nat) (k : Nat) : Nat := match masAt (l.getD k 0) with
      | .reg g _ => (after op (l.take (k + 1))).view (s.begun op q x).view (152 + q.eth) g % 2 ^ 32
      | _ => 0
    let readable (op a : Nat) : Prop := (s.begun op q x).chip.masAllows (dmaMaster q.eth) 0 a 4 = true ∧
      ∃ g inst, (s.begun op q x).chip.Reaches a g inst ∧ g.name.latches = false
    let reads (c : Instr) (op : Nat) (l : List Nat) : Prop := (∀ a ∈ l, readable op a) →
      s.Answers c op q x (after op l) 0 [(l.length :: (List.range l.length).map (value op l)).map w32]
    (s.Hears 0x0100 q x → q.words.length % 2 = 0 → 0 < q.words.length → q.words.length ≤ 128 →
      reads (.regRead q) 0x0100 (pairs q.words)) ∧
    (s.Hears 0x0110 q x → ∀ hi lo n, q.words = [hi, lo, n] → 1 ≤ n.toNat → n.toNat ≤ 2048 →
      reads (.bulkRead q) 0x0110 ((List.range n.toNat).map (fun i => pairAddr hi.toNat lo.toNat + 4 * i)))

/-- REG_WRITE, REG_RMW and BULK_WRITE of an ordinary register that the MPU lets the port's DMA engine write: the register takes the value by
its fields' access types, no other register changes, and the reply counts the accesses (R5, R245, R383). Where it reads or fixes more
than the spec says, the choice is the model's: log entries 65, 107 and 138. -/
def Obligations.RegisterWritesAnswer : Prop :=
  ∀ (s : State) (q : KmpReq) (x : Sess) (hi lo : W) (g : Reg) (inst : Nat), s.chip.AtRest → s.chip.merge = [] → q.wf = true →
    let a := pairAddr hi.toNat lo.toNat
    let open_ (op : Nat) : Prop := (s.begun op q x).chip.Reaches a g inst ∧ g.name.ordinary = true ∧ g.name.latches = false ∧
      (s.begun op q x).chip.masAllows (dmaMaster q.eth) 0 a 4 = true ∧ (s.begun op q x).chip.masAllows (dmaMaster q.eth) 1 a 4 = true
    let sent (op : Nat) : Chip := (s.begun op q x).chip.masPackets a
    let written (c : Chip) (v : W) : Chip := c.wr g.name g.i g.j (w32 (accessWrite g.name false (c.rd g.name g.i g.j).toNat v.toNat))
    (s.Hears 0x0101 q x → open_ 0x0101 → ∀ v, q.words = [hi, lo, v] →
      s.Answers (.regWrite q) 0x0101 q x (written (sent 0x0101) v) 0 [[1]]) ∧
    (s.Hears 0x0111 q x → open_ 0x0111 → ∀ v, q.words = [hi, lo, v] →
      s.Answers (.bulkWrite q) 0x0111 q x (written (sent 0x0111) v) 0 [[1]]) ∧
    (s.Hears 0x0102 q x → open_ 0x0102 → ∀ mask v, q.words = [hi, lo, mask, v] →
      let old := w32 ((sent 0x0102).view (s.begun 0x0102 q x).view (152 + q.eth) g)
      s.Answers (.regRmw q) 0x0102 q x (written ((sent 0x0102).masPackets a) ((old &&& ~~~mask) ||| (v &&& mask))) 0 [[2, old]])

/-- COUNTER_SWEEP answers the counters named, each with its value and the nanosecond it was read at, in replies that fit the port's messages
(R246, R359). Where it reads or fixes more than the spec says, the choice is the model's: log entry 87. -/
def Obligations.CounterSweepAnswers : Prop :=
  ∀ (s : State) (q : KmpReq) (x : Sess) (w : W), s.chip.AtRest → s.chip.badWords = [] → q.wf = true → s.Hears 0x0120 q x → q.words = [w] →
    let first := bitsOf w.toNat 16 12
    let n := bitsOf w.toNat 0 13
    let b := (s.begun 0x0120 q x).chip
    let l := rangeFrom first n
    0 < n → first + n ≤ 4096 → (∀ k ∈ l, b.sweepOk (dmaMaster q.eth) k = true) →
      s.Answers (.counterSweep q) 0x0120 q x b 0
        (sweepParts ((b.kmpMax q.eth q.ipv6 - 20) / 16) (n + 1) 0 (l.map (fun k =>
          [k * 2 ^ 16 + b.counter k / 2 ^ 32, b.counter k % 2 ^ 32, b.nsAfter (k - first) / 2 ^ 32, b.nsAfter (k - first) % 2 ^ 32])))

/-! ## Sessions, acknowledgements and timers -/

/-- HELLO opens a session (R236 to R238), or, where eight are held, none: the lowest free number, the next identity, the keepalive held between 100 ms and 60 s, the
request's sequence number behind it, the relay role where it is asked for; the reply tells of the chip. -/
def Obligations.HelloOpensSession : Prop :=
  ∀ (s : State) (q : KmpReq) (w0 w1 : W), s.chip.AtRest → q.wf = true → q.words = [w0, w1] →
    s.chip.ethCarries q.eth = true → s.chip.kmpOver q.ipv6 = true → w0.toNat / 2 ^ 24 ≤ 1 → 1 ≤ w0.toNat / 2 ^ 16 % 256 →
    (∀ y ∈ s.kmp.sess, ¬ (y.eth = q.eth ∧ y.ip = q.ip ∧ y.udp = q.udp)) → s.chip.relay = none →
    (8 ≤ s.kmp.sess.length → ∃ t, exec (.hello q) s = .next t ∧ t.kmp = s.kmp ∧ t.pending = s.pending ∧ s.chip.RegsBut [] t.chip) ∧
    (s.kmp.sess.length < 8 →
      let x : Sess := { num := s.kmp.freeNum, uid := s.kmp.nextUid, eth := q.eth, mac := q.mac, ip := q.ip, udp := q.udp, ipv6 := q.ipv6
                        major := 1, keepalive := clampTo 100 60000 (w0.toNat % 2 ^ 16), heard := s.chip.time, expect := (q.seq + 1) % 2 ^ 32 }
      let relay := if bitAt w1.toNat 0 then some (x.num, q.eth, q.ipv6) else none
      (1 ≤ x.num ∧ x.num ≤ 8 ∧ (∀ y ∈ s.kmp.sess, y.num ≠ x.num) ∧ ∀ k, 1 ≤ k → k < x.num → ∃ y ∈ s.kmp.sess, y.num = k) ∧
      exec (.hello q) s = .next
        { chip := ({ s.fresh with relay := relay } : Chip).kmpSend x 0x0001 flagReply q.seq x.num
            ((s.chip.helloWords x.keepalive (bitAt w1.toNat 0)).map w32)
          kmp := { sess := s.kmp.sess ++ [x], nextUid := s.kmp.nextUid + 1 }
          pending := s.pending })

/-- EVENT_ACK takes an event from those unacknowledged; EVENT_RETRY sends it again, or ends the session once it has been sent as often as
EVT_TRIES says (R244, R239). Where it reads or fixes more than the spec says, the choice is the model's: log entry 110. -/
def Obligations.EventsAreAcknowledgedOrSentAgain : Prop :=
  ∀ (s : State) (x : Sess), s.chip.AtRest → s.chip.holdsRelay x.num = false →
    (∀ (q : KmpReq) (code : Nat), q.wf = true → code < 65536 → s.chip.ethCarries q.eth = true → s.chip.kmpOver q.ipv6 = true →
      s.kmp.named q = some x → q.major = x.major → x.queue = [] → x.lost = 0 →
        exec (.eventAck q code) s = .next ((s.withChip s.fresh).putSess { x with
          heard := s.chip.time, mac := q.mac
          unacked := x.unacked.filter (fun u => !(decide (u.seq = q.seq) && decide (u.code = code))) })) ∧
    (∀ (u : Unacked), 0 < x.num → x.num < 9 → s.kmp.numbered x.num = some x → x.unacked.find? (fun v => decide (v.seq = u.seq)) = some u →
      u.last + s.chip.evtRetry ≤ s.chip.time →
        (u.sends < s.chip.evtTries →
          exec (.eventRetry x.num u.seq) s = .next ((s.withChip
            ((s.fresh.kmpSend x u.code flagEvent u.seq x.num u.words).count (cntEth x.eth 12))).putSess { x with
              unacked := x.unacked.map (fun v => if v.seq = u.seq then { v with sends := v.sends + 1, last := s.chip.time } else v) })) ∧
        (s.chip.evtTries ≤ u.sends →
          exec (.eventRetry x.num u.seq) s = .next
            { s with chip := s.fresh, kmp := { s.kmp with sess := s.kmp.sess.filter (fun y => decide (y.uid ≠ x.uid)) } }))

/-- SESSION_KEEPALIVE_EXPIRE ends a session that has been silent for its keepalive; SEQUENCE_GAP_EXPIRE drops its held requests once one has
waited GAP_MS; KMP_DATAGRAM_DISCARD counts in event 6 of its port; a write of KMP_CFG ends every session (R234, R239, R241). Where it
reads or fixes more than the spec says, the choice is the model's: log entry 103. -/
def Obligations.SessionsEndAndDiscardsCount : Prop :=
  ∀ s : State, s.chip.AtRest →
    (∀ x : Sess, 0 < x.num → x.num < 9 → s.kmp.numbered x.num = some x →
      (s.chip.holdsRelay x.num = false → x.heard + x.keepalive * msT ≤ s.chip.time →
        exec (.sessionKeepaliveExpire x.num) s = .next
          { s with chip := s.fresh, kmp := { s.kmp with sess := s.kmp.sess.filter (fun y => decide (y.uid ≠ x.uid)) } }) ∧
      (∀ h ∈ x.held, h.since + s.chip.gapTime ≤ s.chip.time →
        exec (.sequenceGapExpire x.num) s = .next ((s.withChip s.fresh).putSess { x with held := [] }))) ∧
    (∀ e, e < 2 → s.chip.ethCarries e = true →
      exec (.kmpDatagramDiscard e) s = .next (s.withChip (s.fresh.count (cntEth e 6)))) ∧
    (∀ v : W, s.chip.relay = none →
      exec (.kmpCfgWrite v) s = .next
        { s with chip := s.fresh.plainWrite ⟨.KMP_CFG, 0, 0⟩ v, kmp := { s.kmp with sess := [] } })

/-! ## Management ports -/

/-- A frame that the MAC takes is counted and meets the policer of its class (R100, Table 5.5): RATE 0 drops it, RATE 1FFFFH lets it pass,
and any other rate takes what the frame costs from the bucket, or drops it. Where it reads or fixes more than the spec says, the choice
is the model's: log entries 89 and 91. -/
def Obligations.FramesMeetTheirPolicer : Prop :=
  ∀ (s : State) (e : Nat) (f : FrameIn), s.chip.AtRest → s.chip.badWords = [] → e < 2 → s.chip.ethUp e = true → f.pause = false →
    s.chip.macTakes e f = true → (f.cls ≠ .eapol → s.chip.macsecReq e = true → s.chip.secured e = true) →
    (f.cls ≠ .eapol → s.chip.secured e = true → f.macsec ≠ 0) → f.macsec ≠ 2 → (f.macsec = 1 → s.chip.secured e = true) →
    let i := policerOf (s.knows e f.cls) f.cls
    ∃ t, exec (.ethFrameReceive e f) s = .next t ∧ t.kmp = s.kmp ∧ t.pending = s.pending ∧
      (f.fcsBad = true → t.chip = s.fresh.count (cntEth e 2)) ∧
      (f.fcsBad = false → t.chip.counter (cntEth e 0) = (s.chip.counter (cntEth e 0) + 1) % 2 ^ 48 ∧
        (s.chip.fld F.QOS_EPOL_CFG.RATE e i = 0 →
          t.chip.fld F.QOS_EPOL_DROP.FRAMES e i = min (s.chip.fld F.QOS_EPOL_DROP.FRAMES e i + 1) (2 ^ 32 - 1) ∧
          t.chip.counter (cntEth e 5) = (s.chip.counter (cntEth e 5) + 1) % 2 ^ 48) ∧
        (s.chip.fld F.QOS_EPOL_CFG.RATE e i = 0x1FFFF → s.fresh.RegsBut [⟨.CNT_OVF, cntEth e 0 / 32, 0⟩] t.chip) ∧
        (s.chip.fld F.QOS_EPOL_CFG.RATE e i ≠ 0 → s.chip.fld F.QOS_EPOL_CFG.RATE e i ≠ 0x1FFFF →
          let full := ((s.chip.polRefill e).ethx e).tokens.get 0 i
          (f.wire + 20) * ethUnit ≤ full →
            (t.chip.ethx e).tokens.get 0 i = full - (f.wire + 20) * ethUnit ∧
            s.fresh.RegsBut [⟨.CNT_OVF, cntEth e 0 / 32, 0⟩] t.chip))

/-- The key agreement (R232): with a live peer the key server distributes a SAK, and the port is secured once the peer has it in use; a port
that is not the key server is secured by the SAK it receives; past packet number 2^62 the key server distributes another. Where it reads
or fixes more than the spec says, the choice is the model's: log entry 88. -/
def Obligations.KeyAgreementSecuresPort : Prop :=
  ∀ (s : State) (e : Nat) (m : MkaIn), s.chip.AtRest → e < 2 → s.chip.ethUp e = true →
    let x := s.chip.ethx e
    let server := decide (x.prio < m.priority) || (decide (x.prio = m.priority) && !m.wins)
    let sent (c : Chip) (what : Nat) : Chip := ({ c with outbox := [.eapol e what] } : Chip).count (cntEth e 1)
    (x.ckn ≠ [] → m.ckn = x.ckn → m.good = true → m.live = true →
      (server = true → x.saks = 0 →
        exec (.mkaFrame e m) s = .next (s.withChip (sent (s.fresh.setEth e { x with server := true, saks := 1 }) 1))) ∧
      (server = true → x.saks ≠ 0 → m.inUse = true →
        exec (.mkaFrame e m) s = .next (s.withChip ((s.fresh.setEth e { x with server := true }).set F.ETH_PORT_STS.SECURED 1 e))) ∧
      (server = false → m.sak = true →
        exec (.mkaFrame e m) s = .next (s.withChip
          (sent ((s.fresh.setEth e { x with server := false }).set F.ETH_PORT_STS.SECURED 1 e) 0)))) ∧
    (∀ pn, s.chip.secured e = true → x.server = true → 2 ^ 62 < pn →
      exec (.sakRekey e pn) s = .next (s.withChip (sent (s.fresh.setEth e { x with saks := x.saks + 1 }) 1)))

/-- ETH_LINK_UP puts ETH_PORT_CFG in force and shows the PHY and FEC resolved; ETH_LINK_DOWN clears the port's status, counts the fall, and
ends the port's sessions; a port that carries frames answers each address resolution and echo request for an address of its own with its
MAC address, or with the request's data, and counts the answer in event 1 (R228, R230, R231, R239). Where it reads or fixes more than
the spec says, the choice is the model's: log entry 90. -/
def Obligations.EthernetLinksComeAndGo : Prop :=
  ∀ (s : State) (e : Nat), s.chip.AtRest → e < 2 →
    (∀ phy fec, phy < 8 → fec < 4 → s.chip.ethUp e = false → s.chip.domOn (ethDom e) = true → s.chip.pw.dormant = false → s.chip.boot ≠ 0 →
      bitAt (s.chip.rd .ETH_PORT_CFG e).toNat 13 = true → phyOk (s.chip.rd .ETH_PORT_CFG e).toNat phy fec = true →
      ∃ t, exec (.ethLinkUp e phy fec) s = .next t ∧ t.kmp = s.kmp ∧ t.pending = s.pending ∧
        t.chip.fld F.ETH_PORT_STS.LINK_UP e = 1 ∧ t.chip.fld F.ETH_PORT_STS.PHY e = phy ∧ t.chip.fld F.ETH_PORT_STS.FEC e = fec ∧
        (t.chip.ethx e).cfg = (s.chip.rd .ETH_PORT_CFG e).toNat ∧
        s.chip.RegsBut [⟨.ETH_PORT_STS, e, 0⟩] t.chip ∧ { t.chip with regs := s.chip.regs, eth := s.chip.eth } = s.fresh) ∧
    (s.chip.is F.ETH_PORT_STS.LINK_UP e = true → s.chip.relay = none →
      ∃ t, exec (.ethLinkDown e) s = .next t ∧ t.kmp.sess = s.kmp.sess.filter (fun x => decide (x.eth ≠ e)) ∧ t.pending = s.pending ∧
        t.chip.fld F.ETH_PORT_STS.LINK_UP e = 0 ∧ t.chip.fld F.ETH_PORT_STS.SECURED e = 0 ∧
        t.chip.fld F.ETH_PORT_STS.LINK_DOWNS e = min (s.chip.fld F.ETH_PORT_STS.LINK_DOWNS e + 1) (2 ^ F.ETH_PORT_STS.LINK_DOWNS.width - 1) ∧
        s.chip.RegsBut [⟨.ETH_PORT_STS, e, 0⟩, ⟨.CNT_OVF, cntEth e 14 / 32, 0⟩] t.chip) ∧
    (∀ ip data, s.chip.ethCarries e = true →
      let sends (o : Output) : Host.Outcome State Fault Refusal := .next (s.withChip (({ s.chip with outbox := [o] } : Chip).count (cntEth e 1)))
      (s.chip.ownsIp4 e ip = true → exec (.arpRequest e ip) s = sends (.ethReply e 0 (s.chip.ethx e).mac)) ∧
      (s.chip.ownsIp6 e ip = true → exec (.neighbourSolicitation e ip) s = sends (.ethReply e 1 (s.chip.ethx e).mac)) ∧
      (s.chip.ownsIp4 e ip = true → exec (.icmpEchoRequest e false ip data) s = sends (.ethReply e 2 data)) ∧
      (s.chip.ownsIp6 e ip = true → exec (.icmpEchoRequest e true ip data) s = sends (.ethReply e 3 data)))

/-! ## Virtual switches: bindings, removal, admission, attachment -/

/-- BIND_VPPB of a bridge and target that pass every check of Table 6.3 records the target in VCS_VPPB_BIND at a new epoch, and takes a
target in Ready into service; its reply waits for the commit of that epoch (Table 6.4, R108). Where it reads or fixes more than the spec
says, the choice is the model's: log entries 38 and 39. -/
def Obligations.BindOpensAccessChange : Prop :=
  ∀ (s : State) (q : KmpReq) (x : Sess) (w0 w1 : W), s.chip.AtRest → q.wf = true → s.Hears 0x0200 q x → q.words = [w0, w1] →
    let b := (s.begun 0x0200 q x).chip
    let n := bitsOf w0.toNat 16 6
    let v := bitsOf w0.toNat 0 6
    let tgt := tgtOf w1.toNat
    b.bindStatus n v w1 = 0 → b.epFull = false →
      s.Does (.bindVppb q) fun t =>
        t.chip.rd .VCS_VPPB_BIND n v = w32 tgt.word ∧ t.chip.epCur = (b.epCur + 1) % 2 ^ 32 ∧
        (t.chip.vppb n v).binding = some ((b.epCur + 1) % 2 ^ 32, some (x.req 0x0200)) ∧ (t.chip.vppb n v).reach = false ∧
        ((tgt.type = 1 ∨ tgt.type = 2) → b.adm tgt.port = admReady → t.chip.adm tgt.port = admIn) ∧ t.Awaits x 0x0200

/-- UNBIND_VPPB of a Bound bridge begins a drain or a squash at a new epoch, from which the bridge's target is out of its host's reach
(R111, R112, Table 6.2). Where it reads or fixes more than the spec says, the choice is the model's: log entry 36. -/
def Obligations.UnbindBeginsDrainOrSquash : Prop :=
  ∀ (s : State) (q : KmpReq) (x : Sess) (w0 w1 : W), s.chip.AtRest → q.wf = true → s.Hears 0x0201 q x → q.words = [w0, w1] →
    s.chip.ert = [] →
    let b := (s.begun 0x0201 q x).chip
    let n := bitsOf w0.toNat 16 6
    let v := bitsOf w0.toNat 0 6
    b.is F.VCS_INST_CFG.EN n = true → v < b.vppbCount n → (b.vppb n v).binding = none → b.fld F.VCS_VPPB_STS.STATE n v = 2 →
    b.epFull = false →
      let began (next : Nat) : Drain := { next := next, epoch := (b.epCur + 1) % 2 ^ 32, began := s.chip.time, reqs := [x.req 0x0201] }
      s.Does (.unbindDrain q) (fun t =>
        t.chip.fld F.VCS_VPPB_STS.STATE n v = 3 ∧ (t.chip.vppb n v).drain = some (began 0) ∧ (t.chip.vppb n v).reach = false ∧
        t.chip.epCur = (b.epCur + 1) % 2 ^ 32 ∧ t.Awaits x 0x0201) ∧
      s.Does (.unbindSquash q) (fun t =>
        t.chip.fld F.VCS_VPPB_STS.STATE n v = 4 ∧ (t.chip.vppb n v).squash = some (began 0) ∧ (t.chip.vppb n v).reach = false ∧
        t.chip.fld F.VCS_VPPB_STS.SQUASHED n v = 0 ∧ t.chip.epCur = (b.epCur + 1) % 2 ^ 32 ∧ t.Awaits x 0x0201)

/-- PORT_REMOVE takes a port out of service, PORT_ADMIT trains one that is out of service or has failed, INST_ATTACH attaches the instance
of an upstream port in Ready at a new epoch (R118, R119, Table 6.8). Where it reads or fixes more than the spec says, the choice is the
model's: log entries 33, 35 and 37. -/
def Obligations.AdmissionRequestsMovePorts : Prop :=
  ∀ (s : State) (q : KmpReq) (x : Sess) (w : W), s.chip.AtRest → q.wf = true → q.words = [w] →
    (s.Hears 0x0202 q x →
      let b := (s.begun 0x0202 q x).chip
      let p := bitsOf w.toNat 0 7
      b.role p = 2 → b.bindingsOf p = [] → b.ert = [] → b.removals = [] → (∀ g, g < 32 → b.groveUses g p = false) →
      isIdle (b.ltssm p) = true → b.adm p ≠ admNA → b.adm p ≠ admOos → b.adm p ≠ admFailed →
        s.Does (.portRemove q) (fun t =>
          t.chip.adm p = admOos ∧ t.chip.fld F.VCS_PORT_ADM.OOS_CAUSE p = 1 ∧ t.chip.ltssm p = ltDisabled ∧
          t.Replied x 0x0202 0 [0, 0])) ∧
    (s.Hears 0x0203 q x →
      let b := (s.begun 0x0203 q x).chip
      let p := bitsOf w.toNat 0 7
      b.role p = 1 ∨ b.role p = 2 → b.adm p = admOos ∨ b.adm p = admFailed →
        s.Does (.portAdmit q) (fun t =>
          t.chip.adm p = admTraining ∧ (t.chip.port p).csbOos = false ∧ t.Replied x 0x0203 0 [0, 0])) ∧
    (s.Hears 0x0204 q x →
      let b := (s.begun 0x0204 q x).chip
      let n := bitsOf w.toNat 16 6
      b.is F.VCS_INST_CFG.EN n = true → b.adm (b.usp n) = admReady → b.epFull = false →
        s.Does (.instAttach q) (fun t =>
          t.chip.adm (b.usp n) = admIn ∧ t.chip.epCur = (b.epCur + 1) % 2 ^ 32 ∧
          (t.chip.vsw n).attaching = some ((b.epCur + 1) % 2 ^ 32, some (x.req 0x0204)) ∧ t.Awaits x 0x0204))

/-- WINDOW_SET of a window that passes every check of Table 7.4 puts it in force at a new epoch and answers that epoch (R135, R249). Where
it reads or fixes more than the spec says, the choice is the model's: log entry 42. -/
def Obligations.WindowSetCommitsWindow : Prop :=
  ∀ (s : State) (q : KmpReq) (x : Sess), s.chip.AtRest → q.wf = true → s.Hears 0x0210 q x → q.words.length = 36 →
    let b := (s.begun 0x0210 q x).chip
    let w (i : Nat) : W := q.words.getD i 0
    let n := bitsOf (w 0).toNat 16 6
    let k := bitsOf (w 0).toNat 0 5
    let c := winOf (w 1) (w 2) (w 3) ((List.range 16).map (fun i => w (4 + 2 * i))) ((List.range 16).map (fun i => w (5 + 2 * i)))
    b.windowCode n k c false = 0 → b.epFull = false →
      s.Does (.windowSet q) fun t =>
        t.chip.win n k = { b.sized c with epoch := (b.epCur + 1) % 2 ^ 32 } ∧ t.chip.epCur = (b.epCur + 1) % 2 ^ 32 ∧
        (∀ n' k', 32 * n' + k' ≠ 32 * n + k → t.chip.win n' k' = b.win n' k') ∧
        t.Replied x 0x0210 0 [0x100, w32 ((b.epCur + 1) % 2 ^ 32)]

/-! ## Groves and grafts: requests -/

/-- GROVE_CREATE makes a Free grove Seeding with the members named; GROVE_MEMBER_ADD and GROVE_MEMBER_REMOVE change the members;
GROVE_DISSOLVE frees a Seeding grove that nobody maps; FABRIC_ATOMIC on a Standing grove's memory goes to the home slice of its line,
and its reply waits (R152, R163, R165, R167, R168). Where it reads or fixes more than the spec says, the choice is the model's: log
entries 44 and 109. -/
def Obligations.GroveRequestsChangeGroves : Prop :=
  ∀ (s : State) (q : KmpReq) (x : Sess), s.chip.AtRest → q.wf = true →
    let w (i : Nat) : Nat := (q.words.getD i 0).toNat
    let g := w 0 % 32
    let n := bitsOf (w 0) 16 6
    (s.Hears 0x0300 q x →
      let b := (s.begun 0x0300 q x).chip
      let vec := w 1 + w 2 * 2 ^ 32
      q.words.length = groveWords q.words → b.pw.off = [] →
      b.createCode g vec (gwinDefs (bitsOf (w 0) 16 4 + 1) ((q.words.map (·.toNat)).drop 3)).1 = 0 →
        s.Does (.groveCreate q) (fun t =>
          t.chip.gst g = gSeeding ∧ t.chip.members g = vec ∧ t.chip.joined g = 0 ∧ t.Replied x 0x0300 0 [0, 0])) ∧
    (s.Hears 0x0301 q x →
      let b := (s.begun 0x0301 q x).chip
      q.words.length = 1 → b.gst g = gSeeding → b.groveTakes g = true → b.is F.VCS_INST_CFG.EN n = true → bitAt (b.members g) n = false →
      2 ≤ popCount (b.members g) + 1 →
        s.Does (.groveMemberAdd q) (fun t =>
          t.chip.members g = setBit (b.members g) n ∧ t.chip.gst g = gSeeding ∧ t.Replied x 0x0301 0 [0, 0])) ∧
    (s.Hears 0x0302 q x →
      let b := (s.begun 0x0302 q x).chip
      q.words.length = 1 → b.groveTakes g = true → bitAt (b.members g) n = true → bitAt (b.joined g) n = false →
      b.groveMapped g (some n) = false → 3 ≤ popCount (b.members g) →
        s.Does (.groveMemberRemove q) (fun t =>
          t.chip.members g = clrBit (b.members g) n ∧ t.Replied x 0x0302 0 [0, 0])) ∧
    (s.Hears 0x0303 q x →
      let b := (s.begun 0x0303 q x).chip
      q.words.length = 1 → b.gst g = gSeeding → b.is F.GRV_STS.REMOVING g = false → b.is F.GRV_STS.DISSOLVING g = false →
      b.groveMapped g none = false →
        s.Does (.groveDissolve q) (fun t =>
          t.chip.gst g = gFree ∧ t.chip.members g = 0 ∧ t.chip.joined g = 0 ∧ t.Replied x 0x0303 0 [0, 0])) ∧
    (∀ op size gw, s.Hears 0x0310 q x →
      let b := (s.begun 0x0310 q x).chip
      let ga := w 1 % 2 ^ 14 * 2 ^ 32 + w 2
      atomForm (w 0) = some (op, size) → q.words.length = 3 + arity op * size / 4 → b.gst g = gStanding → b.groveAt ga = some (g, gw) →
      ga % size = 0 →
        s.Does (.fabricAtomic q) fun t =>
          ∃ m : Msg, t.chip.msgs = b.msgs ++ [m] ∧ m.loc = .home (homeOf ga) ∧ m.addr = ga ∧ m.kind = .ioAtomic op size ∧
            m.data = bytesOfWords (q.words.drop 3) ∧ m.grove = some (g, gw) ∧ m.q = some (x.req 0x0310) ∧ t.Awaits x 0x0310)

/-- GRAFT_CREATE that passes Table 10.1 arms an entry for the channel named, a new one or that of an extent that is Set, which keeps the
target it had; GRAFT_ABORT takes a graft that has not switched off the table, or back to the target it had; GRAFT_RELEASE frees a Set
entry at a new epoch, a checked one only where no window reaches its extent; each is answered (R194, R195, R201, R202). Where it reads or
fixes more than the spec says, the choice is the model's: log entries 49 and 50. -/
def Obligations.GraftRequestsChangeEntries : Prop :=
  ∀ (s : State) (q : KmpReq) (x : Sess), s.chip.AtRest → q.wf = true →
    let w (i : Nat) : Nat := (q.words.getD i 0).toNat
    (s.Hears 0x0400 q x →
      let b := (s.begun 0x0400 q x).chip
      let src := extOf (w 1) (w 2)
      let tgt := extOf (w 3) (w 4)
      q.words.length = 5 → b.graftCheck (w 0 % 32) src tgt = 0 →
        s.Does (.graftCreate q) (fun t => ∃ c, b.chanOf (w 0 % 32) = some c ∧
          (let armed : Ert := { key := src, tgt := tgt, st := 1, chan := c, since := s.chip.time };
            t.chip.ert = match b.ertKey src with
              | none => b.ert ++ [{ armed with before := b.writesTo src.port }]
              | some e => b.ert.map (fun y => if y.key.same src then
                  { armed with prev := some (e.tgt, e.flip), before := b.writesTo e.tgt.port } else y)) ∧
          t.chip.fld F.MOV_CH_STS.STATE c = 1 ∧ t.chip.fld F.MOV_CH_STS.CHUNKS c = 0 ∧
          t.chip.fld F.MOV_CH_STS.CAUSE c = b.fld F.MOV_CH_STS.CAUSE c ∧
          t.chip.rd .MOV_CH_SRC_DPA c = w32 src.ext ∧ t.chip.rd .MOV_CH_TGT_DPA c = w32 tgt.ext ∧
          s.chip.Apart [.MOV_CH_STS, .MOV_CH_SRC, .MOV_CH_SRC_DPA, .MOV_CH_TGT, .MOV_CH_TGT_DPA, .MOV_CH_HELD] t.chip ∧
          t.Replied x 0x0400 0 [w32 (c * 0x10000), 0])) ∧
    (s.Hears 0x0401 q x →
      let b := (s.begun 0x0401 q x).chip
      ∀ e, q.words.length = 2 → b.ertKey (extOf (w 0) (w 1)) = some e → e.active = true → b.heldOf e.key = [] →
        s.Does (.graftAbort q) (fun t =>
          t.chip.ert = (match e.prev with
            | none => b.ert.filter (fun y => !y.key.same e.key)
            | some (old, flip) => b.ert.map (fun y => if y.key.same e.key then
                { e with st := 4, tgt := old, flip := flip, prev := none, chunks := [], before := [], next := 0 } else y)) ∧
          t.chip.fld F.MOV_CH_STS.STATE e.chan = 0 ∧ t.chip.fld F.MOV_CH_STS.CAUSE e.chan = 1 ∧
          t.chip.Raised chipCollector 9 clsC ∧ s.chip.Apart (.MOV_CH_STS :: recRegs) t.chip ∧ t.Replied x 0x0401 0 [0, 0])) ∧
    (s.Hears 0x0402 q x →
      let b := (s.begun 0x0402 q x).chip
      let k := extOf (w 1) (w 2)
      ∀ e, q.words.length = 3 → b.ertKey k = some e → e.active = false → b.epFull = false →
        let freed (t : State) : Prop := t.chip.ert = b.ert.filter (fun y => !y.key.same k) ∧ t.chip.epCur = (b.epCur + 1) % 2 ^ 32 ∧
          t.chip.fld F.MOV_CH_EPOCH.EPOCH e.chan = (b.epCur + 1) % 2 ^ 32 ∧ s.chip.Apart [.ACC_EPOCH_CUR, .MOV_CH_EPOCH] t.chip ∧
          t.Replied x 0x0402 0 [0x100, w32 ((b.epCur + 1) % 2 ^ 32)]
        s.Does (.graftReleaseForced q) freed ∧
        (b.winReaches k (k.ext * extBytes) extBytes none = false → b.groveReaches k (k.ext * extBytes) extBytes = false →
          s.Does (.graftReleaseChecked q) freed))

/-- GRAFT_SETTLE of a window's target whose whole range is Set on the new target points the window there at a new epoch (R206). -/
def Obligations.GraftSettlePointsWindow : Prop :=
  ∀ (s : State) (q : KmpReq) (x : Sess), s.chip.AtRest → q.wf = true → s.Hears 0x0403 q x → q.words.length = 3 →
    let b := (s.begun 0x0403 q x).chip
    let w (i : Nat) : Nat := (q.words.getD i 0).toNat
    let n := bitsOf (w 0) 16 6
    let k := bitsOf (w 0) 0 5
    let i := bitsOf (w 0) 8 4
    let c := b.win n k
    let ways := (waysOf c.iw).getD 1
    let len := (c.hi - c.lo) / ways
    let new := tgtOf (w 1)
    let hits := b.settleSet (c.tgt i) (c.dpaBase i) len
    let put (l : List W) (v : Nat) : List W := (List.range 16).map (fun j => if j = i then w32 v else l.getD j 0)
    let c' : Win := { c with ta := put c.ta new.word, tb := put c.tb (w 2 % 2 ^ 24) }
    b.is F.VCS_INST_CFG.EN n = true → c.en = true → c.isGrove = false → i < ways → hits.length * extBytes = len →
    (∀ e ∈ hits, e.tgt.port = new.port ∧ e.tgt.ld = new.ld ∧ e.tgt.type = new.type ∧
      e.tgt.ext * extBytes = w 2 % 2 ^ 24 * winUnit + (e.key.ext * extBytes - c.dpaBase i)) →
    b.otherReaches { type := (c.tgt i).type, port := (c.tgt i).port, ld := (c.tgt i).ld, ext := 0 } (c.dpaBase i) len n k = false →
    b.windowCode n k c' true = 0 → b.epFull = false →
      s.Does (.graftSettle q) fun t =>
        t.chip.win n k = { b.sized c' with epoch := (b.epCur + 1) % 2 ^ 32 } ∧
        t.chip.settles = b.settles ++ [((b.epCur + 1) % 2 ^ 32, hits.map (·.key))] ∧
        t.Replied x 0x0403 0 [0x100, w32 ((b.epCur + 1) % 2 ^ 32)]

/-! ## Mailbox requests -/

/-- MAILBOX_REPLY from the holder of the relay role, with the tag of the command that waits, completes it to its host (R126, R247);
FMAPI_TUNNEL passes a tunnelled command to a device whose port is up and answers what the device answers (R248). Where it reads or fixes
more than the spec says, the choice is the model's: log entries 20 and 105. -/
def Obligations.MailboxRequestsReachHostAndDevice : Prop :=
  ∀ (s : State) (q : KmpReq) (x : Sess), s.chip.AtRest → q.wf = true →
    let w (i : Nat) : Nat := (q.words.getD i 0).toNat
    (s.Hears 0x0500 q x →
      let b := (s.begun 0x0500 q x).chip
      let n := bitsOf (w 0) 16 6
      ∀ y, b.holdsRelay x.num = true → (b.vsw n).mbx = some y → y.tag = w 1 → w 3 ≤ 4096 → q.words.length = 4 + (w 3 + 3) / 4 →
        s.Answers (.mailboxReply q) 0x0500 q x
          (((b.setVsw n { b.vsw n with mbx := none }).set F.VCS_MBX_STS.RELAY_PENDING 0 n).out
            (.mailbox n (w 2 % 2 ^ 16) ((bytesOfWords (q.words.drop 4)).take (w 3)))) 0 [[]]) ∧
    (s.Hears 0x0510 q x →
      let b := (s.begun 0x0510 q x).chip
      let req := (bytesOfWords (q.words.drop 1)).take (w 0)
      let d := req.drop 12
      ∀ r, 12 ≤ w 0 → q.words.length = 1 + (w 0 + 3) / 4 → natOfBytes ((req.drop 3).take 2) = 0x5300 → (b.port (byteAt d 0)).up = true →
        q.response = some r →
          s.Answers (.fmapiTunnel q) 0x0510 q x (b.out (.tunnel (byteAt d 0) 0xFFFF (d.drop 4))) 0
            [(tunnelWords (cciResponse req cciSuccess (bytesOfNat 2 r.length ++ [0#8, 0#8] ++ r))).map w32])

/-! ## Power requests -/

/-- POWER_QUERY answers the domains that are on and the operating point; POWER_OFF of domains of which none refuses begins the handshake
with every domain below them that is on; POWER_ON switches on the domains named with every domain above them; ENTER_DORMANT with the
alarm armed at least 10 ms ahead begins the handshake with every domain that is on; SET_OPERATING_POINT to a voltage no higher changes
the clock at once, and to a higher one writes the voltage first and waits (R313, R314, R316, R320, R324). Where it reads or fixes more
than the spec says, the choice is the model's: log entries 64, 72 and 75. -/
def Obligations.PowerRequestsReachController : Prop :=
  ∀ (s : State) (q : KmpReq) (x : Sess), s.chip.AtRest → s.chip.scrubs = [] → q.wf = true → s.Hears 0x0600 q x →
    let b := (s.begun 0x0600 q x).chip
    let w (i : Nat) : Nat := (q.words.getD i 0).toNat
    let named := maskDoms ((List.range 6).map (fun i => w (1 + i)))
    let u := (b.count (cntChip 9)).set F.PWR_ENTRY_STS.BUSY 1
    let begins (c : Instr) (action : Nat) (doms : List Nat) : Prop := s.Does c fun t =>
      t.chip.pw = { b.pw with cmd := some { src := .kmp (x.req 0x0600) q.eth, action := action, op := w 0 % 4, named := if action = 1 then named else []
                                            doms := doms, left := doms, phase := 1, since := s.chip.time } } ∧
        t.chip.fld F.PWR_ENTRY_STS.BUSY = 1 ∧ t.Awaits x 0x0600
    (q.words.length = 1 →
      s.Answers (.powerQuery q) 0x0600 q x (b.count (cntChip 9)) 0
        [((0 :: (List.range 7).map b.domWord) ++ [b.fld F.PWR_OP_STS.CUR + b.fld F.PWR_OP_STS.BUSY * 16]).map w32]) ∧
    (q.words.length = 7 → (∀ d ∈ named, d < 181) → b.is F.FLT_SAFE_STS.SAFE = false →
      let l := (closure domsBelow named).filter b.domOn
      l ≠ [] → u.takeRefusal (.kmp (x.req 0x0600) q.eth) false (closure domsBelow named) = none → begins (.powerOff q) 1 l) ∧
    (q.words.length = 7 → (∀ d ∈ named, d < 181) → b.is F.FLT_SAFE_STS.SAFE = false → b.domOn 176 = true →
      let l := (closure domsAbove named).filter (fun d => !b.domOn d)
      (∀ d ∈ l, ∀ n h, bndOf d = some (n, h) → b.fld F.NOC_BND_STS.STATE n h < 3) → (∀ d ∈ l, d < 128 → b.fld F.CEL_PORT_CFG.ROLE d = 0) →
        s.Does (.powerOn q) fun t => t.chip.pw.off = b.pw.off.filter (fun d => !l.contains d) ∧ t.chip.pw.cmd = none ∧
          t.chip.fld F.PWR_ENTRY_STS.BUSY = 0 ∧ t.chip.fld F.PWR_ENTRY_STS.RESULT = 0 ∧ t.Replied x 0x0600 0 [0, 0]) ∧
    (q.words.length = 1 → b.is F.FLT_SAFE_STS.SAFE = false → b.is F.TMB_CFG.ALARM_ARM = true → b.ns + 10000000 ≤ b.alarmNs →
      let l := (List.range 182).filter b.domOn
      l ≠ [] → u.takeRefusal (.kmp (x.req 0x0600) q.eth) true (List.range 182) = none → begins (.enterDormant q) 3 l) ∧
    (q.words.length = 1 → b.is F.FLT_SAFE_STS.SAFE = false → b.pw.raise = none →
      (b.setpoint (w 0 % 4) ≤ b.fld F.PWR_OP_STS.SETPOINT_MV →
        s.Does (.setOperatingPoint q) fun t => t.chip.fld F.PWR_OP_STS.CUR = w 0 % 4 ∧ t.chip.fld F.PWR_OP_STS.TARGET = w 0 % 4 ∧
          t.chip.fld F.PWR_OP_STS.SETPOINT_MV = b.setpoint (w 0 % 4) ∧ t.chip.fld F.PWR_OP_STS.BUSY = 0 ∧ t.Replied x 0x0600 0 [0, 0]) ∧
      (b.fld F.PWR_OP_STS.SETPOINT_MV < b.setpoint (w 0 % 4) →
        s.Does (.setOperatingPoint q) fun t => t.chip.fld F.PWR_OP_STS.CUR = b.fld F.PWR_OP_STS.CUR ∧
          t.chip.fld F.PWR_OP_STS.TARGET = w 0 % 4 ∧ t.chip.fld F.PWR_OP_STS.SETPOINT_MV = b.setpoint (w 0 % 4) ∧
          t.chip.fld F.PWR_OP_STS.BUSY = 1 ∧ t.chip.pw.raise = some s.chip.time ∧ .avs (b.setpoint (w 0 % 4)) ∈ t.chip.outbox ∧
          t.Awaits x 0x0600))

/-! ## Fault and reset requests -/

/-- FAULT_CLEAR of an open record with no live source closes it and writes it to the fault log; FAULT_RESUME leaves safe state where no
class F record is open, in mode 0 with the waves from now, in mode 1 by a warm reset; CHIP_RESET is a warm reset, which keeps time,
counters, fault log, fuses and flash (R3, R276, R287, R288, R290, R292). Where it reads or fixes more than the spec says, the choice is
the model's: log entries 62, 68 and 96. -/
def Obligations.FaultAndResetRequestsAct : Prop :=
  ∀ (s : State) (q : KmpReq) (x : Sess), s.chip.AtRest → q.wf = true →
    let w0 := (q.words.getD 0 0).toNat
    let warm (t : State) : Prop := t.kmp.sess = [] ∧ t.chip.boot = 0 ∧ t.chip.time = s.chip.time ∧ t.chip.resetAt = s.chip.time ∧
      t.chip.fuses = s.chip.fuses ∧ t.chip.flash = s.chip.flash ∧ t.chip.sram = [] ∧ t.chip.msgs = [] ∧
      t.chip.is F.PWR_RESET_CAUSE.WARM = true ∧ t.chip.is F.FLT_SAFE_STS.SAFE = false ∧ t.chip.fld F.IMG_STS.STATE = 0 ∧
      (∀ i j, t.chip.rd .FLT_LOG i j = s.chip.rd .FLT_LOG i j) ∧ (∀ c, t.chip.rd .FLT_REC_SRC c = s.chip.rd .FLT_REC_SRC c) ∧
      (∀ n, n < 0x800 → t.chip.counter n = s.chip.counter n) ∧ (∀ p, t.chip.rd .CEL_PORT_CFG p = 0)
    (s.Hears 0x0610 q x → q.words.length = 1 → w0 % 256 ≤ 168 →
      let b := (s.begun 0x0610 q x).chip
      let c := w0 % 256
      let n := b.fld F.FLT_LOG_PTR.NEXT
      b.is F.FLT_REC_STS.OPEN c = true → b.liveBits c = 0 →
        s.Does (.faultClear q) fun t => t.chip.is F.FLT_REC_STS.OPEN c = false ∧ t.chip.rd .FLT_REC_SRC c = 0 ∧
          t.chip.rd .FLT_LOG n 0 = w32 (b.fld F.FLT_REC_STS.CLASS c * 2 ^ 30 + b.fld F.FLT_REC_STS.MERGED c * 2 ^ 16 + c) ∧
          t.chip.rd .FLT_LOG n 1 = b.rd .FLT_REC_SRC c ∧ t.chip.rd .FLT_LOG n 2 = b.rd .FLT_REC_TIME_HI c ∧
          t.chip.rd .FLT_LOG n 3 = b.rd .FLT_REC_TIME_LO c ∧ t.chip.fld F.FLT_LOG_PTR.NEXT = (n + 1) % 64 ∧
          (∀ p bit, parentOf c = some (p, bit) → bitAt (t.chip.rd .FLT_REC_SRC p).toNat bit = false) ∧
          t.Replied x 0x0610 0 [w32 (2 ^ 16), 0]) ∧
    (s.Hears 0x0611 q x → q.words.length = 1 →
      let b := (s.begun 0x0611 q x).chip
      b.is F.FLT_SAFE_STS.SAFE = true → b.openF = none →
        (b.pw.testing = [] → b.started = true → b.failTest = none →
          s.Does (.faultResumeRestart q) fun t => t.chip.is F.FLT_SAFE_STS.SAFE = false ∧ t.chip.fld F.FLT_SAFE_STS.FAIL_T = 1 ∧
            t.chip.fld F.FLT_SAFE_STS.FAIL_C = 0 ∧ t.chip.dieLost = false ∧ t.chip.slotHold = false ∧
            t.chip.waves = List.range 8 ∧ t.chip.waveZero = s.chip.time ∧ t.chip.fld F.IMG_STS.WAVES = 0 ∧ t.Replied x 0x0611 0 [0, 0]) ∧
        s.Does (.faultResumeWarm q) (fun t => warm t ∧ t.Replied x 0x0611 0 [0, 0])) ∧
    (s.Hears 0x0620 q x → q.words = [] → s.Does (.chipReset q) fun t => warm t ∧ t.Replied x 0x0620 0 [])

/-! ## Self-tests -/

/-- SELF_TEST that Table 19.2 does not refuse starts its test: BST_STS shows it and its reply waits (R365, R368 to R370). Where it reads or
fixes more than the spec says, the choice is the model's: log entries 82 and 83. -/
def Obligations.SelfTestRequestsStart : Prop :=
  ∀ (s : State) (q : KmpReq) (x : Sess), s.chip.AtRest → q.wf = true → s.Hears 0x0630 q x →
    let b := (s.begun 0x0630 q x).chip
    let named (k : Nat) : Nat := testMask k q.words
    let starts (c : Instr) (k : Nat) : Prop :=
      q.words.length = testWords k → named k ≠ 0 → named k < 2 ^ testWidth k → s.Does c fun t =>
        (∃ y, t.chip.test = some y ∧ y.q = x.req 0x0630 ∧ y.kind = k ∧ y.named = named k ∧ y.since = s.chip.time) ∧
          t.chip.is F.BST_STS.BUSY = true ∧ t.chip.fld F.BST_STS.TEST = k ∧ t.Awaits x 0x0630
    let atRest : Prop := (∀ c, c < 128 → b.cellUp c = false) ∧ b.groveLives = false ∧ b.txns = [] ∧ b.ert = [] ∧ b.inners = [] ∧
      b.pw.testing = [] ∧ b.scrubs = [] ∧ ∀ r, r < 8 → b.fld F.NOC_BND_STS.STATE r 0 ≠ 4
    b.is F.FLT_SAFE_STS.SAFE = false →
      starts (.selfTestMemory q) 1 ∧
      (b.lc = 1 ∨ b.lc = 3 → atRest → starts (.selfTestFullBist q) 2 ∧ starts (.selfTestLogicBist q) 3) ∧
      ((∀ c, c < 128 → b.coverOf c = none ∧ b.is F.CEL_LINK_CFG.TEST_EN c = false) → starts (.selfTestLane q) 4) ∧
      starts (.selfTestSlotConverter q) 5 ∧ starts (.selfTestDroop q) 6 ∧ starts (.selfTestTemperature q) 7

/-- A section of the memory test that is not done within 2 µs waits 100 µs and is tried again, three times, and is then skipped; a test that
ends shows its result, its time and what failed, and answers its request (R368, R370). Where it reads or fixes more than the spec says,
the choice is the model's: log entries 83 and 84. -/
def Obligations.SelfTestsRunAndEnd : Prop :=
  ∀ (s : State) (y : TestX), ({ s.chip with test := none } : Chip).AtRest → s.chip.test = some y → y.waits = false →
    (∀ u c n, u ≤ 8 → c < 16 → n < sectionsOf u c → y.kind = 1 → bitAt y.named u = true → bitAt y.skipped u = false →
      let now (tries : Nat) (busy : Bool) : TestSect := { unit := u, c := c, ix := n, tries := tries, busy := busy, since := s.chip.time }
      let becomes (l : List TestSect) : Chip := { s.fresh with test := some { y with sects := l } }
      (Instr.wf (.testSectionTimeout u c n) = true → y.sects = [] →
        exec (.testSectionTimeout u c n) s = .next (s.withChip (becomes [now 0 false]))) ∧
      (∀ k t0, y.sects = [{ unit := u, c := c, ix := n, tries := k, busy := true, since := t0 }] → t0 + 2 * usT ≤ s.chip.time →
        Instr.wf (.testSectionTimeout u c n) = true →
          exec (.testSectionTimeout u c n) s = .next (s.withChip
            (if k < 3 then becomes [now k false] else (becomes []).bump F.BST_SKIPPED.SECTIONS 1))) ∧
      (∀ k t0, y.sects = [{ unit := u, c := c, ix := n, tries := k, busy := false, since := t0 }] → t0 + 100 * usT ≤ s.chip.time →
        Instr.wf (.testSectionRetry u c n) = true →
          exec (.testSectionRetry u c n) s = .next (s.withChip (becomes [now (k + 1) true])))) ∧
    (∀ failed sigs x, y.kind = 7 → s.Owes y.q x → s.chip.pw.testing = [] → Instr.wf (.selfTestEnd failed sigs []) = true →
      let mine := maskOf ((List.range 10).filter (bitAt failed))
      let us := min ((s.chip.time - y.since) / usT) 0xFFFFFFFF
      s.Does (.selfTestEnd failed sigs []) fun t => t.chip.test = none ∧ t.chip.is F.BST_STS.BUSY = false ∧
        t.chip.fld F.BST_STS.RESULT = (if mine = 0 then 0 else 1) ∧ t.chip.rd .BST_DUR = w32 us ∧ t.chip.rd .BST_FAIL = w32 mine ∧
        t.Answered x y.q 0 [w32 (if mine = 0 then 0 else 1), w32 us, w32 mine, w32 y.skipped])

/-! ## Image and life-cycle requests -/

/-- IMAGE_ERASE erases pages of an area that is not loaded, IMAGE_WRITE clears bits there, IMAGE_READ answers its bytes, IMAGE_VERIFY the
check of a slot (R271, Table 13.11). Where it reads or fixes more than the spec says, the choice is the model's: log entries 11 and 102. -/
def Obligations.ImageRequestsReachFlash : Prop :=
  ∀ (s : State) (q : KmpReq) (x : Sess), s.chip.AtRest → q.wf = true → q.flashError = false →
    let w (i : Nat) : Nat := (q.words.getD i 0).toNat
    let area := w 0 % 4
    (s.Hears 0x0700 q x → q.words.length = 3 → area ≠ 3 → w 1 + w 2 ≤ areaPages area →
      (s.begun 0x0700 q x).chip.areaActive area = false →
        s.Does (.imageErase q) fun t => t.Replied x 0x0700 0 [0] ∧
          ∀ p, t.chip.page p = if areaBase area + w 1 ≤ p ∧ p < areaBase area + w 1 + w 2 then blankPage else s.chip.page p) ∧
    (s.Hears 0x0701 q x → 67 ≤ q.words.length → q.words.length ≤ 1027 → area ≠ 3 → w 2 % 256 = 0 →
      let d := bytesOfWords (q.words.drop 3)
      let a := 4096 * w 1 + w 2 % 4096
      a + d.length ≤ 4096 * areaPages area → (s.begun 0x0701 q x).chip.areaActive area = false → (∀ p, (s.chip.page p).length = 4096) →
        s.Does (.imageWrite q) fun t => t.Replied x 0x0701 0 [0] ∧
          ∀ i, let old := (s.chip.page (i / 4096)).getD (i % 4096) 0
            let base := 4096 * areaBase area + a
            (t.chip.page (i / 4096)).getD (i % 4096) 0 = if base ≤ i ∧ i < base + d.length then old &&& d.getD (i - base) 0 else old) ∧
    (s.Hears 0x0702 q x → q.words.length = 4 → area ≠ 3 → w 2 % 4 = 0 → w 3 % 4 = 0 → 4 ≤ w 3 → w 3 ≤ 4096 →
      4096 * w 1 + w 2 + w 3 ≤ 4096 * areaPages area →
        s.Answers (.imageRead q) 0x0702 q x (s.begun 0x0702 q x).chip 0
          [(0 :: wordsOfBytes (s.chip.flashBytes (4096 * areaBase area + 4096 * w 1 + w 2) (w 3))).map w32]) ∧
    (s.Hears 0x0703 q x → q.words.length = 1 → w 0 < 2 → ∀ h,
      let b := (s.begun 0x0703 q x).chip
      let p := (b.readHeader (w 0)).1
      let r := b.checkSlot (w 0) h p.data true
      (b.readHeader (w 0)).2.2 = some h →
        s.Does (.imageVerify q) fun t => t.chip.flash = s.chip.flash ∧
          t.Replied x 0x0703 0 (([if r.cause = 0 then 0 else 5, r.cause, b2n p.decoded + r.decoded, p.fixed + r.fixed, h.seq / 2 ^ 32,
            h.seq % 2 ^ 32] : List Nat).map w32))

/-- LC_STATE answers the state; LC_RETURN gives a challenge that nothing tells, and with a token over it begins the programming of Return;
LC_ADVANCE begins the programming of the next state; the challenge is forgotten after 600 s; fuses that verify move the state by a warm
reset, a fuse that fails leaves it (R372 to R374, Tables 19.4, 19.5). Where it reads or fixes more than the spec says, the choice is the
model's: log entries 16 and 85. -/
def Obligations.LifeCycleAdvances : Prop :=
  ∀ (s : State) (q : KmpReq) (x : Sess), s.chip.AtRest → q.wf = true →
    let w0 := (q.words.getD 0 0).toNat
    let id := s.chip.fuses.chipId
    (s.Hears 0x0710 q x → q.words = [] → s.Answers (.lcState q) 0x0710 q x (s.begun 0x0710 q x).chip 0 [[w32 s.chip.lc]]) ∧
    (s.Hears 0x0711 q x → q.words.length = 1 → s.chip.lcJob = none →
      let b := (s.begun 0x0711 q x).chip
      let c := Config.entropy b.freeCtr % 2 ^ 128
      s.Answers (.lcReturnChallenge q) 0x0711 q x
        ((({ b with challenge := some (c, s.chip.time) } : Chip).useFree).set F.LCS_STATE.LAST_RESULT 0) 0
        [([0, id / 2 ^ 32, id % 2 ^ 32, c / 2 ^ 96, c / 2 ^ 64 % 2 ^ 32, c / 2 ^ 32 % 2 ^ 32, c % 2 ^ 32] : List Nat).map w32]) ∧
    (s.Hears 0x0711 q x → q.words.length = 55 → s.chip.lcJob = none → ∀ c t0, s.chip.challenge = some (c, t0) →
      let key := bytesOfWords ((q.words.drop 7).take 24)
      wordsNat q.words 1 2 = id → wordsNat q.words 3 4 = c → s.chip.fuses.keyOk key = true →
      Config.ecdsaOk key ([0x56, 0x52, 0x45, 0x54] ++ bytesOfWords ((q.words.drop 1).take 6)) (bytesOfWords ((q.words.drop 31).take 24)) = true →
        s.Does (.lcReturnToken q) fun t => t.chip.challenge = none ∧ t.chip.lcJob = some { q := x.req 0x0711, target := 3, hash := 0 } ∧
          t.chip.is F.LCS_STATE.PROGRAMMING = true ∧ t.chip.fuses = s.chip.fuses ∧ t.Awaits x 0x0711) ∧
    (s.Hears 0x0712 q x → s.chip.lcJob = none → advances s.chip.lc (w0 % 8) = true →
      let hash := wordsNat q.words 1 12
      q.words.length = (if w0 % 8 = 2 then 13 else 1) → (w0 % 8 = 2 → s.chip.fuses.keyHash &&& hash = s.chip.fuses.keyHash) →
        s.Does (.lcAdvance q) fun t => t.chip.lcJob = some { q := x.req 0x0712, target := w0 % 8, hash := hash } ∧
          t.chip.is F.LCS_STATE.PROGRAMMING = true ∧ t.chip.fuses = s.chip.fuses ∧ t.Awaits x 0x0712) ∧
    (∀ c t0, s.chip.challenge = some (c, t0) → t0 + 600 * secT ≤ s.chip.time →
      exec .lcChallengeExpire s = .next (s.withChip { s.fresh with challenge := none })) ∧
    (∀ j y left, s.chip.lcJob = some j → s.Owes j.q y → Instr.wf (.lcFuseProgramDone true left) = true →
      s.Does (.lcFuseProgramDone true left) (fun t => t.chip.fuses = s.chip.fuses.advance j ∧
        t.chip.lc = (s.chip.fuses.advance j).state % 8 ∧ t.chip.is F.PWR_RESET_CAUSE.WARM = true ∧ t.kmp.sess = [] ∧ t.Answered y j.q 0 [0]) ∧
      s.Does (.lcFuseProgramDone false left) (fun t => t.chip.fuses.state = s.chip.fuses.state ∧ t.chip.lc = s.chip.lc ∧
        t.chip.lcJob = none ∧ t.chip.is F.LCS_STATE.PROGRAMMING = false ∧ t.chip.fld F.LCS_STATE.LAST_RESULT = 3 ∧ t.Answered y j.q 0 [3]))

/-! ## Resets and start-up -/

/-- COLD_RESET, PWRON_N low for 5 µs or longer, and AO_BROWNOUT take every register and memory to its reset value and end every session;
fuses and flash are kept; PWR_RESET_CAUSE tells which it was (R3, R322). Where it reads or fixes more than the spec says, the choice is
the model's: log entries 94 and 96. -/
def Obligations.ResetsClearTheChip : Prop :=
  ∀ s : State,
    let cleared (pwron brownout : Bool) (t : State) : Prop := t.pending = s.pending ∧ t.kmp.sess = [] ∧ t.chip.time = 0 ∧ t.chip.boot = 0 ∧
      t.chip.sram = [] ∧ t.chip.cnt = [] ∧ t.chip.hist = [] ∧ t.chip.msgs = [] ∧ t.chip.opens = [] ∧ t.chip.snf = [] ∧ t.chip.ert = [] ∧
      t.chip.wins = [] ∧ t.chip.slots = [] ∧ t.chip.pw.off = [] ∧ t.chip.relay = none ∧ t.chip.test = none ∧ t.chip.lcJob = none ∧
      t.chip.fuses = s.chip.fuses ∧ t.chip.flash = s.chip.flash ∧ t.chip.lc = s.chip.fuses.state % 8 ∧
      t.chip.is F.PWR_RESET_CAUSE.PWRON = pwron ∧ t.chip.is F.PWR_RESET_CAUSE.AO_BROWNOUT = brownout ∧
      ∀ g : Reg, g.name ≠ .PWR_RESET_CAUSE → g.name ≠ .LCS_STATE → g.name ≠ .LCS_CHIP_ID_LO → g.name ≠ .LCS_CHIP_ID_HI →
        t.chip.rd g.name g.i g.j = g.reset
    (∀ low, 5000 ≤ low → ∃ t, exec (.coldReset low) s = .next t ∧ cleared true false t) ∧
      ∀ held, ∃ t, exec (.aoBrownout held) s = .next t ∧ cleared (!held) held t

/-- START_UP loads the first slot in order of sequence that holds a valid image, or finds the image invalid; IMAGE_DONE puts its START, NETWORK and PROGRAM sections in force, shows the
healthy code and sets the waves; WAVE_BEGIN begins a wave's cells, and a port that passes its check trains; ROLLBACK_ADVANCE blows the
rollback fuses 1 s after the reset (R259 to R261, R268, R269, Table 13.9). Where it reads or fixes more than the spec says, the choice
is the model's: log entries 95, 97, 98 and 101. -/
def Obligations.StartUpLoadsImageAndWaves : Prop :=
  ∀ (s : State), s.chip.AtRest →
    (∀ x : StartIn, Instr.wf (.startUp x) = true → s.chip.boot = 0 → s.chip.is F.PWR_RESET_CAUSE.WARM = true ∨ s.chip.pw.rails = [] →
      let c := (foldl' x.pages (fun p (c : Chip) => c.setPage p.1 p.2) s.fresh).decodeLc
      let head (k : Nat) : Option Header := (c.readHeader k).2.2
      let check (k : Nat) (h : Header) : Nat := (c.checkSlot k h (c.readHeader k).1.data true).cause
      let first (k : Nat) (h : Header) : Prop := k < 2 ∧ head k = some h ∧
        ∀ y, head (1 - k) = some y → y.seq < h.seq ∨ (y.seq = h.seq ∧ k = 0)
      let began (t : State) : Prop := t.chip.time = (if s.chip.is F.PWR_RESET_CAUSE.WARM then s.chip.time else 0) ∧
        t.chip.lc = s.chip.fuses.state % 8 ∧ t.chip.fld F.PWR_OP_STS.SETPOINT_MV = s.chip.setpoint 0 ∧
        .avs (s.chip.setpoint 0) ∈ t.chip.outbox
      let loads (k : Nat) (h : Header) (t : State) : Prop := began t ∧ t.chip.boot = 1 ∧ t.kmp = s.kmp ∧ t.chip.fld F.IMG_STS.SLOT = k ∧
        t.chip.is F.IMG_SLOT_STS.PASSED k = true ∧ t.chip.fld F.IMG_SLOT_STS.CAUSE k = 0 ∧
        t.chip.is F.IMG_SLOT_STS.PASSED (1 - k) = false ∧ t.chip.rd .IMG_SEQ_LO = w32 h.seq
      let invalid (cause : Nat) (t : State) : Prop := began t ∧ t.chip.boot = 2 ∧ 2 ≤ t.chip.fld F.IMG_STS.STATE ∧
        t.chip.fld F.IMG_STS.CAUSE = cause ∧ t.chip.Raised chipCollector 2 clsF ∧ t.chip.is F.FLT_SAFE_STS.SAFE = true
      (∀ k h, x.flash = 0 → first k h → check k h = 0 → s.Does (.startUp x) (loads k h)) ∧
      (∀ k h y, x.flash = 0 → first k h → check k h ≠ 0 → head (1 - k) = some y → check (1 - k) y = 0 →
        s.Does (.startUp x) fun t => loads (1 - k) y t ∧ t.chip.is F.IMG_STS.FALLBACK = true ∧
          t.chip.fld F.IMG_SLOT_STS.CAUSE k = check k h) ∧
      (x.flash = 0 → head 0 = none → head 1 = none → s.Does (.startUp x) (invalid (c.readHeader 1).2.1)) ∧
      (0 < x.flash → s.Does (.startUp x) fun t => invalid (min x.flash 2) t ∧ t.chip.fld F.IMG_STS.STATE = 3)) ∧
    (∀ (h : Header) (stream : List Byte), s.chip.boot = 1 → s.chip.loaded = some (h, stream) →
      (∀ x ∈ h.sections, x.type < 3 ∨ 6 < x.type) → s.chip.is F.FLT_SAFE_STS.SAFE = false → s.chip.failTest = none → s.chip.dieLost = false →
      let start := (h.sections.filter (fun x => decide (x.type = 1))).foldl (fun _ x => startOf (x.bytes stream)) s.chip.start
      start.opPoint % 4 = 0 →
        s.Does .imageDone fun t => t.chip.boot = 2 ∧ t.chip.started = true ∧ t.chip.start = start ∧ t.chip.fld F.IMG_STS.STATE = 1 ∧
          t.chip.waves = List.range 8 ∧ t.chip.waveZero = max s.chip.time (s.chip.resetAt + max start.firstMs 120 * msT) ∧
          t.chip.fld F.FLT_SAFE_STS.FAIL_T = 1 ∧ t.chip.fld F.FLT_SAFE_STS.FAIL_C = 0 ∧
          t.chip.mgmt = ((h.programs stream).head?).map (fun p => (p.level, p.addr + p.entry))) ∧
    (∀ w, w < 8 → w ∈ s.chip.waves → s.chip.is F.FLT_SAFE_STS.SAFE = false → s.chip.fld F.IMG_STS.STATE = 1 →
      s.chip.waveZero + s.chip.waveGap * w ≤ s.chip.time →
        s.Does (.waveBegin w) fun t => t.chip.waves = s.chip.waves.filter (fun x => decide (x ≠ w)) ∧
          t.chip.fld F.IMG_STS.WAVES = 8 - t.chip.waves.length ∧
          (∀ c, c < 128 → s.chip.waveOf (c / 4) = w → s.chip.domOn c = true → (t.chip.port c).waved = true) ∧
          ∀ c, c < 128 → s.chip.waveOf (c / 4) = w → s.chip.fld F.CEL_PORT_CFG.ROLE c = 2 →
            (∀ q, q ≠ c → s.chip.fld F.CEL_PORT_CFG.ROLE q = 0) → s.chip.cfgBad c = false → s.chip.poolBad c = false →
            s.chip.adm c = admNA ∨ s.chip.adm c = admDown → (s.chip.port c).surplus = false →
            (∀ d ∈ covered c (s.chip.fld F.CEL_PORT_CFG.WIDTH c), s.chip.domOn d = true) →
              (t.chip.port c).step = 1 ∧ (t.chip.port c).downSince = some s.chip.time ∧ t.chip.ltssm c = ltDetect ∧ t.chip.adm c = admDown) ∧
    (∀ (h : Header) (stream : List Byte), s.chip.fld F.IMG_STS.STATE = 1 → s.chip.resetAt + secT ≤ s.chip.time →
      let n := s.chip.fld F.IMG_RB.IMAGE
      s.chip.fuses.rollback < n → s.chip.loaded = some (h, stream) → h.advance = true →
        exec .rollbackAdvance s = .next (s.withChip
          ((({ s.fresh with fuses := { s.chip.fuses with rollback := n } } : Chip).set F.IMG_RB.FUSED n).set F.IMG_RB.ADVANCED 1)))

/-! ## Ports: configuration and training -/

/-- CEL_PORT_CFG_WRITE makes a port of a Disabled cell, or is refused while the port is live; training goes from receiver detection through
Polling and Configuration, where rate, CXL and flit mode are agreed, to the speed changes; LINK_UP reports the port up and in service
with its credits advertised; a step that fails goes back to Detect (R24, R26, R34, R48, R49, R51, R70, Table 3.4). Where it reads or
fixes more than the spec says, the choice is the model's: log entries 28, 32 and 39. -/
def Obligations.PortsConfigureAndTrain : Prop :=
  ∀ (s : State) (p : Nat), s.chip.Still → p < 128 →
    let x := s.chip.port p
    let calm : Prop := s.chip.is F.FLT_SAFE_STS.SAFE = false ∧ s.chip.bridgesVia p = []
    (∀ v : W,
      let new := w32 (v.toNat &&& readMask .CEL_PORT_CFG)
      let counted := foldl' (List.range 4) (fun l (c : Chip) => c.prbsCount p l) s.fresh
      let c := (counted.wr .CEL_PORT_CFG p 0 new).set F.CEL_PORT_STS.CFG_ERROR 0 p
      (s.chip.role p ≠ 0 → bitsOf v.toNat 0 3 ≠ 0 →
        exec (.celPortCfgWrite p v) s = .next (s.withChip (s.fresh.set F.CEL_PORT_STS.CFG_REFUSED 1 p))) ∧
      (s.chip.role p = 0 → bitsOf v.toNat 0 3 = 0 → exec (.celPortCfgWrite p v) s = .next (s.withChip
        (if s.chip.is F.CEL_LINK_CFG.TEST_EN p = true then c.applyTest p else c))) ∧
      (s.chip.role p = 0 → s.chip.coverOf p = none → bitsOf v.toNat 0 3 = 2 → c.cfgBad p = false → c.poolBad p = false → x.waved = false →
        s.Does (.celPortCfgWrite p v) fun t => t.kmp.sess.length = s.kmp.sess.length ∧ t.chip.rd .CEL_PORT_CFG p = new ∧ t.chip.role p = 2 ∧
          t.chip.adm p = admDown ∧ t.chip.fld F.VCS_PORT_ADM.OOS_CAUSE p = 0 ∧
          s.chip.Apart [.CEL_PORT_CFG, .CEL_PORT_STS, .VCS_PORT_ADM, .LNK_PRBS_BITS] t.chip)) ∧
    (calm → x.step = 2 → s.chip.role p ≠ 0 → x.perst = false → x.hotReset = false → s.chip.adm p ≠ admOos →
      s.Does (.partnerDetected p) fun t => t.chip.ltssm p = ltPolling ∧ (t.chip.port p).step = 3 ∧ (t.chip.port p).present = true ∧
        (t.chip.port p).linkCfg = (s.chip.rd .CEL_LINK_CFG p).toNat ∧ t.chip.fld F.CEL_LINK_STS.EQ_DONE p = 0 ∧
        s.chip.Apart [.CEL_LINK_STS, .CEL_PORT_STS, .LNK_LANE_STS] t.chip) ∧
    (calm → x.step = 2 → exec (.receiverDetectRepeat p) s = .next (s.withChip (s.fresh.setPort p { x with present := false }))) ∧
    (∀ i : TrainInfo, calm → x.perst = false →
      (x.step = 1 → exec (.trainingStepComplete p i) s = .next (s.withChip
        (if s.chip.refOk p = true then s.fresh.setPort p { x with step := 2 } else s.fresh))) ∧
      (x.step = 3 →
        let follows := i.adv.loopback && decide (s.chip.trainCfg p F.CEL_LINK_CFG.LOOP_ALLOW = 1)
        s.Does (.trainingStepComplete p i) fun t => t.chip.ltssm p = (if follows then ltLoopFollow else ltConfig) ∧
          (t.chip.port p).step = (if follows then 3 else 4) ∧
          (∀ n, n < 4 * s.chip.cells p → t.chip.fld F.LNK_LANE_STS.CDR_LOCK (p + n / 4) (n % 4) = b2n (bitAt i.locked n) ∧
            t.chip.fld F.LNK_LANE_STS.POL_INV (p + n / 4) (n % 4) = b2n (bitAt i.polInv n)) ∧
          s.chip.Apart [.CEL_LINK_STS, .LNK_LANE_STS] t.chip) ∧
      (x.step = 4 → s.chip.role p ≠ 3 → i.width ≤ 16 → i.adv.cxl = false ∨ 20 ≤ i.adv.version →
        let rate := min (min i.adv.maxRate (s.chip.cellMaxRate p)) (s.chip.fld F.CEL_PORT_CFG.MAX_RATE p)
        let flit := s.chip.is F.CEL_PORT_CFG.FLIT256_EN p && i.adv.flit && decide (2 ≤ rate)
        s.Does (.trainingStepComplete p i) fun t => t.chip.is F.CEL_PORT_STS.FLIT256 p = flit ∧
          t.chip.is F.CEL_PORT_STS.CXL_ACTIVE p = (s.chip.is F.CEL_PORT_CFG.CXL_EN p && i.adv.cxl) ∧
          t.chip.fld F.CEL_PORT_STS.NEG_WIDTH p = i.width ∧ (t.chip.port p).target = (if flit then rate else min rate 4) ∧
          (t.chip.port p).adv = some i.adv ∧ 5 ≤ (t.chip.port p).step) ∧
      (∀ k, 5 ≤ x.step → x.step ≤ 9 → i.phase = some k → s.chip.ltssm p = ltRecEq →
        exec (.trainingStepComplete p i) s = .next (s.withChip (s.fresh.set F.CEL_LINK_STS.EQ_PHASE (min k 3) p))) ∧
      (5 ≤ x.step → x.step ≤ 9 → x.up = false → i.phase = none →
        let rate := if x.target = 1 then 1 else x.step - 3
        s.Does (.trainingStepComplete p i) fun t => t.chip.fld F.CEL_PORT_STS.NEG_RATE p = rate ∧
          (t.chip.port p).step = (if x.target ≤ rate then 10 else x.step + 1) ∧
          t.chip.ltssm p = (if x.target ≤ rate then ltL0 else ltRecEq) ∧
          s.chip.Apart [.CEL_PORT_STS, .CEL_LINK_STS, .LNK_EQ] t.chip)) ∧
    (2 < x.step → isIdle (s.chip.ltssm p) = false →
      s.Does (.trainingStepFail p) fun t => t.chip.ltssm p = ltDetect ∧ (t.chip.port p).step = 2 ∧ (t.chip.port p).up = false ∧
        (t.chip.port p).downSince = some s.chip.time ∧ t.chip.counter (cntCell p 10) = (s.chip.counter (cntCell p 10) + 1) % 2 ^ 48 ∧
        s.chip.Apart [.CEL_LINK_STS, .BUF_FLUSH, .CEL_PORT_STS, .LNK_LANE_STS, .VCS_PORT_ADM, .VCS_VPPB_STS] t.chip) ∧
    (∀ lds hdr dat, calm → x.step = 10 → lds < 17 → s.chip.poolBad p = false → x.flushing = false → s.chip.resetBusy p = false →
      s.chip.role p = 2 → s.chip.adm p = admDown →
        s.Does (.linkUp p lds hdr dat) fun t => (t.chip.port p).up = true ∧ t.chip.ltssm p = ltL0 ∧ t.chip.adm p = admIn ∧
          (t.chip.port p).step = 0 ∧ (t.chip.port p).lds = some lds ∧
          (t.chip.port p).deficit = [] ∧ (t.chip.port p).ptr = 0 ∧
          (∀ m, m < 12 → (t.chip.port p).crHdr.get 0 m = hdr.getD m 0 ∧ (t.chip.port p).crData.get 0 m = dat.getD m 0 ∧
            (s.chip.usesMc p m = true →
              .credits p m (t.chip.initOf p m) (if hasPayload m then 256 * t.chip.initOf p m else 0) ∈ t.chip.outbox)) ∧
          s.chip.Apart [.CEL_LINK_STS, .CEL_PORT_STS, .VCS_PORT_ADM] t.chip)

/-! ## Links -/

/-- What LINK_FLIT_RECEIVE counts and sets for each outcome; a message whose tail fails its check in the ingress queue is discarded; the
third re-equalization within 1 s drops the rate; a protocol violation takes the link through Detect; DPC takes it to Disabled; the
partner's lane margining stops a scan (R37, R42 to R45, R63, R74, R79). Where it reads or fixes more than the spec says, the choice is
the model's: log entries 26, 28, 29 and 30. -/
def Obligations.LinksCountAndRecover : Prop :=
  ∀ (s : State) (p : Nat), s.chip.AtRest → p < 128 →
    (∀ lane, lane < 16 →
      let c := p + lane / 4
      let l := lane % 4
      let u := s.fresh.count (cntCell c 0)
      let got (o : FlitOutcome) (d : Chip) : Prop := exec (.linkFlitReceive p lane o) s = .next (s.withChip d)
      let replay (d : Chip) : Chip := (d.count (cntCell c 8)).out (.replay p)
      got .good u ∧ got .fecCorrected (u.count (cntCell c 5)) ∧
        ((s.chip.within msT (s.chip.port p).crcFails).length < 64 → (s.chip.within msT (s.chip.port p).rxErrs).length < 64 →
          got .fecUncorrectable ((replay (((u.count (cntCell c 6)).set F.LNK_LANE_STS.FEC_UNCORR 1 c l).count (cntCell c 7))).noteBad p true) ∧
          got .crcFail ((replay (u.count (cntCell c 7))).noteBad p true) ∧
          got .decErr ((replay ((u.count (cntCell c 2)).set F.LNK_LANE_STS.DEC_ERR 1 c l)).noteBad p false) ∧
          got .dispErr ((replay ((u.count (cntCell c 3)).set F.LNK_LANE_STS.DISP_ERR 1 c l)).noteBad p false) ∧
          got .syncErr ((replay (((u.count (cntCell c 4)).set F.LNK_LANE_STS.SYNC_ERR 1 c l).set F.LNK_LANE_STS.ALIGNED 0 c l)).noteBad
            p false)) ∧
        (s.Does (.linkFlitReceive p lane .malformed) fun t => t.chip.Raised p 3 clsP ∧
          t.chip.counter (cntCell p 14) = (u.counter (cntCell p 14) + 1) % 2 ^ 48 ∧ s.chip.Apart recRegs t.chip) ∧
        (s.chip.is F.LNK_LANE_STS.ACTIVE c l = true → got .realign (s.fresh.set F.LNK_LANE_STS.ALIGNED 1 c l)) ∧
        ∀ db, s.chip.ltssm p = ltL0 → s.chip.is F.LNK_EQ.ADAPT_FREEZE c l = false →
          got (.adapted db) (s.fresh.set F.LNK_EQ.CTLE (min db 24) c l)) ∧
    (∀ m : Msg, s.chip.is F.CEL_PORT_STS.FLIT256 p = false → m.iport = some p → m.tail = false →
      s.chip.msgs.filter (fun y => (decide (y.id = m.id) || decide (y.origin = m.id)) && decide (y.iport = some p) && !y.tail) = [m] →
      s.chip.cuts.filter (fun y => decide (y.id = m.id) && decide (y.iport = p)) = [] →
      let req := isRequest m.kind
      (m.loc = .ingress p → exec (.messageTailCrcFail p m.id) s = .next (s.withChip
        (if req then (s.fresh.freeIngress m).delOpen m.opn else s.fresh.freeIngress m))) ∧
      (m.loc ≠ .ingress p → m.inn = 0 → m.refs = [] →
        let edb := s.chip.endsEdb m.dest m
        let ended := s.fresh.modMsg m.id (fun y => { y with
          tail := true, edb := edb, poison := !edb || y.poison, opn := if req then y.opn else 0 })
        let mute := ended.modOpen m.opn (fun o => { o with mute := true })
        exec (.messageTailCrcFail p m.id) s = .next (s.withChip
          (if req then (if edb then mute.delOpen m.opn else mute) else ended)))) ∧
    ((s.chip.port p).up = true → s.chip.ltssm p = ltL0 → (s.chip.port p).dropAt = none → s.chip.badQuality p = true →
      let rate := s.chip.fld F.CEL_PORT_STS.NEG_RATE p
      let recent := (s.chip.port p).requal.filter (fun t => decide (s.chip.time < t + secT))
      let reach (r : Nat) (t : State) : Prop := (t.chip.port p).target = r ∧ (t.chip.port p).step = (if 2 ≤ r then r + 3 else 5) ∧
        t.chip.ltssm p = (if 2 ≤ r then ltRecEq else ltRecovery) ∧ (t.chip.port p).up = true ∧
        bitAt (t.chip.rd .FLT_REC_SRC p).toNat 0 = true ∧
        s.chip.Apart [.CEL_LINK_STS, .FLT_REC_STS, .FLT_REC_SRC, .FLT_REC_TIME_LO, .FLT_REC_TIME_HI] t.chip
      (recent.length < 2 → s.Does (.reEqualization p) (reach rate)) ∧
        (2 ≤ recent.length → 0 < rate → s.Does (.reEqualization p) fun t => reach (rate - 1) t ∧ t.chip.is F.CEL_LINK_STS.RATE_DOWN p = true ∧
          (t.chip.port p).dropAt = some s.chip.time)) ∧
    (s.chip.Still → isIdle (s.chip.ltssm p) = false →
      let down (l : Nat) (t : State) : Prop := t.chip.ltssm p = l ∧ (t.chip.port p).up = false ∧ (t.chip.port p).flushing = true ∧
        (s.chip.adm p = admIn → t.chip.adm p = admDown) ∧ t.chip.counter (cntCell p 10) = (s.chip.counter (cntCell p 10) + 1) % 2 ^ 48
      ((s.chip.port p).up = true → (s.chip.port p).viols = [] → s.Does (.linkProtocolViolation p) fun t => down ltDetect t ∧
        bitAt (t.chip.rd .FLT_REC_SRC p).toNat 2 = true ∧ (t.chip.port p).viols = [s.chip.time]) ∧
      (s.chip.role p = 2 → s.Does (.dpcTrigger p) fun t => down ltDisabled t ∧ (t.chip.port p).step = 2)) ∧
    (∀ lane on errors, lane < 4 →
      let stops := s.fresh.setLane (4 * p + lane) { s.chip.lane (4 * p + lane) with margining := on }
      let u := if on then stops.out (.marginSteps p lane 32 32) else stops
      exec (.partnerLaneMargining p lane on errors) s = .next (s.withChip
        (if on = true ∧ s.chip.is F.LNK_MARGIN_RES.BUSY p lane = true then
          u.wr .LNK_MARGIN_RES p lane (w32 (2 ^ 31 + 2 ^ 30 + min errors 0xFFFFFF)) else u)))

/-- PERST_N low for 1 µs takes an upstream port to Detect and holds it there until its release; a hot reset of the host takes it to Hot
Reset; PORT_DOWN takes a link down to the state its cause gives; FLUSH_DONE ends the flush; the CSB pins follow (R28, R38, R52, R79,
R80, R113). Where it reads or fixes more than the spec says, the choice is the model's: log entries 28 and 34. -/
def Obligations.PinsAndDownsMovePorts : Prop :=
  ∀ (s : State) (p : Nat), s.chip.Still → p < 128 →
    let x := s.chip.port p
    let down (l : Nat) (t : State) : Prop := t.chip.ltssm p = l ∧ (t.chip.port p).up = false ∧ (t.chip.port p).flushing = true ∧
      t.chip.counter (cntCell p 10) = (s.chip.counter (cntCell p 10) + 1) % 2 ^ 48 ∧
      s.chip.Apart [.CEL_LINK_STS, .BUF_FLUSH, .CEL_PORT_STS, .LNK_LANE_STS, .VCS_PORT_ADM, .VCS_VPPB_STS, .FLT_REC_STS, .FLT_REC_SRC,
        .FLT_REC_TIME_LO, .FLT_REC_TIME_HI] t.chip
    let live : Prop := isIdle (s.chip.ltssm p) = false
    (live → s.chip.role p = 1 → s.chip.attachedOf p = none →
      (∀ low, 1000 ≤ low → x.waved = true → x.perst = false → s.chip.adm p ≠ admOos → s.chip.adm p ≠ admFailed →
        s.Does (.perstNAssert p low) fun t => down ltDetect t ∧ (t.chip.port p).perst = true ∧ (t.chip.port p).step = 0) ∧
      s.Does (.upstreamHotReset p) fun t => down ltHotReset t ∧ (t.chip.port p).step = 2) ∧
    (x.perst = true → s.chip.role p = 1 → s.chip.adm p ≠ admOos → s.chip.adm p ≠ admFailed →
      exec (.perstNRelease p) s = .next (s.withChip
        ((s.fresh.setPort p { x with perst := false }).setPort p { x with perst := false, step := 2 }))) ∧
    (live → s.chip.role p ≠ 0 →
      s.Does (.portDown p .detect) (fun t => down ltDetect t ∧ (t.chip.port p).step = 2) ∧
      s.Does (.portDown p .disabled) (fun t => down ltDisabled t ∧ (t.chip.port p).step = 2) ∧
      s.Does (.portDown p .hotReset) (fun t => down ltHotReset t ∧ (t.chip.port p).step = 2) ∧
      s.Does (.portDown p .retryBuffer) (fun t => down ltDetect t ∧ bitAt (t.chip.rd .FLT_REC_SRC p).toNat 6 = true)) ∧
    (x.flushing = true → x.upHeld = false →
      s.Does (.flushDone p) fun t => (t.chip.port p).flushing = false ∧ bitAt (t.chip.rd .FLT_REC_SRC p).toNat 5 = true ∧
        t.chip.fld F.BUF_FLUSH.PORT (p / 16) = p % 16 ∧ t.chip.fld F.BUF_FLUSH.COUNT (p / 16) = min x.flushCount 65535 ∧
        t.chip.counter (cntRegion (p / 16) 5) = (s.chip.counter (cntRegion (p / 16) 5) + 1) % 2 ^ 48 ∧
        t.chip.counter (cntRegion (p / 16) 6) = (s.chip.counter (cntRegion (p / 16) 6) + x.flushCount) % 2 ^ 48) ∧
    (s.chip.role p = 2 →
      exec (.powerGoodHoldExpire p) s = .next (s.withChip (s.fresh.setPort p { x with
        csbOut := x.waved && !x.csbOos && !s.chip.is F.FLT_SAFE_STS.SAFE && (!s.chip.is F.CEL_PORT_CFG.SLOT_GATED p ||
          (match x.pgSince with
            | some t => decide (t + 100 * msT ≤ s.chip.time)
            | none => false)) }))) ∧
    (s.chip.role p = 3 →
      (x.csbLow = true → exec (.trunkCsbChange p false) s = .next (s.withChip (s.fresh.setPort p { x with csbLow := false }))) ∧
      (x.csbLow = false → s.Does (.trunkCsbChange p true) fun t => (t.chip.port p).csbLow = true ∧
        bitAt (t.chip.rd .FLT_REC_SRC p).toNat 9 = true ∧ s.chip.Apart [.FLT_REC_STS, .FLT_REC_SRC, .FLT_REC_TIME_LO, .FLT_REC_TIME_HI] t.chip)) ∧
    (x.up = true → s.chip.ltssm p = ltL0 →
      (s.chip.role p = 2 → exec (.aspmL1Entry { port := p }) s = .next (s.withChip (s.fresh.set F.CEL_LINK_STS.LTSSM ltL1 p))) ∧
      (s.chip.is F.CEL_PORT_STS.FLIT256 p = true → 8 ≤ s.chip.fld F.CEL_PORT_STS.NEG_WIDTH p →
        exec (.aspmL1Entry { port := p, l0p := true }) s = .next (s.withChip (s.fresh.set F.CEL_LINK_STS.LTSSM ltL0p p)))) ∧
    (s.chip.ltssm p = ltL1 →
      exec (.aspmL1Exit p) s = .next (s.withChip ((s.fresh.count (cntCell p 9)).set F.CEL_LINK_STS.LTSSM ltL0 p))) ∧
    (s.chip.ltssm p = ltL0p → exec (.aspmL1Exit p) s = .next (s.withChip (s.fresh.set F.CEL_LINK_STS.LTSSM ltL0 p)))

/-- Tests of a Disabled cell whose wave has begun: TEST_ENABLE and LOOP_MODE_SET put it in test, TEST_DISABLE ends every loop; a remote
loopback that is not answered in 24 ms sets TEST_REFUSED; the PRBS checker locks, counts and clears; a margin scan runs and ends (R57 to
R62). Where it reads or fixes more than the spec says, the choice is the model's: log entries 55 and 56. -/
def Obligations.LaneTestsRun : Prop :=
  ∀ (s : State) (c : Nat), s.chip.AtRest → c < 128 →
    (s.chip.role c = 0 → s.chip.coverOf c = none → (s.chip.port c).waved = true → s.chip.fld F.CEL_PORT_CFG.MAX_RATE c < 6 → ∀ v : W,
      let new (n : Nat) : W := w32 (n &&& readMask .CEL_LINK_CFG)
      bitsOf v.toNat 11 3 < 4 →
        exec (.testEnable c v) s = .next (s.withChip
          (((s.fresh.wr .CEL_LINK_CFG c 0 (new (setBit v.toNat 10))).set F.CEL_LINK_STS.LTSSM ltTest c).testPresets c)) ∧
        (bitAt v.toNat 10 = true → exec (.loopModeSet c v) s = .next (s.withChip
          (((s.fresh.wr .CEL_LINK_CFG c 0 (new v.toNat)).set F.CEL_LINK_STS.LTSSM ltTest c).testPresets c))) ∧
        exec (.testDisable c v) s = .next (s.withChip
          (let d := (s.fresh.wr .CEL_LINK_CFG c 0 (new (clrBit v.toNat 10))).prbsStop c
           if s.chip.ltssm c = ltTest then d.set F.CEL_LINK_STS.LTSSM ltInactive c else d))) ∧
    (s.chip.is F.CEL_LINK_CFG.TEST_EN c = true → s.chip.fld F.CEL_LINK_CFG.LOOP_MODE c = 4 →
      (s.chip.port c).loopStart + 24 * msT ≤ s.chip.time →
        exec (.remoteLoopbackTimeout c) s = .next (s.withChip (s.fresh.set F.CEL_LINK_STS.TEST_REFUSED 1 c))) ∧
    (∀ l, l < 4 →
      (∀ v : W, bitAt v.toNat 7 = true → s.Does (.prbsClear c l v) fun t => t.chip.rd .LNK_PRBS_ERR c l = 0 ∧ t.chip.rd .LNK_PRBS_BITS c l = 0 ∧
        t.kmp = s.kmp ∧ { t.chip with regs := s.chip.regs, lanes := s.chip.lanes } = s.fresh ∧ t.chip.prbsSpan c l = 0 ∧
        s.chip.RegsBut [⟨.LNK_PRBS, c, l⟩, ⟨.LNK_PRBS_ERR, c, l⟩, ⟨.LNK_PRBS_BITS, c, l⟩] t.chip) ∧
      (s.chip.prbsOn c l = true →
        exec (.prbsCheckerLock c l) s = .next (s.withChip ((s.fresh.prbsCount c l).set F.LNK_PRBS.LOCK 1 c l))) ∧
      (∀ errors burst, s.chip.is F.LNK_PRBS.LOCK c l = true →
        let u := (s.fresh.prbsCount c l).bump F.LNK_PRBS_ERR.ERRORS (max errors burst) c l
        exec (.prbsCheckerUnlock c l errors burst) s = .next (s.withChip (if 32 ≤ burst then u.set F.LNK_PRBS.LOCK 0 c l else u))) ∧
      (∀ v : W, bitAt v.toNat 31 = true → (s.chip.lane (4 * c + l)).margining = false →
        s.Does (.marginScanStart c l v) fun t =>
          (t.chip.fld F.LNK_MARGIN.DWELL c l ≠ 31 → t.chip.is F.LNK_MARGIN_RES.BUSY c l = true ∧ t.chip.is F.LNK_MARGIN_RES.DONE c l = false ∧
            (t.chip.lane (4 * c + l)).scanStart = s.chip.time ∧ (t.chip.lane (4 * c + l)).scanLen = t.chip.scanLen c l) ∧
          s.chip.RegsBut [⟨.LNK_MARGIN, c, l⟩, ⟨.LNK_MARGIN_RES, c, l⟩] t.chip) ∧
      (∀ errors, s.chip.is F.LNK_MARGIN_RES.BUSY c l = true →
        (s.chip.lane (4 * c + l)).scanStart + (s.chip.lane (4 * c + l)).scanLen ≤ s.chip.time →
        exec (.marginScanDone c l errors) s = .next (s.withChip (s.fresh.wr .LNK_MARGIN_RES c l (w32 (2 ^ 31 + min errors 0xFFFFFF))))))

/-! ## Messages -/

/-- A host's memory access that the access check lets through is opened under the current epoch and enters its ingress queue, its slots from
the pool or from its reserve, or goes on at once past both queues to an open port of its own block that holds credit; a denied memory read
is answered with poisoned zeros and recorded; a malformed message that names no request is dropped; nothing is taken on a link that is
down (R14, R37, R67 to R71, R130, R133, R137, Table 7.3). Where it reads or fixes more than the spec says, the choice is the model's: log
entries 24 and 54. -/
def Obligations.MessagesEnterTheirQueue : Prop :=
  ∀ (s : State) (p : Nat) (m : MsgIn), s.chip.Still → p < 128 → m.vb < 256 → m.data.length ≤ 4096 →
    let r := p / 16
    let x := s.chip.port p
    let c := Instr.ingressMessageArrival p m
    (x.up = false ∨ x.flushing = true → exec c s = .next (s.withChip s.fresh)) ∧
    (x.up = true → x.flushing = false → s.chip.role p = 1 → s.chip.inQuarantine p = false → x.noTraffic = false →
      s.chip.meters p m.kind = false →
      (s.chip.malformedIn p m = true → (m.decodable && isRequest m.kind) = false →
        s.Does c fun t => t.chip.msgs = [] ∧ t.chip.opens = [] ∧ s.chip.Counted t.chip (cntCell p 14) 1 ∧ t.chip.Raised p 3 clsP ∧
          .credit p (mcOf m.kind) 1 m.len ∈ t.chip.outbox ∧ s.chip.Apart recRegs t.chip) ∧
      (s.chip.malformedIn p m = false → s.chip.overflows p m = false → ∀ n, s.chip.attachedOf p = some n → isMemAccess m.kind = true →
        s.chip.is F.CEL_PORT_STS.CXL_ACTIVE p = true →
        (∀ g v dpa d, s.chip.check n false (accessOf m.kind) m.addr = .target g v dpa → s.chip.tgtPort g = some d →
          s.chip.isDown d = false → s.chip.inQuarantine d = false →
          let sc := s.chip.classify p m.kind
          let fits := slotsOf m.len ≤ threshold (s.chip.alphaSc r sc) (s.chip.free r)
          let direct := blockOf p = blockOf d ∧ s.chip.egOpen d sc = true ∧ s.chip.hasCredit d (s.chip.msgOf p m n v) = true
          let opened (id : Nat) : OpenReq := { s.chip.reqOf p m n v with id := id, dest := d, ld := g.ld, dpa := dpa }
          (¬ direct → s.Does c fun t => ∃ y, t.chip.msgs = [y] ∧ y.loc = .ingress p ∧ y.kind = m.kind ∧ y.tag = m.tag ∧ y.addr = m.addr ∧
            y.dpa = dpa ∧ y.dest = d ∧ y.ld = g.ld ∧ y.pbr = g.pbr ∧ y.data = m.data ∧ y.poison = m.poison ∧ y.sc = sc ∧
            y.released = true ∧ t.chip.opens = [opened y.opn] ∧
            (fits → y.shared = slotsOf m.len ∧ y.rsv = 0 ∧ .credit p (mcOf m.kind) 1 m.len ∈ t.chip.outbox) ∧
            (¬ fits → y.shared = 0 ∧ y.rsv = slotsOf m.len) ∧ s.chip.Apart [.BUF_POOL_MIN] t.chip) ∧
          (direct → m.tail = true → s.chip.role d ≠ 1 → s.Does c fun t => t.chip.msgs = [] ∧
            (∃ id, t.chip.opens = (if isPosted m.kind = true then [] else [{ opened id with sent := true }]) ∧
              .link d m.kind (if id = 0 then m.tag else id) dpa m.data m.poison m.status g.ld g.pbr m.mv false ∈ t.chip.outbox) ∧
            (t.chip.port d).crHdr.get 0 (mcOf m.kind) = (s.chip.port d).crHdr.get 0 (mcOf m.kind) - 1 ∧
            .credit p (mcOf m.kind) 1 m.len ∈ t.chip.outbox ∧ s.chip.Apart [] t.chip)) ∧
        (∀ reason, s.chip.check n false 0 m.addr = .deny reason → reason ≠ 2 → m.kind = .memRd ∨ m.kind = .memRdData →
          s.Does c fun t => (∃ y, t.chip.msgs = [y] ∧ y.loc = .egress p 1 ∧ y.kind = .memData ∧ y.tag = m.tag ∧ y.data = zeros 64 ∧
              y.poison = true) ∧ t.chip.opens = [] ∧
            t.chip.fld F.ACC_DENY_CNT.COUNT r = min (s.chip.fld F.ACC_DENY_CNT.COUNT r + 1) (2 ^ F.ACC_DENY_CNT.COUNT.width - 1) ∧
            t.chip.rd .ACC_DENY_INFO r = w32 (p * 2 ^ 24 + n * 2 ^ 16 + reason * 2 ^ 12) ∧ t.chip.rd .ACC_DENY_ADDR_LO r = w32 m.addr ∧
            t.chip.rd .ACC_DENY_ADDR_HI r = w32 (m.addr / 2 ^ 32 % 2 ^ 20) ∧ t.chip.Raised (regionCollector r) 0 clsP ∧
            s.chip.Apart ([.ACC_DENY_CNT, .ACC_DENY_INFO, .ACC_DENY_ADDR_LO, .ACC_DENY_ADDR_HI, .BUF_EQ, .BUF_POOL_MIN] ++ recRegs) t.chip)))

/-- A message, alone in the chip, on its way: from its ingress queue to an open egress queue of its region, poisoned where its data reads as
uncorrectable; or into the mesh under a landing credit, hop by hop along the route table, into its landing area, and from there to its
egress queue or, as a multicast copy, to the residue queue (R68, R71, R72, R77, R209 to R216, R299). Where it reads or fixes more than
the spec says, the choice is the model's: log entries 18, 27 and 125. -/
def Obligations.MessagesCrossToTheirEgress : Prop :=
  ∀ (s : State) (m : Msg), s.chip.AtRest → s.chip.msgs = [m] → s.chip.ert = [] → s.chip.badWords = [] → s.chip.markers = [] →
    m.toHome = false → m.chan = none → isRequest m.kind = true → m.stat = none → m.spent = false →
    let goes : Prop := (s.chip.port m.dest).up = true ∧ (s.chip.port m.dest).flushing = false ∧ (s.chip.port m.dest).noTraffic = false
    let queued (t : State) (y : Msg) : Prop := t.chip.msgs = [y] ∧ y.id = m.id ∧ y.loc = .egress m.dest m.sc ∧ y.kind = m.kind ∧ y.tag = m.tag ∧
      y.dpa = m.dpa ∧ y.data = m.data ∧ y.opn = m.opn ∧ y.rsv = slotsOf m.len ∧ y.shared = 0 ∧ y.lcred = false ∧ t.chip.opens = s.chip.opens
    (∀ p, m.loc = .ingress p → m.released = true →
      (goes → m.dest / 16 = p / 16 → s.chip.egOpen m.dest m.sc = true → m.committed = true →
        (s.Does (.ingressToEgressMove m.id 0) fun t => (∃ y, queued t y ∧ y.poison = m.poison) ∧
          (0 < m.rsv → ∀ q, m.iport = some q → t.chip.outbox = [.credit q (mcOf m.kind) 1 m.len]) ∧
          s.chip.Apart [.BUF_EQ, .BUF_POOL_MIN] t.chip) ∧
        (s.Does (.ingressToEgressMove m.id 2) fun t => (∃ y, queued t y ∧ y.poison = true) ∧ t.chip.Raised (regionCollector (p / 16)) 1 clsC)) ∧
      (goes → m.dest / 16 ≠ p / 16 → s.chip.seenOpen m.dest m.sc = true → m.committed = true → m.lcred = false →
        s.Does (.meshInject m.id) fun t => t.chip.msgs = [{ m with
            toNode := m.dest / 16, loc := .mesh, fromNode := p / 16, rEpoch := s.chip.routeEpoch, lcred := true, shared := 0, rsv := 0
            parts := m.nets.map (fun n => { net := n, node := p / 16, since := s.chip.time, ord := s.chip.nextId }) }] ∧
          (0 < m.rsv → ∀ q, m.iport = some q → t.chip.outbox = [.credit q (mcOf m.kind) 1 m.len]) ∧ s.chip.Apart [] t.chip)) ∧
    (∀ net q, m.loc = .mesh → net < 4 → m.parts.find? (fun (x : Part) => decide (x.net = net) && !x.landed && !x.atB) = some q →
      (∀ x ∈ m.parts, x.net = net → x = q) →
      let put (f : Part → Part) : List Part := m.parts.map (fun x => if x.net = net then f x else x)
      let passed (t : State) : Prop := s.chip.Counted t.chip (cntNode q.node net) (if net = 3 then m.landSlots 3 else 1) ∧ s.chip.Apart [] t.chip
      (∀ n, q.node ≠ m.toNode → neighbour q.node (s.chip.route q.node m.rEpoch net m.toNode) = some n →
        s.Does (.meshPacketArrive m.id net 0) fun t => t.chip.msgs = [{ m with parts := put (fun x => { x with
            node := n, inp := facing (s.chip.route q.node m.rEpoch net m.toNode), since := s.chip.time, ord := s.chip.nextId
            age := min 255 (q.age + s.chip.ageOf (s.chip.time - q.since)) }) }] ∧ passed t) ∧
      (q.node = m.toNode → s.chip.fld F.NOC_BND_STS.STATE m.toNode m.boundary = 0 →
        s.Does (.meshPacketArrive m.id net 0) fun t => t.chip.msgs = [{ m with
            parts := put (fun x => { x with node := m.toNode, landed := true, held := false, atB := false, ord := s.chip.nextId })
            loc := if net = headerNet m.kind then .landing m.toNode m.fromNode else .mesh }] ∧ passed t)) ∧
    (∀ d src, m.loc = .landing d src → d < 8 → (∀ x ∈ m.parts, x.landed = true ∧ x.held = false) →
      (m.refs = [] → goes → m.dest / 16 = d → 0 < s.chip.egThreshold m.dest m.sc + s.chip.fld F.BUF_CFG.OVERSHOOT d →
        s.Does (.landingMove m.id) fun t => (∃ y, queued t y ∧ y.poison = m.poison) ∧ s.chip.Apart [.BUF_EQ, .BUF_POOL_MIN] t.chip) ∧
      (∀ a b, m.refs ≠ [] → s.chip.inners = [] → s.chip.residueSplit d (slotsOf m.len) = some (a, b) →
        let refs := (m.refs.filter (fun x => !s.chip.isDown x.port)).map (fun x => { x with waiting := !s.chip.egOpen x.port x.sc })
        refs ≠ [] →
          s.Does (.multicastCopyLand m.id) fun t =>
            t.chip.msgs = [{ m with loc := .residue d, refs := refs, rsv := a, shared := b, lcred := false, parts := [] }] ∧
            s.chip.Counted t.chip (cntRegion d 3) 1 ∧ s.chip.Apart [.BUF_POOL_MIN] t.chip))

/-- An open queue takes the references that wait for it; a region broadcasts its queue states; a message of a strict class, or of the
weighted class whose turn it is and whose deficit covers it, is sent where the link holds its credits, and its request is noted as sent,
or ends where it is posted; the partner returns credits; an ended transaction enters its initiator's statistics and histogram (R72, R73,
R78, R88, R89, R137, R225, R362). Where it reads or fixes more than the spec says, the choice is the model's: log entries 6 and 26. -/
def Obligations.MessagesLeave : Prop :=
  ∀ (s : State) (p : Nat), s.chip.AtRest → s.chip.badWords = [] → p < 128 →
    (∀ sc, sc < 12 → exec (.egressQueueReopen p sc) s = .next (s.withChip
      (if s.chip.egOpen p sc = true then { s.fresh with msgs := s.chip.msgs.map (fun m => { m with refs := m.refs.map (fun (x : McRef) =>
          if x.port = p ∧ x.sc = sc then { x with waiting := false } else x) }) }
        else s.fresh))) ∧
    (∀ r, r < 8 →
      let mask (f : Nat → Bool) : Nat := maskOf ((List.range 12).filter f)
      let ps := rangeFrom (16 * r) 16
      s.Does (.queueStateBroadcast r) fun t =>
        (∀ q, q ∈ ps → t.chip.qOpen.get 0 q = mask (s.chip.egOpen q) ∧ t.chip.qPressed.get 0 q = mask (s.chip.egPressed q)) ∧
        t.chip.outbox = [.queues r (ps.map (fun q => mask (s.chip.egOpen q))) (ps.map (fun q => mask (s.chip.egPressed q)))] ∧
        (∀ q, q ∉ ps → t.chip.qOpen.get 0 q = s.chip.qOpen.get 0 q) ∧ t.chip.msgs = s.chip.msgs ∧ s.chip.Apart [] t.chip) ∧
    (∀ m sc, s.chip.msgs = [m] → sc < 12 → m.loc = .egress p sc → m.sc = sc → m.refs = [] → m.fence = 0 → m.tail = true → m.edb = false →
      m.promoted = none → m.txn = 0 → m.inn = 0 → (s.chip.port p).up = true → (s.chip.port p).flushing = false → s.chip.role p ≠ 0 →
      s.chip.hasCredit p m = true →
      sc < 4 ∨ ((s.chip.port p).ptr = sc - 4 ∧ (s.chip.lenOf p m : Int) ≤ (s.chip.port p).deficit.get 0 sc ∧ 4 ≤ sc) →
        s.Does (.egressTransmit p) fun t => t.chip.msgs = [] ∧
          .link p m.kind (linkTag m) (s.chip.linkAddr p m) m.data m.poison m.status m.ld m.pbr m.mv m.noOp ∈ t.chip.outbox ∧
          (t.chip.port p).crHdr.get 0 (mcOf m.kind) = (s.chip.port p).crHdr.get 0 (mcOf m.kind) - 1 ∧
          (t.chip.port p).crData.get 0 (mcOf m.kind) = (s.chip.port p).crData.get 0 (mcOf m.kind) - m.len ∧
          s.chip.Counted t.chip (cntCell p 1) 1 ∧ s.chip.Apart [] t.chip ∧
          (∀ o, s.chip.opens = [o] → o.id = m.opn → o.grove = none → isRequest m.kind = true →
            t.chip.opens = if isPosted o.kind = true then [] else [{ o with sent := true }])) ∧
    (∀ mc hdr dat, mc < 12 →
      let x := s.chip.port p
      exec (.linkCreditReturn p mc hdr dat) s = .next (s.withChip (s.fresh.setPort p { x with
        crHdr := x.crHdr.set 0 mc (x.crHdr.get 0 mc + hdr), crData := x.crData.set 0 mc (x.crData.get 0 mc + dat) }))) ∧
    (∀ e, s.chip.ended.find? (fun y => decide (y.id = e.id)) = some e →
      let x := s.chip.stats.get {} e.initiator
      let frozen := s.chip.is F.CNT_HIST_CTRL.FREEZE
      let bin := 32 * e.initiator + binOf (s.chip.edgeSet (s.chip.histSel e.initiator)) e.lat
      s.Does (.transactionEnd e.id) fun t => t.chip.ended = s.chip.ended.erase e ∧
        t.chip.stats.get {} e.initiator = { txn := x.txn + 1, rd := x.rd + (e.rd + 63) / 64, wr := x.wr + (e.wr + 63) / 64
                                            latSum := x.latSum + e.lat / 16, latMax := max x.latMax e.lat } ∧
        (frozen = false → t.chip.hist.get 0 bin = (s.chip.hist.get 0 bin + 1) % 2 ^ 48 ∧ s.chip.Apart [.CNT_HIST_HI] t.chip) ∧
        (frozen = true → t.chip.hist = s.chip.hist ∧ s.chip.Apart [.CNT_HIST_CTRL] t.chip ∧ t.chip.fld F.CNT_HIST_CTRL.MISSED =
          min (s.chip.fld F.CNT_HIST_CTRL.MISSED + 1) (2 ^ F.CNT_HIST_CTRL.MISSED.width - 1)))

/-- A contract's buckets fill at its rates, once at each 64 ns edge of the time base that has passed, up to its ceiling, and whole at the
write that enables it; a committed message that waits 100 µs for a closed queue sets MIN_SHORT and is a notice, once a second (R94, R95,
R99). Where it reads or fixes more than the spec says, the choice is the model's: log entries 54, 120 and 128. -/
def Obligations.ContractsMeterTraffic : Prop :=
  ∀ (s : State) (p : Nat), s.chip.AtRest → s.chip.badWords = [] → p < 128 →
    let x := s.chip.port p
    let ceil := s.chip.conCeil p
    (s.chip.msgs = [] →
      let edges := s.chip.time / (64 * nsT) - x.refill
      let cap := max (s.chip.fld F.QOS_CON_CAP.RATE p) (s.chip.fld F.QOS_CON_MIN.RATE p)
      (edges = 0 → exec (.contractBucketRefill p) s = .next (s.withChip s.fresh)) ∧
      (0 < edges → exec (.contractBucketRefill p) s = .next (s.withChip (s.fresh.setPort p { x with
        bMin := min (x.bMin + (edges * s.chip.fld F.QOS_CON_MIN.RATE p : Nat)) ceil
        bCap := min (x.bCap + (edges * cap : Nat)) ceil
        refill := x.refill + edges, capHeld := decide (cap = 0) })))) ∧
    (s.chip.is F.QOS_CON_CFG.EN p = true → exec (.contractEnable p) s = .next (s.withChip s.fresh)) ∧
    (s.chip.is F.QOS_CON_CFG.EN p = false →
      s.Does (.contractEnable p) fun t => t.chip.is F.QOS_CON_CFG.EN p = true ∧ (t.chip.port p).bMin = ceil ∧ (t.chip.port p).bCap = ceil ∧
        { t.chip with regs := s.chip.regs, ports := s.chip.ports } = s.fresh ∧ s.chip.RegsBut [⟨.QOS_CON_CFG, p, 0⟩] t.chip ∧
        (∀ f ∈ [F.QOS_CON_CFG.DEPTH, F.QOS_CON_CFG.OVH, F.QOS_CON_CFG.READ_CHARGE], t.chip.fld f p = s.chip.fld f p)) ∧
    (∀ m ∈ s.chip.msgs, m.loc = .ingress p → m.metered = true → m.committed = true → m.released = true → m.toHome = false →
      s.chip.egOpen m.dest m.sc = false → m.relAt + 100 * usT < s.chip.time →
        (x.shortAt = none →
          s.Does (.committedWaitTimeout p) fun t => t.chip.is F.QOS_CON_STS.MIN_SHORT p = true ∧ (t.chip.port p).shortAt = some s.chip.time ∧
            s.chip.Counted t.chip (cntRegion (p / 16) 9) 1 ∧ t.chip.Raised (regionCollector (p / 16)) 8 clsC ∧ t.chip.msgs = s.chip.msgs ∧
            s.chip.Apart (.QOS_CON_STS :: recRegs) t.chip) ∧
        (∀ t0, x.shortAt = some t0 → s.chip.time < t0 + secT →
          exec (.committedWaitTimeout p) s = .next (s.withChip (s.fresh.set F.QOS_CON_STS.MIN_SHORT 1 p))))

/-! ## Virtual switches -/

/-- A write of VCS_INST_CFG enables a virtual switch, disables one that binds nothing, and is refused otherwise; Secondary Bus Reset drains
a bound bridge to held, and gives it back its access at a new epoch when it is cleared (R102, R105, R107, R113). Where it reads or fixes
more than the spec says, the choice is the model's: log entries 21, 40 and 41. -/
def Obligations.VirtualSwitchesAreConfiguredAndReset : Prop :=
  ∀ (s : State) (n v : Nat), s.chip.AtRest → n < 64 → v < 64 →
    let b := s.chip.vppb n v
    let st := s.chip.fld F.VCS_VPPB_STS.STATE n v
    let type := (s.chip.bound n v).type
    let next := (s.chip.epCur + 1) % 2 ^ 32
    (∀ w : W,
      let new := w32 (w.toNat &&& readMask .VCS_INST_CFG)
      let usp := bitsOf w.toNat 0 7
      let cnt := bitsOf w.toNat 16 7
      let c := Instr.instCfgWrite n w
      let on := s.chip.is F.VCS_INST_CFG.EN n
      (on = true → bitAt w.toNat 31 = true ∨ (∃ k, k < 64 ∧ s.chip.bridgeBusy n k = true) →
        exec c s = .next (s.withChip (s.fresh.set F.VCS_INST_STS.CFG_REFUSED 1 n))) ∧
      (on = true → bitAt w.toNat 31 = false → (∀ k, k < 64 → s.chip.bridgeBusy n k = false) →
        exec c s = .next (s.withChip ((s.fresh.wr .VCS_INST_CFG n 0 new).set F.VCS_INST_STS.ATTACHED 0 n))) ∧
      (on = false → bitAt w.toNat 31 = false → exec c s = .next (s.withChip (s.fresh.wr .VCS_INST_CFG n 0 new))) ∧
      (on = false → bitAt w.toNat 31 = true →
        let bad : Prop := s.chip.role usp ≠ 1 ∨ s.chip.instOf usp ≠ none ∨ 64 < cnt ∨ 2048 < s.chip.vppbAlloc + cnt
        let set := (s.fresh.wr .VCS_INST_CFG n 0 new).set F.VCS_INST_STS.CFG_ERROR 0 n
        (bad → s.Does c fun t => t.chip.rd .VCS_INST_CFG n = s.chip.rd .VCS_INST_CFG n ∧ t.chip.is F.VCS_INST_STS.CFG_ERROR n = true ∧
          t.chip.Raised chipCollector 4 clsP ∧ s.chip.Apart (.VCS_INST_STS :: recRegs) t.chip) ∧
        (¬ bad → exec c s = .next (s.withChip
          (if s.chip.adm usp = admDown ∨ s.chip.adm usp = admIn then set.set F.VCS_INST_STS.ATTACHED 1 n else set))))) ∧
    (s.chip.vppbCount n ≤ v ∨ b.sbr = true ∨ s.chip.is F.VCS_INST_STS.ATTACHED n = false →
      exec (.secondaryBusResetSet n v) s = .next (s.withChip s.fresh)) ∧
    (v < s.chip.vppbCount n → b.sbr = false → s.chip.is F.VCS_INST_STS.ATTACHED n = true →
      (st ≠ 2 → exec (.secondaryBusResetSet n v) s = .next (s.withChip (s.fresh.setVppb n v { b with sbr := true }))) ∧
      (st = 2 → s.chip.epFull = false →
        s.Does (.secondaryBusResetSet n v) fun t => t.chip.vppb n v = { b with
            sbr := true, reach := false, drain := some { next := 5, epoch := next, began := s.chip.time, reqs := [] } } ∧
          t.chip.fld F.VCS_VPPB_STS.STATE n v = 3 ∧ t.chip.epCur = next ∧ t.chip.opens = s.chip.opens ∧
          s.chip.Apart [.VCS_VPPB_STS, .ACC_EPOCH_CUR] t.chip)) ∧
    (v < s.chip.vppbCount n → b.sbr = true → b.reach = false → s.chip.is F.VCS_INST_STS.ATTACHED n = true →
      (st = 5 → s.chip.epFull = false →
        s.Does (.secondaryBusResetClear n v) fun t => t.chip.vppb n v = { b with sbr := false, reach := true, crs := decide (type = 1) } ∧
          t.chip.fld F.VCS_VPPB_STS.STATE n v = 2 ∧ t.chip.epCur = next ∧ (type ≠ 1 → s.chip.Apart [.VCS_VPPB_STS, .ACC_EPOCH_CUR] t.chip)) ∧
      (∀ d, st = 3 → b.drain = some d → d.next = 5 →
        s.Does (.secondaryBusResetClear n v) fun t => t.chip.vppb n v = { b with
            sbr := false, crs := decide (type = 1), drain := some { d with next := 2 } } ∧ s.chip.Apart [] t.chip))

/-- A drain ends when its access change has committed, and after DRAIN_TO with a notice, the remainder squashed; a squash completes what the
bridge has outstanding and counts it; an unbound bridge answers the requests that await it (R111, R112, Table 6.2). Where it reads or
fixes more than the spec says, the choice is the model's: log entries 36 and 38. -/
def Obligations.DrainsAndSquashesEnd : Prop :=
  ∀ (s : State) (n v : Nat) (d : Drain), s.chip.AtRest → n < 64 → v < 64 → (s.chip.vsw n).reset = 0 → s.chip.removals = [] →
    let b := s.chip.vppb n v
    let type := (s.chip.bound n v).type
    let mine := s.chip.opens.filter (fun o => decide (o.inst = n) && decide (o.vb = v) && o.grove.isNone)
    let squashed := mine.length + (s.chip.msgs.filter (fun m => m.between n v)).length
    let unbound (t : State) : Prop := t.chip.fld F.VCS_VPPB_STS.STATE n v = 0 ∧ t.chip.rd .VCS_VPPB_BIND n v = 0 ∧
      (t.chip.vppb n v).reach = false ∧ (t.chip.vppb n v).drain = none ∧ (t.chip.vppb n v).squash = none ∧
      (∀ q x, q ∈ d.reqs → s.Owes q x → t.Answered x q 0 [w32 0x100, w32 d.epoch]) ∧
      s.chip.Apart [.VCS_VPPB_STS, .VCS_VPPB_BIND, .VCS_PORT_ADM, .BUF_EQ, .BUF_POOL_MIN, .CEL_LINK_STS, .CEL_PORT_STS, .LNK_LANE_STS] t.chip
    let completed (t : State) : Prop := ∀ o ∈ t.chip.opens, o ∉ mine
    (b.drain = some d →
      (s.chip.isCommitted d.epoch = true → d.next = 0 → s.Does (.drainDone n v) unbound) ∧
      (s.chip.isCommitted d.epoch = true → d.next = 5 → type ≠ 1 → exec (.drainDone n v) s = .next (s.withChip
        ((s.fresh.setVppb n v { b with drain := none, squash := none }).set F.VCS_VPPB_STS.STATE 5 n v))) ∧
      (s.chip.isCommitted d.epoch = false → s.chip.targetDown n v = false → exec (.drainDone n v) s = .next (s.withChip s.fresh)) ∧
      (s.chip.isCommitted d.epoch = false →
        (s.chip.time < d.began + s.chip.drainTo → exec (.drainTimeout n v) s = .next (s.withChip s.fresh)) ∧
        (d.began + s.chip.drainTo ≤ s.chip.time → d.next = 5 → type ≠ 1 →
          s.Does (.drainTimeout n v) fun t => t.chip.fld F.VCS_VPPB_STS.STATE n v = 5 ∧ t.chip.is F.VCS_VPPB_STS.DRAIN_TIMEOUT n v = true ∧
            t.chip.fld F.VCS_VPPB_STS.SQUASHED n v = min squashed 65535 ∧ completed t ∧ (t.chip.vppb n v).drain = none ∧
            t.chip.Raised chipCollector 5 clsC))) ∧
    (b.squash = some d → d.next = 0 → s.Does (.squashDone n v) fun t => unbound t ∧ completed t ∧
      t.chip.fld F.VCS_VPPB_STS.SQUASHED n v = min (s.chip.fld F.VCS_VPPB_STS.SQUASHED n v + squashed) 65535)

/-- A port that stays Down past DOWN_LIMIT goes out of service with cause 5; the loop check admits a port to Retrain or fails it; an
unanswered loop check fails it or, where it is not required, makes it Ready (R118, R119, R121, Table 6.8). A mailbox command that the
chip answers is answered, any other goes to the relay role's holder or fails for want of one, and times out (R124 to R126). Where it
reads or fixes more than the spec says, the choice is the model's: log entries 34, 104 and 105. -/
def Obligations.QuarantineAndMailboxRun : Prop :=
  ∀ (s : State), s.chip.Still →
    (∀ p, p < 128 →
      let x := s.chip.port p
      let loop : Prop := s.chip.adm p = admLoop
      let passed := x.loopStart + max 1 (s.chip.fld F.VCS_QUAR_CFG.LOOP_MS) * msT
      let failed (result : Nat) (t : State) : Prop := t.chip.adm p = admFailed ∧ t.chip.fld F.VCS_PORT_ADM.LOOP_RESULT p = result ∧
        t.chip.ltssm p = ltDisabled ∧ (t.chip.port p).up = false ∧ t.chip.Raised p 10 clsP
      (∀ since, x.downSince = some since → s.chip.adm p = admDown → since + s.chip.downLimit ≤ s.chip.time →
        s.chip.role p = 1 ∨ s.chip.role p = 2 →
          s.Does (.downLimitExpire p) fun t => t.chip.adm p = admOos ∧ t.chip.fld F.VCS_PORT_ADM.OOS_CAUSE p = 5 ∧
            t.chip.ltssm p = ltDetect ∧ (t.chip.port p).step = 2) ∧
      (s.chip.adm p ≠ admDown → exec (.downLimitExpire p) s = .next (s.withChip s.fresh)) ∧
      (loop → isIdle (s.chip.ltssm p) = false →
        (∀ lanes : List LoopLane,
          let good := lanes.all (fun l => lanePasses l (s.chip.fld F.CEL_PORT_STS.NEG_RATE p) s.chip.loopLen)
          (s.chip.time < passed → exec (.loopCheckDone p lanes) s = .next (s.withChip s.fresh)) ∧
          (passed ≤ s.chip.time → good = false → s.Does (.loopCheckDone p lanes) (failed 2)) ∧
          (passed ≤ s.chip.time → good = true → s.Does (.loopCheckDone p lanes) fun t => t.chip.adm p = admRetrain ∧
            t.chip.fld F.VCS_PORT_ADM.LOOP_RESULT p = 1 ∧ t.chip.ltssm p = ltDetect ∧ (t.chip.port p).step = 2)) ∧
        (x.loopStart + 24 * msT ≤ s.chip.time →
          (s.chip.is F.VCS_QUAR_CFG.REQUIRE_LOOP = true → s.Does (.loopCheckTimeout p) (failed 3)) ∧
          (s.chip.is F.VCS_QUAR_CFG.REQUIRE_LOOP = false → s.chip.imgBinds = [] → s.chip.imgInsts = [] →
            s.Does (.loopCheckTimeout p) fun t => t.chip.adm p = admReady ∧ t.chip.fld F.VCS_PORT_ADM.LOOP_RESULT p = 3 ∧
              t.chip.ltssm p = ltL0 ∧ (t.chip.port p).loopLead = false ∧ s.chip.Apart [.VCS_PORT_ADM, .CEL_LINK_STS] t.chip)))) ∧
    (∀ n opcode d, n < 64 →
      let x := s.chip.vsw n
      let y : Mbx := { opcode := opcode, payload := d, tag := s.chip.nextId % 2 ^ 32, since := s.chip.time }
      let ready : Prop := s.chip.is F.VCS_INST_CFG.EN n = true ∧ (s.chip.port (s.chip.usp n)).up = true ∧ x.mbx = none ∧
        s.chip.pw.dormant = false ∧ opcode < 2 ^ 16 ∧ d.length ≤ 4096 ∧ s.chip.is F.VCS_INST_STS.ATTACHED n = true ∧
        s.chip.inQuarantine (s.chip.usp n) = false
      let got := s.fresh.set F.VCS_MBX_STS.LAST_OPCODE opcode n
      (ready → opcode = 0xC000 → exec (.mailboxDoorbell n opcode d) s = .next (s.withChip
        (got.out (.mailbox n 0 (s.chip.contractAnswer (s.chip.usp n)))))) ∧
      (ready → s.chip.mbxLocal n opcode d = none →
        (s.chip.relay = none → s.Does (.mailboxDoorbell n opcode d) fun t => .mailbox n cciUnsupported [] ∈ t.chip.outbox ∧
          t.chip.is F.VCS_MBX_STS.NO_MANAGER n = true ∧ (t.chip.vsw n).mbx = none ∧ s.chip.Apart [.VCS_MBX_STS] t.chip) ∧
        (∀ num e v6, s.chip.relay = some (num, e, v6) → 16 + 4 * (relayWords n y).length ≤ s.chip.kmpMax e v6 →
          s.Does (.mailboxDoorbell n opcode d) fun t => (t.chip.vsw n).mbx = some y ∧ t.chip.is F.VCS_MBX_STS.RELAY_PENDING n = true ∧
            t.chip.relay = s.chip.relay ∧ s.chip.Apart [.VCS_MBX_STS] t.chip)) ∧
      (∀ z, x.mbx = some z → z.since + s.chip.relayTo ≤ s.chip.time →
        exec (.mailboxRelayTimeout n) s = .next (s.withChip
          ((((s.fresh.set F.VCS_MBX_STS.TIMED_OUT 1 n).setVsw n { x with mbx := none }).set F.VCS_MBX_STS.RELAY_PENDING 0 n).out
            (.mailbox n cciRetry [])))) ∧
      (x.mbx = none → exec (.mailboxRelayTimeout n) s = .next (s.withChip s.fresh)))

/-! ## Windows, epochs and the management MPU -/

/-- WINDOW_COMMIT puts a staged window that passes Table 7.4 in force at a new epoch and reports the code of any other (R135, R136); epochs
commit once no request checked under an earlier one is open, and a bind in flight completes with its epoch; an uncommitted epoch past
COMMIT_TO is reported once (R138, R140); a locked MPU entry ignores writes, a bad one is refused (R143, R144). Where it reads or fixes
more than the spec says, the choice is the model's: log entry 58. -/
def Obligations.WindowsAndEpochsCommit : Prop :=
  ∀ (s : State), s.chip.AtRest →
    (∀ (r : Nat) (x : W), r < 8 → bitAt x.toNat 31 = true → s.chip.is F.DEC_STG_STS.BUSY r = false → s.chip.epFull = false →
      let c := s.fresh.wr .DEC_STG_CTRL r 0 (w32 (accessWrite .DEC_STG_CTRL false (s.chip.rd .DEC_STG_CTRL r).toNat x.toNat))
      let n := c.fld F.DEC_STG_CTRL.INST r
      let w := c.fld F.DEC_STG_CTRL.WIN r
      let win := winOf (s.chip.rd .DEC_STG_BASE r) (s.chip.rd .DEC_STG_SIZE r) (s.chip.rd .DEC_STG_CFG r)
        ((List.range 16).map (fun i => s.chip.rd .DEC_STG_TGT_A r i)) ((List.range 16).map (fun i => s.chip.rd .DEC_STG_TGT_B r i))
      let code := s.chip.windowCode n w win false
      let next := (s.chip.epCur + 1) % 2 ^ 32
      (code = 0 → s.Does (.windowCommit r x) fun t => t.chip.win n w = { s.chip.sized win with epoch := next } ∧ t.chip.epCur = next ∧
        t.chip.rd .DEC_STG_STS r = w32 (2 ^ 30) ∧ (∀ k, k ≠ 32 * n + w → t.chip.wins.get {} k = s.chip.wins.get {} k)) ∧
      (code ≠ 0 → s.Does (.windowCommit r x) fun t => t.chip.wins = s.chip.wins ∧ t.chip.epCur = s.chip.epCur ∧
        t.chip.rd .DEC_STG_STS r = w32 (2 ^ 30 + code) ∧ t.chip.Raised chipCollector 4 clsP ∧
        s.chip.Apart ([.DEC_STG_CTRL, .DEC_STG_STS] ++ recRegs) t.chip)) ∧
    ((∀ n v, (s.chip.vppb n v).binding = none) → (∀ n, (s.chip.vsw n).attaching = none) → s.chip.gjobs = [] → s.chip.settles = [] →
      let e := s.chip.epReady
      (s.chip.epDist e = 0 → exec .epochCommit s = .next (s.withChip s.fresh)) ∧
      (s.chip.epDist e ≠ 0 → s.Does .epochCommit fun t => t.chip.epCmt = e ∧ t.chip.epCur = s.chip.epCur ∧
        t.chip.epochs = s.chip.epochs.filter (fun y => decide (s.chip.epDist e < s.chip.epDist y.1)) ∧ t.chip.opens = s.chip.opens ∧
        s.chip.Apart [.ACC_EPOCH_CMT] t.chip)) ∧
    (∀ n v e q x, n < 64 → v < s.chip.vppbCount n → (s.chip.vppb n v).binding = some (e, some q) → s.chip.opens = [] → s.chip.inners = [] →
      s.chip.epDist s.chip.epCur ≠ 0 → (∀ y ∈ s.chip.epochs, s.chip.epDist y.1 ≤ s.chip.epDist s.chip.epCur) → s.chip.gjobs = [] →
      s.Owes q x →
        s.Does .epochCommit fun t => t.chip.epCmt = s.chip.epCur ∧ t.chip.fld F.VCS_VPPB_STS.STATE n v = 2 ∧ (t.chip.vppb n v).reach = true ∧
          (t.chip.vppb n v).binding = none ∧ t.chip.is F.VCS_VPPB_STS.PRESENT n v = s.chip.presentOf (s.chip.bound n v) ∧
          t.Answered x q 0 [w32 0x100, w32 e]) ∧
    (∀ y o, s.chip.epochs.find? (fun z => decide (z.1 = y.1)) = some y → s.chip.opens = [o] → s.chip.inners = [] →
      (s.chip.time < y.2 + s.chip.commitTo ∨ y.1 ∈ s.chip.stalls → exec (.epochStall y.1) s = .next (s.withChip s.fresh)) ∧
      (y.2 + s.chip.commitTo ≤ s.chip.time → y.1 ∉ s.chip.stalls →
        s.Does (.epochStall y.1) fun t => t.chip.stalls = s.chip.stalls ++ [y.1] ∧ t.chip.is F.ACC_STS.STALLED o.region = true ∧
          t.chip.Raised (regionCollector o.region) 12 clsC ∧ s.chip.Apart (.ACC_STS :: recRegs) t.chip)) ∧
    (∀ (ini e : Nat) (v : W), ini < 256 → e < 32 →
      let old := s.chip.mpu e
      let new : MpuEntry := { old with attr := v.toNat &&& readMask .MPU_ATTR }
      let refused (t : State) : Prop := t.chip.mpu e = old ∧ t.chip.is F.MPU_STS.REFUSED = true ∧ t.chip.fld F.MPU_STS.ENTRY = e ∧
        t.chip.Raised chipCollector 6 clsC ∧ s.chip.Apart (.MPU_STS :: recRegs) t.chip
      (old.lock = true → exec (.mpuAttrWrite ini e v) s = .next (s.withChip (s.fresh.recordErr 0 ini true (mpuAddr 4 e))) ∧
        exec (.mpuBaseWrite ini e v) s = .next (s.withChip (s.fresh.recordErr 0 ini true (mpuAddr 0 e)))) ∧
      (old.lock = false → s.chip.mpuBad e new = false → exec (.mpuAttrWrite ini e v) s = .next (s.withChip
        (s.fresh.wr .MPU_ATTR e 0 (w32 new.attr)))) ∧
      (old.lock = false → s.chip.mpuBad e new = true → s.Does (.mpuAttrWrite ini e v) refused) ∧
      (old.lock = false → old.en = true → s.Does (.mpuBaseWrite ini e v) refused) ∧
      (old.lock = false → old.en = false → exec (.mpuBaseWrite ini e v) s = .next (s.withChip (s.fresh.wr .MPU_BASE e 0 v))))

/-- A permitted 32-bit register write acts by its fields' access types; a narrow one, and one to an unmapped address, is recorded and
changes nothing else; a denied one is recorded, and traps, answers an error or halts its channel or engine; an aligned write of eight
bytes of management SRAM stores them, the lowest address lowest, and no other byte (R4, R141, R146, R382, R383, R414). Where it reads or
fixes more than the spec says, the choice is the model's: log entries 58, 65, 93 and 138. -/
def Obligations.RegisterWritesReachTheMap : Prop :=
  ∀ (s : State) (ini level a : Nat) (v : Nat), s.chip.AtRest → 136 ≤ ini → ini < 156 → level < 3 → a < 2 ^ 40 →
    let who := masterOf ini level
    let may (n : Nat) : Bool := s.chip.masAllows who 1 a n
    let write (n : Nat) := exec (.registerWrite ini level a n v) s
    (∀ g inst, s.chip.Reaches a g inst → g.name.ordinary = true →
      let sent := s.fresh.masPackets a
      (may 4 = true → write 4 = .next (s.withChip
        (sent.wr g.name g.i g.j (w32 (accessWrite g.name false (sent.rd g.name g.i g.j).toNat (v % 2 ^ 32)))))) ∧
      (∀ n, n = 1 ∨ n = 2 → may n = true → write n = .next (s.withChip (sent.recordErr 3 ini true a)))) ∧
    (masAt a = .unmapped → a % 4 = 0 → may 4 = true → write 4 = .next (s.withChip (s.fresh.recordErr 1 ini true a))) ∧
    (∀ n, n = 1 ∨ n = 2 ∨ n = 4 ∨ n = 8 → may n = false → s.chip.ert = [] →
      s.Does (.registerWrite ini level a n v) fun t => t.chip.is F.MPU_STS.FAULT = true ∧ t.chip.Raised chipCollector 6 clsC ∧
        (s.chip.is F.MPU_STS.FAULT = false → t.chip.rd .MPU_FAULT_ADDR_LO = w32 a ∧ t.chip.rd .MPU_FAULT_ADDR_HI = w32 (a / 2 ^ 32 % 256) ∧
          t.chip.rd .MPU_FAULT_INFO = w32 (ini * 256 + who.level * 4 + 1)) ∧
        (ini = 154 → .irq trapDenied ∈ t.chip.outbox) ∧ (ini = 155 → .jtag 0 true ∈ t.chip.outbox) ∧
        (ini < 152 → t.chip.is F.MOV_CH_STS.HALTED (ini - 136) = true) ∧
        (ini = 152 → t.chip.is F.ECC_DMA_STS.HALT_A = true) ∧ (ini = 153 → t.chip.is F.ECC_DMA_STS.HALT_B = true) ∧
        s.chip.Apart ([.MPU_STS, .MPU_FAULT_ADDR_LO, .MPU_FAULT_ADDR_HI, .MPU_FAULT_INFO, .MOV_CH_STS, .ECC_DMA_STS] ++ recRegs) t.chip) ∧
    (a < 0x00400000 → a % 8 = 0 → may 8 = true → s.chip.merge = [] → s.chip.badWords = [] → s.chip.domOn 176 = true →
      s.chip.fld F.NOC_BND_STS.STATE 8 0 = 0 →
      s.Does (.registerWrite ini level a 8 v) fun t => { t.chip with sram := s.chip.sram } = s.fresh ∧
        (∀ k, k < 8 → t.chip.ramByte (a + k) = BitVec.ofNat 8 (v / 2 ^ (8 * k))) ∧
        (∀ b, b < a ∨ a + 8 ≤ b → t.chip.ramByte b = s.chip.ramByte b))

/-! ## Groves -/

/-- A member's read of a line in state I reads the grove's memory; of a line that another member owns it snoops the owner; a BIRsp is
matched to its snoop and lets the read go on, or is stray; a device's data goes to the member with the completion and unblocks the line;
a BIConflict is acknowledged; an unanswered BISnp fells the grove with cause 3 (R152, R158 to R161, R172, R177, R178, R185). Where it
reads or fixes more than the spec says, the choice is the model's: log entries 14, 45 and 115. -/
def Obligations.HomeSlicesServeMembers : Prop :=
  ∀ (s : State) (m : Msg) (h g gw : Nat), s.chip.AtRest → s.chip.msgs = [m] → s.chip.badWords = [] → s.chip.ert = [] → h < 8 → g < 32 →
    m.loc = .home h → m.toHome = true → m.grove = some (g, gw) → s.chip.gFell g = false → m.queued = false → m.given = none →
    let line := m.addr / 64 * 64
    let tgt := s.chip.groveTarget g gw line
    let up (p : Nat) : Prop := (s.chip.port p).up = true ∧ (s.chip.port p).flushing = false ∧ (s.chip.port p).noTraffic = false
    let reads (t : State) (x : Txn) : Prop := x.owes = true ∧ x.reading = true ∧ ∃ i, t.chip.inners = [i] ∧ i.who = .home x.id ∧ i.kind = .memRd ∧
      i.dest = tgt.1.port ∧ i.ld = tgt.1.ld ∧ i.dpa = tgt.2 ∧ i.node = h
    (∀ mv, m.kind = .memRd → m.mv = mv → m.inn = 0 → s.chip.txns = [] → s.chip.inners = [] → s.chip.copies = [] →
      (mv = .i → s.chip.homeState h line = (0, 0) →
        s.Does (.homeRequest m.id .clean) fun t => (∃ x, t.chip.txns = [x] ∧ x.home = h ∧ x.ga = line ∧ x.inst = m.inst ∧ x.tag = m.tag ∧
          x.op = .req .memRd .i ∧ x.snoops = [] ∧ reads t x) ∧ s.chip.Counted t.chip (cntRegion h 13) 1) ∧
      (∀ k, mv = .a → k < 64 → k ≠ m.inst → s.chip.homeState h line = (2, 2 ^ k) →
        s.Does (.homeRequest m.id .clean) fun t => ∃ x, t.chip.txns = [x] ∧ x.ga = line ∧ x.owes = true ∧ x.reading = false ∧
          x.snoops = [{ inst := k, kind := .biSnpInv, since := s.chip.time }] ∧ t.chip.inners = [] ∧
          (∃ y, t.chip.msgs = [y] ∧ y.kind = .biSnpInv ∧ y.addr = line ∧ y.txn = x.id ∧ y.dest = s.chip.usp k) ∧
          s.chip.Counted t.chip (cntRegion h 17) 1)) ∧
    (mcOf m.kind = 5 →
      (s.chip.txns = [] → s.Does (.birspArrival m.id) fun t => t.chip.msgs = [] ∧ s.chip.Counted t.chip (cntRegion h 19) 1 ∧
        t.chip.fld F.GRV_STRAY.COUNT h = min (s.chip.fld F.GRV_STRAY.COUNT h + 1) (2 ^ F.GRV_STRAY.COUNT.width - 1) ∧
        s.chip.Apart [.GRV_STRAY] t.chip) ∧
      (∀ x kind since, s.chip.txns = [x] → x.home = h → x.ga = line → x.grove = g → x.gw = gw → s.chip.inners = [] →
        x.snoops = [{ inst := m.inst, kind := kind, since := since }] → x.st = 2 → x.owes = true → x.reading = false → x.waits = false →
        x.given = none → x.wb = none → x.op = .req .memRd .a →
          s.Does (.birspArrival m.id) fun t => ∃ y, t.chip.txns = [y] ∧ y.id = x.id ∧
            y.snoops = [{ inst := m.inst, kind := kind, since := since, rsp := some (rspCode kind m.kind) }] ∧ reads t y)) ∧
    (∀ x i, s.chip.txns = [x] → s.chip.inners = [i] → i.id = m.inn → i.who = .home x.id → i.kind = .memRd → x.home = h → x.op = .req .memRd .i →
      x.st = 0 → x.snoops = [] → x.owes = true → x.waits = false → x.fin = false → up x.port →
        s.Does (.homeDeviceResponse m.id) fun t => t.chip.txns = [] ∧ t.chip.inners = [] ∧ (∀ o ∈ t.chip.opens, o.id ∉ x.opens) ∧
          ∃ a b, t.chip.msgs = [a, b] ∧ a.kind = .memData ∧ a.data = m.data ∧ a.poison = m.poison ∧ a.dest = x.port ∧ a.tag = x.tag ∧
            b.kind = .cmp ∧ b.dest = x.port ∧ b.tag = x.tag) ∧
    (m.kind = .biConflict → up (s.chip.usp m.inst) →
      s.Does (.biconflict m.id) fun t => (∃ y, t.chip.msgs = [y] ∧ y.kind = .biConflictAck ∧ y.dest = s.chip.usp m.inst ∧ y.tag = m.tag) ∧
        t.chip.fld F.GRV_CONFLICT.COUNT h = min (s.chip.fld F.GRV_CONFLICT.COUNT h + 1) (2 ^ F.GRV_CONFLICT.COUNT.width - 1) ∧
        s.chip.Counted t.chip (cntRegion h 18) 1 ∧ s.chip.Apart [.GRV_CONFLICT, .BUF_EQ, .BUF_POOL_MIN] t.chip) ∧
    (∀ x y n, s.chip.txns = [x] → x.grove = g → x.home = h → s.chip.gst g = gStanding → y ∈ x.snoops → y.inst = n → y.rsp = none → n < 64 →
      y.since + s.chip.birspTo ≤ s.chip.time →
        s.Does (.birspTimeout x.id n) fun t => t.chip.gst g = gFelling ∧ t.chip.txns = [] ∧
          t.chip.rd .GRV_FELL g = w32 (3 * 2 ^ 28 + h * 2 ^ 24 + n * 2 ^ 16 + s.chip.usp n) ∧ t.chip.rd .GRV_FELL_TIME_LO g = w32 s.chip.ns ∧
          t.chip.Raised (regionCollector h) 7 clsG)

/-- A felling grove becomes Felled, with no member joined and the replies held for it sent; a device's viral is forwarded to its hosts and
fells the groves that it serves; a Seeding grove whose targets are up stands and its eligible members join; a removal ends at a new
epoch; an atomic operation reads its line, or is performed on the agent's copy; a probe reports an entry (R149, R163, R164, R166 to
R169, R182, R185). Where it reads or fixes more than the spec says, the choice is the model's: log entries 43, 45, 46 and 48. -/
def Obligations.GrovesRiseAndFall : Prop :=
  ∀ (s : State) (g : Nat), g < 32 →
    (∀ q x, ({ s.chip with gholds := [] } : Chip).AtRest → s.chip.gst g = gFelling → s.chip.gholds = [{ grove := g, req := q, writes := false }] →
      s.Owes q x →
        s.Does (.groveFellingComplete g) fun t => t.chip.gst g = gFelled ∧ t.chip.joined g = 0 ∧ t.chip.gholds = [] ∧
          t.Answered x q 0 [w32 0x0A, 0] ∧ s.chip.Apart [.GRV_STS, .GRV_JOINED_LO, .GRV_JOINED_HI] t.chip) ∧
    (∀ p, s.chip.AtRest → p < 128 →
      let hosts := ((s.chip.bindingsOf p).map (fun x => s.chip.usp x.1)).eraseDups
      ((∀ k, k < 32 → s.chip.gwins k = []) → exec (.deviceViral p) s = .next (s.withChip (foldl' hosts (fun h c => c.out (.viral h)) s.fresh))) ∧
      (s.chip.msgs = [] → s.chip.txns = [] → s.chip.gst g = gStanding → s.chip.groveUses g p = true →
        s.Does (.deviceViral p) fun t => t.chip.gst g = gFelling ∧ (∀ h ∈ hosts, .viral h ∈ t.chip.outbox) ∧
          t.chip.rd .GRV_FELL g = w32 (5 * 2 ^ 28 + p / 16 * 2 ^ 24 + p) ∧ t.chip.Raised (regionCollector (p / 16)) 7 clsG)) ∧
    (s.chip.AtRest → s.chip.gst g = gSeeding → s.chip.targetsUp g = true → s.chip.epFull = false →
      let new := s.chip.joinable g ||| s.chip.joined g
      s.Does (.groveTargetsUp g) fun t => t.chip.gst g = gStanding ∧ t.chip.is F.GRV_STS.TARGETS_UP g = true ∧ t.chip.joined g = new ∧
        t.chip.epCur = (if new = s.chip.joined g then s.chip.epCur else (s.chip.epCur + 1) % 2 ^ 32) ∧
        s.chip.Apart [.GRV_STS, .GRV_JOINED_LO, .GRV_JOINED_HI, .ACC_EPOCH_CUR] t.chip) ∧
    (∀ j n x, s.chip.AtRest → s.chip.gjobs = [j] → j.grove = g → j.walking = true → j.inst = some n → n < 64 → s.chip.walkDone g (some n) = true →
      s.chip.epFull = false → s.Owes j.req x →
        let next := (s.chip.epCur + 1) % 2 ^ 32
        s.Does (.removalWalkDone g) fun t => t.chip.gjobs = [] ∧ bitAt (t.chip.members g) n = false ∧
          (∀ k, k < 64 → k ≠ n → bitAt (t.chip.members g) k = bitAt (s.chip.members g) k) ∧ t.chip.groveMapped g (some n) = false ∧
          t.chip.is F.GRV_STS.REMOVING g = false ∧ t.chip.epCur = next ∧ t.Answered x j.req 0 [w32 0x100, w32 next]) ∧
    (∀ m h gw op size, s.chip.AtRest → s.chip.msgs = [m] → s.chip.ert = [] → m.loc = .home h → h < 8 → m.toHome = true → m.kind = .ioAtomic op size →
      m.grove = some (g, gw) → s.chip.gFell g = false → m.queued = false → m.given = none → s.chip.txns = [] → s.chip.inners = [] →
      let line := m.addr / 64 * 64
      s.chip.homeState h line = (0, 0) →
        (s.chip.copies = [] → s.Does (.agentAtomic m.id .clean) fun t => ∃ x i, t.chip.txns = [x] ∧ x.op = .atomic op size (m.addr % 64) m.data m.q ∧
          x.reading = true ∧ t.chip.inners = [i] ∧ i.who = .home x.id ∧ i.kind = .memRd ∧ i.dpa = (s.chip.groveTarget g gw line).2) ∧
        (∀ d, s.chip.copies = [{ home := h, ga := line, data := d }] →
          let off := m.addr % 64
          let orig := (d.drop off).take size
          s.Does (.agentAtomic m.id .clean) fun t => (∃ x i, t.chip.txns = [x] ∧ x.fin = true ∧ t.chip.inners = [i] ∧ i.kind = .memWr) ∧
            t.chip.copies = [{ home := h, ga := line, data := d.take off ++ atomResult op size orig m.data ++ d.drop (off + size) }])) ∧
    (∀ (r : Nat) (v : W), s.chip.AtRest → r < 8 → bitAt v.toNat 31 = true →
      let ga := (s.chip.rd .SNF_PROBE_ADDR_LO r).toNat / 64 * 64 + v.toNat % 2 ^ 14 * 2 ^ 32
      let base := 2 ^ 31 + b2n (s.chip.txnAt r ga).isSome * 2 ^ 27 + b2n (s.chip.copyOf r ga).isSome * 2 ^ 26 + snfSet ga * 16
      let shows (res pv : Nat) : Prop := s.Does (.snfProbeStart r v .clean) fun t => t.chip.rd .SNF_PROBE_RES r = w32 res ∧
        t.chip.rd .SNF_PROBE_PV_LO r = w32 pv ∧ t.chip.rd .SNF_PROBE_PV_HI r = w32 (pv / 2 ^ 32) ∧
        s.chip.Apart [.SNF_PROBE_ADDR_HI, .SNF_PROBE_RES, .SNF_PROBE_PV_LO, .SNF_PROBE_PV_HI] t.chip
      (homeOf ga ≠ r → shows (2 ^ 31 + 2 ^ 25 + snfSet ga * 16) 0) ∧
      (homeOf ga = r → s.chip.snfWay r ga = none → shows base 0) ∧
      (∀ w, homeOf ga = r → s.chip.snfWay r ga = some w →
        let e := s.chip.snfAt r (snfSet ga) w
        shows (base + 2 ^ 30 + e.st * 2 ^ 28 + w) e.pv))

/-! ## Grafts -/

/-- The course of a graft on its channel: drained of earlier writes it copies, chunk by chunk, at its channel's rate, line by line; a
poisoned line halts it, a denied one aborts it; an atomic operation's result goes to the target and a mirrored write completes with both
copies; a whole copy flips and switches at a new epoch; time limits abort it; a probe reports an entry (R196 to R203, R205, R208, Table
10.2). Where it reads or fixes more than the spec says, the choice is the model's: log entries 51, 52, 53 and 126. -/
def Obligations.GraftsCopyAndSwitch : Prop :=
  ∀ (s : State) (c : Nat), s.chip.AtRest → c < 16 →
    (∀ e, s.chip.ert = [e] → e.chan = c → e.key.port < 128 →
      let n := min (s.chip.chanDepth c - e.chunks.length) (512 - e.next)
      let next := (s.chip.epCur + 1) % 2 ^ 32
      let st (t : State) : Nat := t.chip.fld F.MOV_CH_STS.STATE c
      let aborted (cause : Nat) (t : State) : Prop := t.chip.ert = [] ∧ t.chip.fld F.MOV_CH_STS.CAUSE c = cause ∧
        t.chip.Raised chipCollector 9 clsC ∧ s.chip.Counted t.chip (cntChan c 3) 1
      (e.st = 1 → (∀ b ∈ e.before, (∀ o ∈ s.chip.opens, o.id = b → o.acked = true) ∧ ∀ i ∈ s.chip.inners, i.id ≠ b) →
        s.Does (.graftArmedDrained c) fun t => st t = 2 ∧ s.chip.Apart [.MOV_CH_STS] t.chip ∧
          t.chip.ert = [{ e with st := 2, before := [], chunks := e.chunks ++ (rangeFrom e.next n).map (fun k => { k := k }), next := e.next + n }]) ∧
      (∀ k x, e.st = 2 → e.chunks.find? (fun y => y.locked && !y.issued) = some x → x.k = k → s.chip.mirrors = [] →
        s.chip.movAt.get 0 c ≤ s.chip.time → s.chip.movAt.get 0 16 ≤ s.chip.time → s.chip.moverMay e e.source = true →
        s.Does (.chunkReadIssue c k) fun t =>
          t.chip.movAt.get 0 c = s.chip.time + chunkTime (s.chip.chanRate c) ∧ t.chip.movAt.get 0 16 = s.chip.time + chunkTime 256 ∧
          t.chip.ert = [{ e with chunks := e.chunks.map (fun y => if y.k = k then { y with issued := true } else y) }] ∧
          t.chip.inners.length = s.chip.inners.length + 64 ∧ s.chip.Apart [] t.chip ∧
          ∀ l, l < 64 → ∃ i ∈ t.chip.inners, i.who = .move c k l ∧ i.kind = .memRd ∧ i.dest = e.source.port ∧ i.ld = e.source.ld ∧
            i.dpa = e.source.ext * extBytes + k * 4096 + l * 64 ∧ i.epoch = some s.chip.epCur) ∧
      (∀ m i k l, e.st = 2 → s.chip.msgs = [m] → s.chip.inners = [i] → i.id = m.inn → s.chip.atHome m = some 8 → i.who = .move c k l →
        m.status = 0 → s.chip.badWords = [] → ∀ bad : Bool,
        (i.kind = .memRd → m.poison = false → bad = false →
          (s.chip.moverMay e e.tgt = true → s.Does (.chunkLineReturn ⟨m.id, bad⟩) fun t => t.chip.ert = [e] ∧ s.chip.Apart [] t.chip ∧
            ∃ y j, t.chip.msgs = [y] ∧ y.kind = .memWr ∧ y.data = m.data ∧ y.dest = e.tgt.port ∧ y.loc = .inject 8 ∧ y.chan = some c ∧
              t.chip.inners = [j] ∧ j.who = .move c k l ∧ j.kind = .memWr ∧ j.dpa = e.tgt.ext * extBytes + k * 4096 + l * 64) ∧
          (s.chip.moverMay e e.tgt = false → e.prev = none → s.Does (.chunkLineReturn ⟨m.id, bad⟩) (aborted 8))) ∧
        (i.kind = .memRd → m.poison = true ∨ bad = true → e.prev = none → s.Does (.chunkLineReturn ⟨m.id, bad⟩) fun t => aborted 4 t ∧
          t.chip.is F.MOV_CH_STS.HALTED c = true ∧ t.chip.Raised chipCollector 8 clsC) ∧
        (i.kind = .memWr →
          let acked := e.chunks.map (fun y => if y.k = k then { y with acked := y.acked + 1 } else y)
          let whole : Prop := ∃ y ∈ acked, y.k = k ∧ 64 ≤ y.acked
          s.Does (.chunkLineReturn ⟨m.id, bad⟩) fun t => t.chip.msgs = [] ∧ t.chip.inners = [] ∧ s.chip.Counted t.chip (cntChan c 1) 1 ∧
            (¬ whole → t.chip.ert = [{ e with chunks := acked }]) ∧
            (whole →
              let left := acked.filter (fun y => decide (y.k ≠ k))
              let more := min (s.chip.chanDepth c - left.length) (512 - e.next)
              s.chip.Counted t.chip (cntChan c 0) 1 ∧ t.chip.ert = [{ e with
                chunks := left ++ (rangeFrom e.next more).map (fun k => { k := k }), next := e.next + more }] ∧
              t.chip.fld F.MOV_CH_STS.CHUNKS c =
                min (s.chip.fld F.MOV_CH_STS.CHUNKS c + 1) (2 ^ F.MOV_CH_STS.CHUNKS.width - 1)))) ∧
      (e.st = 2 → 512 ≤ s.chip.fld F.MOV_CH_STS.CHUNKS c →
        s.Does (.graftCopyDone c) fun t => st t = 3 ∧ t.chip.ert = [{ e with st := 3, since := s.chip.time }] ∧ s.chip.Apart [.MOV_CH_STS] t.chip) ∧
      (e.st = 3 → s.chip.mirrors = [] → s.chip.msgs = [] → s.chip.epFull = false → s.chip.badWords = [] →
        s.Does (.graftSwitch c) fun t => st t = 0 ∧ t.chip.epCur = next ∧ t.chip.rd .MOV_CH_EPOCH c = w32 next ∧
          t.chip.ert = [{ e with st := 4, flip := next, prev := none, chunks := [], before := [] }] ∧
          s.chip.Counted t.chip (cntChan c 2) 1 ∧ s.chip.Apart [.MOV_CH_STS, .MOV_CH_EPOCH, .ACC_EPOCH_CUR] t.chip) ∧
      (s.chip.msgs = [] → e.prev = none → s.chip.badWords = [] →
        (e.st = 1 → e.since + s.chip.xferTo ≤ s.chip.time → s.Does (.graftXferTimeout c) fun t => aborted 6 t ∧ st t = 0) ∧
        (e.st = 3 → e.since + s.chip.flipTo ≤ s.chip.time → s.Does (.graftFlipTimeout c) fun t => aborted 7 t ∧ st t = 0))) ∧
    (exec (.channelHaltClear c) s = .next (s.withChip
      (if s.chip.is F.MOV_CH_STS.HALTED c = true then (s.fresh.set F.MOV_CH_STS.HALTED 0 c).set F.MOV_CH_STS.STATE 0 c else s.fresh))) ∧
    (∀ m o, s.chip.mirrors = [m] → m.src = false → s.chip.msgs = [] → s.chip.inners = [] →
      (m.tgt = false → m.atom = none → m.posted = false → s.chip.opens = [o] → o.id = m.opn → o.kind = .memWr → o.mute = false →
        (s.chip.port o.rport).up = true → (s.chip.port o.rport).flushing = false →
          s.Does (.mirroredWriteComplete m.id) fun t => t.chip.mirrors = [] ∧
            ∃ y, t.chip.msgs = [y] ∧ y.kind = .cmp ∧ y.tag = o.tag ∧ y.dest = o.rport ∧ y.opn = o.id) ∧
      (∀ e op size dpa args, m.tgt = true → m.atom = some (op, size, dpa, args) → m.dead = false → m.status = 0 → s.chip.ertKey m.key = some e →
        e.active = true → (s.chip.port e.tgt.port).up = true → (s.chip.port e.tgt.port).noTraffic = false → s.chip.atomMay m = true →
          s.Does (.mirroredWriteComplete m.id) fun t => t.chip.mirrors = [{ m with atom := none }] ∧
            ∃ y i, t.chip.msgs = [y] ∧ y.kind = .memWrPtl ∧ y.data = atomResult op size m.data args ∧ y.dest = e.tgt.port ∧ y.dpa = e.tgt.at dpa ∧
              t.chip.inners = [i] ∧ i.who = .mirror m.id true)) ∧
    (∀ (r : Nat) (v : W), r < 8 → bitAt v.toNat 31 = true →
      let x := extOf v.toNat (s.chip.rd .ERT_PROBE_DPA r).toNat
      let shows (res tdpa : Nat) : Prop := s.Does (.ertProbeStart r v) fun t => t.chip.rd .ERT_PROBE_RES r = w32 res ∧
        t.chip.rd .ERT_PROBE_TDPA r = w32 tdpa ∧ s.chip.Apart [.ERT_PROBE_SRC, .ERT_PROBE_RES, .ERT_PROBE_TDPA] t.chip
      (x.port / 16 ≠ r → shows (2 ^ 31 + 2 ^ 26) 0) ∧
      (x.port / 16 = r → s.chip.ertKey x = none → shows (2 ^ 31) 0) ∧
      (∀ e, x.port / 16 = r → s.chip.ertKey x = some e → shows (2 ^ 31 + 2 ^ 30 + e.st * 2 ^ 27 + (if e.active then e.chan else 0) * 2 ^ 16 +
        e.tgt.type * 2 ^ 14 + e.tgt.ld * 2 ^ 8 + e.tgt.port) e.tgt.ext))

/-! ## Power domains -/

/-- A power-down goes on as its domains answer: one delays, accepts or refuses; at the limit the first that has not answered refuses with
cause 8; all having accepted, the boundaries close (for Dormant the reply is sent first, the Ethernet links stop and the sessions end),
and once each closing region is empty retention is saved and the domains are off. A packet refuses the entry of a closing boundary, is
noted at one whose domain is saved, and wakes one that sleeps; a domain that is ready is on and its boundary open (R21, R22, R219, R315,
R319, Tables 1.13, 11.3 and 16.5). Where it reads or fixes more than the spec says, the choice is the model's: log entries 73, 74 and
75. -/
def Obligations.PowerEntriesRun : Prop :=
  ∀ (s : State), ({ s.chip with pw := { s.chip.pw with cmd := none } } : Chip).AtRest →
    let st (t : State) (n h : Nat) : Nat := t.chip.fld F.NOC_BND_STS.STATE n h
    let held (id net : Nat) (m : Msg) : Prop := s.chip.msg? id = some m ∧ ∃ p ∈ m.parts, p.net = net ∧ p.atB = true ∧ p.landed = false
    let comes (id net : Nat) (m : Msg) (p : Part) : Prop := (∀ q ∈ m.parts, q.net = net → q.atB = false) ∧
      s.chip.meshPart id net = some (m, p) ∧ p.node = m.toNode
    (∀ k, s.chip.pw.cmd = some k → k.src ≠ .image → k.src ≠ .test →
      let bnds (t : State) (v : Nat) : Prop := ∀ d ∈ k.doms, ∀ n h, bndOf d = some (n, h) → st t n h = v
      let goes (k' : PwrCmd) (t : State) : Prop := t.chip.pw = { s.chip.pw with cmd := some k' }
      let late := s.chip.firstRefusal k.src (decide (k.action = 3)) k.doms
      let refused (cause d : Nat) (t : State) : Prop := t.chip.pw = { s.chip.pw with cmd := none } ∧
        t.chip.fld F.PWR_ENTRY_STS.BUSY = 0 ∧ t.chip.fld F.PWR_ENTRY_STS.DONE = 1 ∧ t.chip.fld F.PWR_ENTRY_STS.RESULT = 1 ∧
        t.chip.fld F.PWR_ENTRY_STS.CAUSE = cause ∧ t.chip.fld F.PWR_ENTRY_STS.DOMAIN = d ∧
        (∀ x ∈ k.doms, ∀ n h, bndOf x = some (n, h) → st s n h = 1 → st t n h = 0) ∧
        ∀ q e x, k.src = .kmp q e → s.Owes q x → t.Answered x q 0 [w32 (1 + cause * 2 ^ 8), w32 d]
      let rs := (k.doms.filter (fun d => decide (160 ≤ d) && decide (d < 168))).map (· - 160)
      let closed (c : PwrCmd) (t : State) : Prop := goes { c with left := rs, phase := if rs = [] then 3 else 2 } t ∧ bnds t (if rs = [] then 2 else 1)
      (∀ d, d < 182 → k.phase = 1 → d ∈ k.left →
        let rest := k.left.filter (fun x => decide (x ≠ d))
        let why := s.chip.refusal k.src (decide (k.action = 3)) d
        (why ≠ 0 → s.Does (.domainEntryAnswer d) (refused why d)) ∧
        (∀ d' cause, why = 0 → s.chip.delays d = true ∨ rest ≠ [] → late = some (d', cause) → d' < 182 →
          s.Does (.domainEntryAnswer d) (refused cause d')) ∧
        (why = 0 → late = none → s.chip.delays d = true → exec (.domainEntryAnswer d) s = .next (s.withChip s.fresh)) ∧
        (why = 0 → late = none → s.chip.delays d = false →
          (rest ≠ [] → exec (.domainEntryAnswer d) s = .next (s.withChip (s.fresh.setCmd { k with left := rest }))) ∧
          (rest = [] → k.action ≠ 3 → s.Does (.domainEntryAnswer d) fun t => closed k t ∧
            ∀ n i j, n ≠ .NOC_BND_STS → t.chip.rd n i j = s.chip.rd n i j) ∧
          (∀ q e x, rest = [] → k.action = 3 → k.src = .kmp q e → s.Owes q x → s.Does (.domainEntryAnswer d) fun t =>
            closed { k with src := .reg } t ∧ t.Answered x q 0 [0, 0] ∧ t.kmp.sess = [] ∧ t.chip.ethUp 0 = false ∧ t.chip.ethUp 1 = false))) ∧
      (∀ d l, k.phase = 1 → k.left = d :: l → d < 182 → k.since + s.chip.entryLimit ≤ s.chip.time → s.Does .entryLimitExpire (refused 8 d)) ∧
      (∀ r, r < 8 → k.phase = 2 → r ∈ k.left →
        let rest := k.left.filter (fun x => decide (x ≠ r))
        (∀ d cause, late = some (d, cause) → d < 182 → s.Does (.regionDrained r) (refused cause d)) ∧
        (late = none →
          ((∃ m ∈ s.chip.msgs, m.inside r = true) → exec (.regionDrained r) s = .next (s.withChip s.fresh)) ∧
          ((∀ m ∈ s.chip.msgs, m.inside r = false) →
            (rest ≠ [] → exec (.regionDrained r) s = .next (s.withChip (s.fresh.setCmd { k with left := rest }))) ∧
            (rest = [] → s.Does (.regionDrained r) fun t => goes { k with left := [], phase := 3 } t ∧ bnds t 2)))) ∧
      (k.phase = 3 → k.src = .reg → k.doms.Nodup → s.Does .retentionSaveDone fun t =>
        t.chip.pw.cmd = none ∧ t.chip.pw.dormant = (s.chip.pw.dormant || decide (k.action = 3)) ∧
          (∀ d, d < 182 → t.chip.domOn d = (s.chip.domOn d && !k.doms.contains d)) ∧
          t.chip.fld F.PWR_ENTRY_STS.RESULT = 0 ∧ t.chip.fld F.PWR_ENTRY_STS.DONE = 1 ∧
          ∀ d ∈ k.doms, ∀ n h, bndOf d = some (n, h) →
            st t n h = (if s.chip.is F.NOC_BND_STS.WAKE_PENDING n h then 4 else 3) ∧ t.chip.is F.NOC_BND_STS.WAKE_PENDING n h = false) ∧
      (∀ id m net, net < 4 → (held id net m ∨ ∃ p, comes id net m p) → st s m.toNode m.boundary = 1 → m.toNode < 9 →
          s.Does (.boundaryPacketArrive id net) (refused 6 (if m.toNode < 8 then regionDom m.toNode else 176 + m.boundary)))) ∧
    (∀ id m net b passed, s.chip.pw.cmd = none → net < 4 →
      (held id net m ∧ b = s.fresh ∧ passed = s.fresh.landPart m net) ∨
        (∃ p, comes id net m p ∧ b = s.fresh.hop m p ∧ passed = b) →
      let n := m.toNode
      let h := m.boundary
      (st s n h = 0 → exec (.boundaryPacketArrive id net) s = .next (s.withChip passed)) ∧
      (st s n h = 2 → exec (.boundaryPacketArrive id net) s = .next (s.withChip (b.set F.NOC_BND_STS.WAKE_PENDING 1 n h))) ∧
      (st s n h = 3 → exec (.boundaryPacketArrive id net) s = .next (s.withChip ((b.set F.NOC_BND_STS.STATE 4 n h).countWake n h))) ∧
      (st s n h = 4 → exec (.boundaryPacketArrive id net) s = .next (s.withChip b))) ∧
    (∀ n h, s.chip.pw.cmd = none → n < 9 → h < 8 → st s n h = 4 → (n < 8 → s.chip.pw.testing.contains (regionDom n) = false) →
      s.Does (.domainReady n h []) fun t => st t n h = 0 ∧ t.chip.is F.NOC_BND_STS.WAKE_PENDING n h = false ∧
        (n < 8 → t.chip.domOn (regionDom n) = true ∧ t.chip.domOn (homeDom n) = true) ∧ (n = 8 → t.chip.domOn (176 + h) = true))

/-! ## The interior network's tables and figures -/

/-- A flip of the route epoch is refused before the former one has drained and where a route of the other set fails; otherwise the set
changes and every marker sets out; the last marker to arrive drains the old epoch. A route table of the active set is not written. The
figures of the 156 initiators are copied at one edge, each saturated, and cleared (R222 to R226, Tables 11.5 and 11.6). -/
def Obligations.RoutesFlipAndFiguresAreCopied : Prop :=
  ∀ (s : State), s.chip.AtRest →
    let e := s.chip.routeEpoch
    (∀ v : W,
      let refused (why : Nat) (t : State) : Prop := t.chip.routeEpoch = e ∧ t.chip.is F.NOC_ROUTE_CTRL.REFUSED = true ∧
        t.chip.fld F.NOC_ROUTE_CTRL.RESULT = why ∧ t.chip.markers = s.chip.markers ∧ s.chip.Apart [.NOC_ROUTE_CTRL] t.chip
      (s.chip.is F.NOC_ROUTE_CTRL.DRAINED = false → s.Does (.nocRouteFlip v) (refused 3)) ∧
      (s.chip.is F.NOC_ROUTE_CTRL.DRAINED = true →
        (∀ n a b, s.chip.badRoute (1 - e) = some (n, a, b) → s.Does (.nocRouteFlip v) fun t => refused 2 t ∧
          t.chip.fld F.NOC_ROUTE_CTRL.NET = n ∧ t.chip.fld F.NOC_ROUTE_CTRL.SRC_NODE = a ∧ t.chip.fld F.NOC_ROUTE_CTRL.DEST_NODE = b) ∧
        (s.chip.badRoute (1 - e) = none → s.chip.badWords = [] → s.Does (.nocRouteFlip v) fun t => t.chip.routeEpoch = 1 - e ∧
          t.chip.is F.NOC_ROUTE_CTRL.DRAINED = false ∧ t.chip.fld F.NOC_ROUTE_CTRL.RESULT = 1 ∧ t.chip.markers = allMarkers ∧
          s.chip.Counted t.chip (cntChip 8) 1 ∧ s.chip.Apart [.NOC_ROUTE_CTRL] t.chip))) ∧
    (∀ src dst net vc plane, src < 9 → dst < 9 → net < 4 → vc < 4 → plane < 2 → (src, dst, net, vc, plane) ∈ s.chip.markers →
      let mine (m : Msg) : Prop := m.fromNode = src ∧ m.toNode = dst ∧ vcOf m.kind = vc ∧ m.plane net = plane
      let old (m : Msg) : Prop := mine m ∧ m.rEpoch ≠ e ∧ ∃ p ∈ m.parts, p.net = net ∧ p.landed = false ∧ p.atB = false
      let left := s.chip.markers.filter (fun x => decide (x ≠ (src, dst, net, vc, plane)))
      ((∃ m ∈ s.chip.msgs, old m) → exec (.epochMarkerArrive src dst net vc plane) s = .next (s.withChip s.fresh)) ∧
      ((∀ m ∈ s.chip.msgs, ¬ old m) → s.Does (.epochMarkerArrive src dst net vc plane) fun t => t.chip.markers = left ∧
        t.chip.is F.NOC_ROUTE_CTRL.DRAINED = (decide (left = []) || s.chip.is F.NOC_ROUTE_CTRL.DRAINED) ∧ t.chip.routeEpoch = e ∧
        t.chip.msgs.length = s.chip.msgs.length ∧ (∀ m ∈ t.chip.msgs, mine m → ∀ p ∈ m.parts, p.net = net → p.held = false) ∧
        s.chip.Apart [.NOC_ROUTE_CTRL] t.chip)) ∧
    (∀ node t (v : W), node < 9 → t < 8 →
      exec (.routeTableWrite node t v) s = .next (s.withChip
        (if t / 4 = e then s.fresh.set F.NOC_ROUTE_CTRL.ACTIVE_WRITE 1 else s.fresh.wr .NOC_ROUTE node t (w32 (v.toNat % 2 ^ 27))))) ∧
    (∀ v : W, s.Does (.statSnapshot v) fun t => t.chip.is F.NOC_STAT_CTRL.SNAP_VALID = true ∧
      t.chip.stats = (if bitAt v.toNat 30 then [] else s.chip.stats) ∧
      (∀ i, i < 156 →
        let x := s.chip.stats.get {} i
        let sat (n : Nat) : W := w32 (min n 0xFFFFFFFF)
        t.chip.rd .NOC_STAT_TXN i = sat x.txn ∧ t.chip.rd .NOC_STAT_RD i = sat x.rd ∧ t.chip.rd .NOC_STAT_WR i = sat x.wr ∧
          t.chip.rd .NOC_STAT_LAT_SUM i = sat x.latSum ∧ t.chip.rd .NOC_STAT_LAT_MAX i = sat x.latMax) ∧
      s.chip.Apart [.NOC_STAT_CTRL, .NOC_STAT_TXN, .NOC_STAT_RD, .NOC_STAT_WR, .NOC_STAT_LAT_SUM, .NOC_STAT_LAT_MAX] t.chip) ∧
    exec .statClear s = .next (s.withChip { s.fresh with stats := [] })

/-! ## Faults -/

/-- A changed record reaches its parent as a child bit, with its class, and the chip acts on no error again; a record is cleared only while
no source of it is live, and is then written to the fault log; FAIL_TEST drives the fault code for 10 ms; the loss of the heartbeat
drives it too and turns off the slots that FLT_SAFE_SLOT names, and its return is a class F error of the chip (R273, R275, R285 to R287,
R290, Tables 14.2 and 14.7). Where it reads or fixes more than the spec says, the choice is the model's: log entries 63, 66 and 68. -/
def Obligations.FaultsPassUpAndClear : Prop :=
  ∀ (s : State), s.chip.AtRest →
    let pair (t : State) (fault : Bool) : Prop := t.chip.fld F.FLT_SAFE_STS.FAIL_T = b2n (!fault) ∧ t.chip.fld F.FLT_SAFE_STS.FAIL_C = b2n fault
    (∀ c, c < 169 →
      (c ∈ s.chip.unpassed → ∀ p bit, parentOf c = some (p, bit) → s.Does (.faultRecordPropagate c) fun t =>
        t.chip.Raised p bit (s.chip.fld F.FLT_REC_STS.CLASS c) ∧ c ∉ t.chip.unpassed ∧ s.chip.Apart recRegs t.chip ∧
        (∀ k, k ≠ p → ∀ n ∈ recRegs, t.chip.rd n k = s.chip.rd n k) ∧
        (s.chip.is F.FLT_REC_STS.OPEN p = false → t.chip.rd .FLT_REC_SRC p = w32 (2 ^ bit) ∧
          t.chip.fld F.FLT_REC_STS.MERGED p = 0 ∧ t.chip.rd .FLT_REC_TIME_LO p = w32 s.chip.ns ∧
          t.chip.rd .FLT_REC_TIME_HI p = w32 (s.chip.ns / 2 ^ 32))) ∧
      (s.chip.is F.FLT_REC_STS.OPEN c = false → exec (.fltRecClear c) s = .next (s.withChip s.fresh)) ∧
      (s.chip.is F.FLT_REC_STS.OPEN c = true → s.chip.liveBits c ≠ 0 →
        exec (.fltRecClear c) s = .next (s.withChip ((s.fresh.set F.FLT_REC_STS.REFUSED 1 c).count (cntChip 5)))) ∧
      (s.chip.is F.FLT_REC_STS.OPEN c = true → s.chip.liveBits c = 0 →
        let n := s.chip.fld F.FLT_LOG_PTR.NEXT
        let word := s.chip.fld F.FLT_REC_STS.CLASS c * 2 ^ 30 + s.chip.fld F.FLT_REC_STS.MERGED c * 2 ^ 16 + c
        s.Does (.fltRecClear c) fun t => t.chip.is F.FLT_REC_STS.OPEN c = false ∧ t.chip.rd .FLT_REC_SRC c = 0 ∧
          t.chip.rd .FLT_LOG n 0 = w32 word ∧ t.chip.rd .FLT_LOG n 1 = s.chip.rd .FLT_REC_SRC c ∧
          t.chip.rd .FLT_LOG n 2 = s.chip.rd .FLT_REC_TIME_HI c ∧ t.chip.rd .FLT_LOG n 3 = s.chip.rd .FLT_REC_TIME_LO c ∧
          t.chip.fld F.FLT_LOG_PTR.NEXT = (n + 1) % 64 ∧ (n = 63 → t.chip.is F.FLT_LOG_PTR.WRAPPED = true) ∧
          (∀ p bit, parentOf c = some (p, bit) → bitAt (t.chip.rd .FLT_REC_SRC p).toNat bit = false) ∧
          s.chip.Apart (.FLT_LOG :: .FLT_LOG_PTR :: .FLT_SLOT_SRC :: recRegs) t.chip)) ∧
    s.Does .failTest (fun t => t.chip.failTest = some s.chip.time ∧ pair t true ∧ s.chip.Apart [.FLT_CFG, .FLT_SAFE_STS] t.chip) ∧
    (∀ a, s.chip.failTest = some a → a + 10 * msT ≤ s.chip.time → s.Does .failTestEnd fun t => t.chip.failTest = none ∧
      pair t (!s.chip.started || s.chip.is F.FLT_SAFE_STS.SAFE || s.chip.dieLost) ∧ s.chip.Apart [.FLT_SAFE_STS] t.chip) ∧
    (s.chip.beatLost = false → s.chip.started = true → s.chip.pw.dormant = false → s.Does .heartbeatLoss fun t =>
      t.chip.beatLost = true ∧ pair t true ∧ t.chip.is F.FLT_SAFE_STS.SAFE = s.chip.is F.FLT_SAFE_STS.SAFE ∧
      ∀ k, k < 32 → t.chip.slSt k = (if s.chip.slSt k ≠ slDisabled ∧ bitAt (s.chip.rd .FLT_SAFE_SLOT).toNat k = true then slSafe else s.chip.slSt k)) ∧
    (s.chip.beatLost = true → s.Does .heartbeatReturn fun t => t.chip.beatLost = false ∧ t.chip.Raised chipCollector 10 clsF ∧
      t.chip.is F.FLT_SAFE_STS.SAFE = true ∧
      (s.chip.is F.FLT_SAFE_STS.SAFE = false → pair t true ∧ t.chip.fld F.FLT_SAFE_STS.FIRST = chipCollector))

/-- Each accepted clear, by FLT_REC_CTRL or by FAULT_CLEAR for one collector or for all, writes the closed record to the entry of the
fault log that FLT_LOG_PTR.NEXT names: class, merge count and collector, sources, and time. NEXT names the following entry of the 64, entry
0 after the last; WRAPPED is set with the last and kept from then on (R290). -/
def Obligations.AcceptedClearsFillTheLog : Prop :=
  let fills (a b : Chip) (c : Nat) : Prop :=
    let n := a.fld F.FLT_LOG_PTR.NEXT
    b.rd .FLT_LOG n 0 = w32 (a.fld F.FLT_REC_STS.CLASS c * 2 ^ 30 + a.fld F.FLT_REC_STS.MERGED c * 2 ^ 16 + c) ∧
      b.rd .FLT_LOG n 1 = a.rd .FLT_REC_SRC c ∧ b.rd .FLT_LOG n 2 = a.rd .FLT_REC_TIME_HI c ∧ b.rd .FLT_LOG n 3 = a.rd .FLT_REC_TIME_LO c ∧
      (∀ m j, m ≠ n → b.rd .FLT_LOG m j = a.rd .FLT_LOG m j) ∧ b.fld F.FLT_LOG_PTR.NEXT = (n + 1) % 64 ∧
      b.is F.FLT_LOG_PTR.WRAPPED = (a.is F.FLT_LOG_PTR.WRAPPED || decide (n = 63))
  (∀ (s : State) (c : Nat), s.chip.AtRest → c < 169 → s.chip.is F.FLT_REC_STS.OPEN c = true → s.chip.liveBits c = 0 →
    s.Does (.fltRecClear c) fun t => fills s.chip t.chip c) ∧
  (∀ (s : State) (q : KmpReq) (x : Sess), s.chip.AtRest → q.wf = true → s.Hears 0x0610 q x → q.words.length = 1 →
    let b := (s.begun 0x0610 q x).chip
    let c := (q.words.getD 0 0).toNat % 256
    (c < 169 → b.is F.FLT_REC_STS.OPEN c = true → b.liveBits c = 0 → s.Does (.faultClear q) fun t => fills b t.chip c) ∧
    (c = 255 → s.Does (.faultClear q) fun t => ∀ n ∈ [RName.FLT_LOG, .FLT_LOG_PTR], ∀ i j,
      t.chip.rd n i j = ((List.range 169).foldl (fun (u : Chip) k => (u.clearRecord k).1) b).rd n i j)) ∧
  ∀ (a : Chip) (c : Nat), c < 169 →
    (a.is F.FLT_REC_STS.OPEN c = true → a.liveBits c = 0 → (a.clearRecord c).2 = 0 ∧ fills a (a.clearRecord c).1 c) ∧
    ((a.clearRecord c).2 ≠ 0 → ∀ n ∈ [RName.FLT_LOG, .FLT_LOG_PTR], ∀ i j, (a.clearRecord c).1.rd n i j = a.rd n i j)

/-! ## Supplies, temperature, clocks -/

/-- Temperatures above the warning threshold and above 150 °C, a supply outside its window, and a droop below the reset depth raise their
source bits, those of class F with safe state; a droop below the warning depth slows its region's clock until it is released; settings
outside the ranges of Table 16.8 are refused as a whole (R281, R326 to R329, Tables 14.3, 14.4 and 16.8). Where it reads or fixes more
than the spec says, the choice is the model's: log entries 59, 66, 67 and 80. -/
def Obligations.SensorsAndDroopsAct : Prop :=
  ∀ (s : State), s.chip.AtRest →
    let safe (t : State) : Prop := t.chip.is F.FLT_SAFE_STS.SAFE = true
    let others (l : List RName) (t : State) : Prop := ∀ n i j, n ≠ .CNT_OVF → n ∉ l → t.chip.rd n i j = s.chip.rd n i j
    (∀ l : List Nat, s.Does (.temperatureSample l) fun t =>
      (∀ i v, i < 10 → l[i]? = some v → t.chip.rd .PWR_TEMP i = w32 (2 ^ 31 + v % 65536)) ∧
      (s.chip.pw.warm = false → t.chip.hotter s.chip.thermWarn = true → t.chip.Raised chipCollector 13 clsC) ∧
      (s.chip.hotter 150 = false → t.chip.hotter 150 = true → t.chip.Raised chipCollector 12 clsF ∧ safe t) ∧
      (s.chip.hotter 150 = true ∨ t.chip.hotter 150 = false → others (.PWR_TEMP :: recRegs) t)) ∧
    (∀ rail, rail < 7 → (rail ∉ s.chip.pw.rails → s.Does (.supplyOutOfWindow rail) fun t => t.chip.pw.rails = s.chip.pw.rails ++ [rail] ∧
        t.chip.Raised chipCollector 11 clsF ∧ safe t) ∧
      (s.Does (.supplyBackInWindow rail) fun t => rail ∉ t.chip.pw.rails ∧ (∀ r, r ≠ rail → (r ∈ t.chip.pw.rails ↔ r ∈ s.chip.pw.rails)) ∧
        others [] t)) ∧
    (∀ r uv, r < 8 →
      let set := s.chip.fld F.PWR_OP_STS.SETPOINT_MV
      let mv := if s.chip.pw.raise.isSome then min s.chip.pw.oldMv set else set
      let below (k : Nat) : Prop := 1000 * uv < (1000 - 5 * k) * (1000 * mv)
      let deep := max (s.chip.fld F.PWR_DROOP_STS.MIN_DEPTH r) (min ((1000 * mv - uv) / mv) 255)
      (¬ below (s.chip.fld F.PWR_DROOP_CFG.WARN) → exec (.droopWarning r uv) s = .next (s.withChip s.fresh)) ∧
      (¬ below (s.chip.fld F.PWR_DROOP_CFG.RST) → exec (.droopReset r uv) s = .next (s.withChip s.fresh)) ∧
      (below (s.chip.fld F.PWR_DROOP_CFG.WARN) → s.Does (.droopWarning r uv) fun t =>
        t.chip.is F.PWR_DROOP_STS.SLOWED r = true ∧ t.chip.fld F.PWR_DROOP_STS.MIN_DEPTH r = deep ∧ others (.PWR_DROOP_STS :: recRegs) t ∧
        (s.chip.is F.PWR_DROOP_STS.SLOWED r = true → others [.PWR_DROOP_STS] t ∧
          t.chip.fld F.PWR_DROOP_STS.EVENTS r = s.chip.fld F.PWR_DROOP_STS.EVENTS r) ∧
        (s.chip.is F.PWR_DROOP_STS.SLOWED r = false → t.chip.Raised (regionCollector r) 9 clsC ∧
          t.chip.fld F.PWR_DROOP_STS.EVENTS r = min (s.chip.fld F.PWR_DROOP_STS.EVENTS r + 1) 65535 ∧
          (s.chip.badWords = [] → s.chip.Counted t.chip (cntRegion r 26) 1))) ∧
      (below (s.chip.fld F.PWR_DROOP_CFG.RST) → s.Does (.droopReset r uv) fun t => t.chip.Raised (regionCollector r) 10 clsF ∧ safe t) ∧
      (s.chip.is F.PWR_DROOP_STS.SLOWED r = true → s.chip.badWords = [] → s.Does (.droopRelease r) fun t =>
        let d := s.chip.time - s.chip.pw.slowAt.get 0 r
        t.chip.is F.PWR_DROOP_STS.SLOWED r = false ∧
          t.chip.fld F.PWR_DROOP_NS.NS r = min (s.chip.fld F.PWR_DROOP_NS.NS r + d / 16) (2 ^ 32 - 1) ∧
          s.chip.Counted t.chip (cntRegion r 27) (coreCycles (s.chip.fld F.PWR_OP_STS.CUR) d) ∧ others [.PWR_DROOP_STS, .PWR_DROOP_NS] t)) ∧
    (∀ v : W,
      let warn := bitsOf v.toNat 0 8
      let rel := bitsOf v.toNat 8 8
      let rst := bitsOf v.toNat 16 8
      let fields (t : State) (a b c : Nat) : Prop := t.chip.fld F.PWR_DROOP_CFG.WARN = a ∧ t.chip.fld F.PWR_DROOP_CFG.REL = b ∧
        t.chip.fld F.PWR_DROOP_CFG.RST = c ∧ s.chip.Apart [.PWR_DROOP_CFG] t.chip
      s.Does (.droopCfgWrite v) fun t =>
        (4 ≤ warn → warn ≤ 20 → 2 ≤ rel → rel + 1 ≤ warn → warn + 4 ≤ rst → rst ≤ 30 → fields t warn rel rst) ∧
        (warn < 4 ∨ 20 < warn ∨ rel < 2 ∨ warn < rel + 1 ∨ rst < warn + 4 ∨ 30 < rst → t.chip.is F.PWR_DROOP_CFG.REFUSED = true ∧
          fields t (s.chip.fld F.PWR_DROOP_CFG.WARN) (s.chip.fld F.PWR_DROOP_CFG.REL) (s.chip.fld F.PWR_DROOP_CFG.RST)))

/-- A raise of the operating point ends with the clock of the new point once its supply has settled, or with the old voltage after the limit
or more than three bad responses have passed; the alarm sets its flag, disarms itself and, in Dormant, wakes the chip with the time of
the always-on count; references and the crystal come and go; a read of the time base latches its upper and fraction words for its
initiator (R318, R324, R325, R330 to R334, Table 16.6). Where it reads or fixes more than the spec says, the choice is the model's: log
entries 72 and 76. -/
def Obligations.ClocksAndTimeRun : Prop :=
  ∀ (s : State), ({ s.chip with pw := { s.chip.pw with cmd := none } } : Chip).AtRest →
    (∀ k t0, s.chip.pw.cmd = some k → s.chip.pw.raise = some t0 → s.chip.pw.opNext = none → k.action = 4 → k.phase = 5 → k.op < 4 →
      let ended (result cur : Nat) (t : State) : Prop := t.chip.pw = { s.chip.pw with cmd := none, raise := none } ∧
        t.chip.fld F.PWR_OP_STS.CUR = cur ∧ t.chip.fld F.PWR_OP_STS.BUSY = 0 ∧
        (k.src = .reg → t.chip.fld F.PWR_ENTRY_STS.RESULT = result ∧ t.chip.fld F.PWR_ENTRY_STS.BUSY = 0) ∧
        ∀ q e x, k.src = .kmp q e → s.Owes q x → t.Answered x q 0 [w32 result, 0]
      (∀ retries, retries ≤ 3 → s.Does (.avsSettled retries) fun t => ended 0 k.op t ∧
        t.chip.fld F.PWR_OP_STS.SETPOINT_MV = s.chip.fld F.PWR_OP_STS.SETPOINT_MV) ∧
      (∀ retries, 3 < retries → exec (.avsSettled retries) s = .next (s.withChip (s.fresh.count (cntChip 11) 3))) ∧
      (t0 + clampTo 10 1000 (s.chip.fld F.PWR_AVS_CFG.SETTLE_TO) * 10 * usT ≤ s.chip.time → s.Does .avsSettleTimeout fun t =>
        let cur := s.chip.fld F.PWR_OP_STS.CUR
        ended 5 cur t ∧ t.chip.fld F.PWR_OP_STS.TARGET = cur ∧ t.chip.fld F.PWR_OP_STS.SETPOINT_MV = s.chip.setpoint cur ∧
          t.chip.is F.PWR_OP_STS.AVS_TIMEOUT = true ∧ .avs (s.chip.setpoint cur) ∈ t.chip.outbox)) ∧
    (s.chip.pw.cmd = none →
      (s.chip.is F.TMB_CFG.ALARM_ARM = true → s.chip.alarmNs ≤ s.chip.pw.ao / 64 → s.Does (.alarmFire []) fun t =>
        t.chip.is F.TMB_STS.ALARM = true ∧ t.chip.is F.TMB_CFG.ALARM_ARM = false ∧ .irq 1 ∈ t.chip.outbox ∧
          (s.chip.pw.dormant = false → s.chip.Apart [.TMB_STS, .TMB_CFG] t.chip) ∧
          (s.chip.pw.dormant = true → t.chip.pw.dormant = false ∧ t.chip.pw.off = [] ∧ t.chip.time = s.chip.pw.ao / 4 % 2 ^ 68 ∧
            t.chip.is F.TMB_STS.WOKE = true ∧ (∀ r, r < 8 → t.chip.fld F.NOC_BND_STS.STATE r 0 = 0) ∧
            ∀ h, h < 5 → t.chip.fld F.NOC_BND_STS.STATE 8 h = 0)) ∧
      (∀ w, w < 3 →
        let bit (t : State) : Nat := [t.chip.fld F.PWR_CLK_STS.PCLK0, t.chip.fld F.PWR_CLK_STS.PCLK1, t.chip.fld F.PWR_CLK_STS.ECLK].getD w 0
        let moved (v : Nat) (t : State) : Prop := bit t = v ∧ s.chip.Apart [.PWR_CLK_STS, .TMB_STS] t.chip ∧
          t.chip.fld F.TMB_STS.SRC_LOST = if s.chip.isHubRef w then 1 - v else s.chip.fld F.TMB_STS.SRC_LOST
        s.Does (.refclkLoss w) (moved 0) ∧ s.Does (.refclkReturn w) (moved 1)) ∧
      s.Does .xtalStable (fun t => t.chip.is F.PWR_CLK_STS.XTAL = true ∧ s.chip.Apart [.PWR_CLK_STS] t.chip) ∧
      (s.chip.is F.PWR_CLK_STS.XTAL = true → s.Does .xtalFail fun t => t.chip.is F.PWR_CLK_STS.XTAL = false ∧
        t.chip.is F.TMB_STS.XTAL_FAIL = true ∧ s.chip.Apart [.PWR_CLK_STS, .TMB_STS] t.chip) ∧
      ∀ ini, ini < 256 → s.Does (.timeBaseRead ini) fun t => t.chip.outbox = [.value ini (s.chip.ns % 2 ^ 32)] ∧
        t.chip.latch ini latTmb = [s.chip.ns / 2 ^ 32 % 2 ^ 32, s.chip.time % 16] ∧ s.chip.Apart [] t.chip)

/-- A read of TMB_NOW_LO latches TMB_NOW_HI and TMB_NOW_FRAC, so that the three then form one value; a read of CNT_VAL_LO of a counter
latches bits [47:32] of the same value into CNT_VAL_HI of that counter; a read of a latched register alone returns what was latched last
for its initiator, whatever the time or the counter has come to (R334, R358). -/
def Obligations.LatchingReadsFormOneValue : Prop :=
  let time (u : Chip) (ini lo now : Nat) : Prop := ∀ c : Chip, c.latch ini latTmb = u.latch ini latTmb → ∃ hi frac, frac < 16 ∧
    (hi * 2 ^ 32 + lo) * 16 + frac = now % 2 ^ 68 ∧ ∀ v, c.regRead v ini ⟨.TMB_NOW_HI, 0, 0⟩ = (c, hi) ∧
      c.regRead v ini ⟨.TMB_NOW_FRAC, 0, 0⟩ = (c, frac)
  let count (u : Chip) (ini n lo now : Nat) : Prop := ∀ c : Chip, c.latch ini (latCnt n) = u.latch ini (latCnt n) → ∃ hi,
    hi * 2 ^ 32 + lo = now ∧ ∀ v, c.regRead v ini ⟨.CNT_VAL_HI, n, 0⟩ = (c, hi)
  (∀ (s : State) (ini : Nat), s.chip.AtRest → ini < 256 →
    (s.Does (.timeBaseRead ini) fun t => ∃ lo, t.chip.outbox = [.value ini lo] ∧ time t.chip ini lo s.chip.time) ∧
    ∀ n, n < 4096 → s.chip.badWords = [] → s.chip.counter n < 2 ^ 48 →
      s.Does (.counterRead ini n) fun t => ∃ lo, t.chip.outbox = [.value ini lo] ∧ count t.chip ini n lo (s.chip.counter n)) ∧
  ∀ (a : Chip) (ini : Nat) (v : List (Nat × Nat)),
    (let r := a.regRead v ini ⟨.TMB_NOW_LO, 0, 0⟩; time r.1 ini r.2 a.time) ∧
    ∀ n, n < 4096 → (a.freshCount n).counter n < 2 ^ 48 →
      let r := a.regRead v ini ⟨.CNT_VAL_LO, n, 0⟩; count r.1 ini n r.2 ((a.freshCount n).counter n)

/-! ## Stored data -/

/-- A narrow write of management SRAM or of the Ethernet DMA buffers gathers in a merge-buffer entry, the oldest of eight making room; an
entry that holds all eight bytes is written, and so is one that is flushed, its word poisoned where the stored one cannot be corrected;
a write of a whole word without an entry stores it. A scrub starts over the words from FIRST to LAST, reads them in order, counts and
reports what it finds, and ends with its time. Halts clear by 1 (R294, R297, R298, R300, R302 to R305). Where it reads or fixes more
than the spec says, the choice is the model's: log entries 69 and 70. -/
def Obligations.StoredDataIsWrittenAndScrubbed : Prop :=
  ∀ (s : State), s.chip.AtRest →
    (∀ (dma : Bool) (a : Nat) (data : List Byte), a < 2 ^ 22 → data.length ∈ [1, 2, 4, 8] → a % data.length = 0 →
      let w := a / 8
      let new : MergeEntry := { dma := dma, word := w, bytes := mergeBytes [] (a % 8) data }
      let mine := s.chip.merge.filter (fun e => decide (e.dma = dma))
      (s.chip.mergeOf dma w = none →
        (data.length = 8 → s.Does (.sramNarrowWrite dma a data) fun t =>
          (∀ i, i < 8 → t.chip.bufByte dma (a + i) = data.getD i 0) ∧ (∀ b, b < a ∨ a + 8 ≤ b → t.chip.bufByte dma b = s.chip.bufByte dma b) ∧
            (∀ b, t.chip.bufByte (!dma) b = s.chip.bufByte (!dma) b) ∧ t.chip.isBad dma w = false ∧
            { t.chip with sram := s.chip.sram, dmaRam := s.chip.dmaRam, badWords := s.chip.badWords } = s.fresh) ∧
        (data.length < 8 → mine.length < 8 →
          exec (.sramNarrowWrite dma a data) s = .next (s.withChip { s.fresh with merge := s.chip.merge ++ [new] })) ∧
        (∀ e l, data.length < 8 → mine = e :: l → 7 ≤ l.length →
          let u := s.fresh.flushEntry e false
          exec (.sramNarrowWrite dma a data) s = .next (s.withChip { u with merge := u.merge ++ [new] }))) ∧
      (∀ e, s.chip.mergeOf dma w = some e →
        let all := mergeBytes e.bytes (a % 8) data
        let rest := s.chip.merge.filter (fun x => !(decide (x.dma = dma) && decide (x.word = w)))
        (none ∈ all → exec (.sramNarrowWrite dma a data) s = .next (s.withChip { s.fresh with merge := rest ++ [{ e with bytes := all }] })) ∧
        (none ∉ all → s.Does (.sramNarrowWrite dma a data) fun t => t.chip.merge = rest ∧
          (∀ i, i < 8 → some (t.chip.bufByte dma (8 * w + i)) = all.getD i none) ∧
          ∀ b, b < 8 * w ∨ 8 * w + 8 ≤ b → t.chip.bufByte dma b = s.chip.bufByte dma b))) ∧
    (∀ (dma : Bool) (w : Nat) (bad : Bool), w < 524288 →
      (s.chip.mergeOf dma w = none → exec (.mergeBufferFlush dma w bad) s = .next (s.withChip s.fresh)) ∧
      (∀ e, s.chip.mergeOf dma w = some e → e.bytes.length = 8 → s.chip.badWords = [] → s.Does (.mergeBufferFlush dma w bad) fun t =>
        t.chip.mergeOf dma w = none ∧ t.chip.isBad dma w = bad ∧ s.chip.Counted t.chip (cntCpx 7) 1 ∧
          (∀ i, i < 8 → t.chip.bufByte dma (8 * w + i) = (e.bytes.getD i none).getD (s.chip.bufByte dma (8 * w + i))) ∧
          (∀ b, b < 8 * w ∨ 8 * w + 8 ≤ b → t.chip.bufByte dma b = s.chip.bufByte dma b) ∧
          (bad = true → t.chip.fld F.ECC_CL_ADDR.INDEX (128 + bufCluster dma) = w ∧ t.chip.is F.ECC_CL_ADDR.VALID (128 + bufCluster dma) = true))) ∧
    (∀ blk c, blk < 9 → c < 6 - blk / 8 →
      let i := 16 * blk + c
      (∀ v : W,
        let first := v.toNat % 2 ^ 20
        let last := min (s.chip.fld F.ECC_SCRUB_END.LAST i) (clusterWords blk c - 1)
        s.Does (.scrubStart blk c v) fun t =>
          (last < first ∨ (s.chip.scrubOf blk c).isSome = true → t.chip.is F.ECC_SCRUB_RES.REFUSED i = true ∧ t.chip.scrubs = s.chip.scrubs ∧
            s.chip.Apart [.ECC_SCRUB_CTRL, .ECC_SCRUB_RES] t.chip) ∧
          (first ≤ last → s.chip.scrubOf blk c = none → t.chip.scrubs = s.chip.scrubs ++ [⟨blk, c, first, last, s.chip.time⟩] ∧
            t.chip.is F.ECC_SCRUB_RES.BUSY i = true ∧ t.chip.is F.ECC_SCRUB_RES.DONE i = false ∧ t.chip.rd .ECC_SCRUB_CNT i = 0 ∧
            t.chip.rd .ECC_SCRUB_FIRST i = 0 ∧ t.chip.rd .ECC_SCRUB_LAST i = 0 ∧
            s.chip.Apart [.ECC_SCRUB_CTRL, .ECC_SCRUB_RES, .ECC_SCRUB_CNT, .ECC_SCRUB_FIRST, .ECC_SCRUB_LAST] t.chip)) ∧
      (∀ x, s.chip.scrubs = [x] → x.blk = blk → x.c = c →
        (x.next ≤ x.last → x.next < 2 ^ 20 → ∀ err waitNs restarts, err < 4 →
          let more : List RName := [.ECC_MP_WAIT, .ECC_MP_STS]
          let found : List RName := [.ECC_SCRUB_CNT, .ECC_SCRUB_FIRST, .ECC_SCRUB_LAST, .ECC_CL_ERR, .ECC_CL_ADDR]
          let goes (P : State → Prop) : Prop := s.Does (.scrubWord blk c err waitNs restarts) fun t =>
            t.chip.scrubs = [{ x with next := x.next + 1 }] ∧ P t
          let at_ (t : State) : Prop := t.chip.rd .ECC_SCRUB_LAST i = w32 (2 ^ 31 + x.next) ∧ t.chip.fld F.ECC_CL_ADDR.INDEX i = x.next ∧
            t.chip.fld F.ECC_SCRUB_CNT.UNCORR i = min (s.chip.fld F.ECC_SCRUB_CNT.UNCORR i + 1) 65535 ∧
            t.chip.rd .ECC_SCRUB_FIRST i = (if s.chip.is F.ECC_SCRUB_FIRST.VALID i then s.chip.rd .ECC_SCRUB_FIRST i else w32 (2 ^ 31 + x.next))
          (err = 0 → goes fun t => s.chip.Apart more t.chip) ∧
          (err = 1 → blk < 8 → c = 0 → goes fun t => t.chip.fld F.ECC_SCRUB_CNT.CORR i = min (s.chip.fld F.ECC_SCRUB_CNT.CORR i + 1) 65535 ∧
            t.chip.Raised (regionCollector blk) 2 clsC ∧ s.chip.Apart (more ++ found ++ recRegs) t.chip) ∧
          (2 ≤ err →
            (blk < 8 → c = 0 → goes fun t => at_ t ∧ t.chip.Raised (regionCollector blk) 1 clsC ∧ s.chip.Apart (more ++ found ++ recRegs) t.chip) ∧
            (blk < 8 → c = 1 → (∀ g, g < 32 → s.chip.gst g ≠ gStanding ∧ s.chip.gst g ≠ gFelling) → s.chip.fld F.SNF_RETIRE.COUNT blk < 256 →
              goes fun t => at_ t ∧ t.chip.Raised (regionCollector blk) 3 clsG ∧
                t.chip.snfAt blk (x.next / 16) (x.next % 16) = (if err = 3 then { retired := true } else {})) ∧
            (blk = 8 → goes fun t => at_ t ∧ t.chip.Raised chipCollector 8 clsC ∧ (c, x.next) ∈ t.chip.badWords))) ∧
        (x.last < x.next → s.Does (.scrubEnd blk c) fun t => t.chip.scrubs = [] ∧ t.chip.is F.ECC_SCRUB_RES.BUSY i = false ∧
          t.chip.is F.ECC_SCRUB_RES.DONE i = true ∧ t.chip.is F.ECC_SCRUB_RES.ABORTED i = false ∧
          t.chip.rd .ECC_SCRUB_TIME i = w32 (min ((s.chip.time - x.since) / 16) 0xFFFFFFFF) ∧
          s.chip.Apart [.ECC_SCRUB_RES, .ECC_SCRUB_TIME] t.chip))) ∧
    (∀ v : W, s.Does (.dmaHaltClear v) fun t =>
      t.chip.is F.ECC_DMA_STS.HALT_A = (s.chip.is F.ECC_DMA_STS.HALT_A && !bitAt v.toNat 0) ∧
        t.chip.is F.ECC_DMA_STS.HALT_B = (s.chip.is F.ECC_DMA_STS.HALT_B && !bitAt v.toNat 1) ∧ s.chip.Apart [.ECC_DMA_STS] t.chip)

/-! ## Slot power channels -/

/-- The settings of a channel: one that R336 refuses sets CFG_REFUSED and nothing else; enabling begins in Absent, disabling turns the gate
and the feeds off and keeps the retry count; CLEAR leaves Latched off, and Pass fault once VOUT is low, and clears the retry count; ECLR
zeroes the energy; a read of the current latches the measurements of one sample (R335, R336, R346, R349, R350, Table 17.2). Where it
reads or fixes more than the spec says, the choice is the model's: log entries 59, 61 and 65. -/
def Obligations.SlotsAreConfigured : Prop :=
  ∀ (s : State) (k : Nat), s.chip.AtRest → k < 32 →
    let refused (c : Instr) : Prop := exec c s = .next (s.withChip (s.fresh.set F.SLT_STS.CFG_REFUSED 1 k))
    let bad (ilim : Nat) : Bool := slotBad (s.chip.fld F.SLT_CFG.CLASS k) (s.chip.fld F.SLT_CFG.TMODE k) (s.chip.fld F.SLT_SHUNT.RSH k) ilim
    let on := s.chip.slOn k
    (∀ v : W, bitAt v.toNat 30 = false → bitAt v.toNat 31 = false →
      (on = false → bad (s.chip.fld F.SLT_LIMIT.ILIM k) = true → refused (.slotEnable k v)) ∧
      (on = false → bad (s.chip.fld F.SLT_LIMIT.ILIM k) = false → s.Does (.slotEnable k v) fun t => t.chip.slOn k = true ∧
        t.chip.slSt k = slAbsent ∧ t.chip.slPresent k = false ∧ (t.chip.slot k).onAt = s.chip.time ∧
        t.chip.fld F.SLT_CTRL.RETRY_MAX k = bitsOf v.toNat 4 3 ∧ t.chip.fld F.SLT_STS.RETRIES k = s.chip.fld F.SLT_STS.RETRIES k) ∧
      (on = true → s.Does (.slotEnable k v) fun t => t.chip.slOn k = true ∧ t.chip.slSt k = s.chip.slSt k ∧
        t.chip.fld F.SLT_CTRL.RETRY_MAX k = bitsOf v.toNat 4 3) ∧
      (on = true → s.Does (.slotDisable k v) fun t => t.chip.slOn k = false ∧ t.chip.slSt k = slDisabled ∧ t.chip.slPresent k = false ∧
        t.chip.is F.SLT_STS.PG k = false ∧ t.chip.is F.SLT_STS.FEED_A_ON k = false ∧ t.chip.is F.SLT_STS.FEED_B_ON k = false ∧
        t.chip.fld F.SLT_STS.RETRIES k = s.chip.fld F.SLT_STS.RETRIES k)) ∧
    (∀ v : W, (bad (v.toNat % 2 ^ 16) = true → refused (.slotLimitWrite k v)) ∧
      (bad (v.toNat % 2 ^ 16) = false → s.Does (.slotLimitWrite k v) fun t => t.chip.fld F.SLT_LIMIT.ILIM k = v.toNat % 2 ^ 16 ∧
        t.chip.fld F.SLT_LIMIT.FTIMER k = clampTo 10 5000 (v.toNat / 2 ^ 16) ∧ s.chip.Apart [.SLT_LIMIT] t.chip)) ∧
    (∀ (b : Bool) (v : W), (s.chip.slSt k ≠ slDisabled → refused (.slotCfgWrite k b v)) ∧
      (s.chip.slSt k = slDisabled → s.Does (.slotCfgWrite k b v) fun t =>
        (b = true → t.chip.fld F.SLT_SHUNT.RSH k = clampTo 50 10000 (v.toNat % 2 ^ 16) ∧ s.chip.Apart [.SLT_SHUNT] t.chip) ∧
        (b = false → t.chip.fld F.SLT_CFG.CLASS k = v.toNat % 2 ∧ t.chip.fld F.SLT_CFG.TMODE k = bitsOf v.toNat 10 2 ∧
          t.chip.fld F.SLT_CFG.NDEV k = bitsOf v.toNat 8 2 ∧ s.chip.Apart [.SLT_CFG] t.chip))) ∧
    (∀ high : Bool, on = true →
      let keeps (t : State) : Prop := ∀ n i j, n ≠ .SLT_STS → n ≠ .SLT_CTRL → t.chip.rd n i j = s.chip.rd n i j
      (s.chip.slSt k = slPass → high = true → s.Does (.slotClear k high) fun t => t.chip.slSt k = slPass ∧
        t.chip.is F.SLT_STS.CLEAR_REFUSED k = true ∧ t.chip.fld F.SLT_STS.RETRIES k = s.chip.fld F.SLT_STS.RETRIES k ∧ keeps t) ∧
      (s.chip.slSt k = slLatched ∨ (s.chip.slSt k = slPass ∧ high = false) → s.Does (.slotClear k high) fun t =>
        t.chip.slSt k = (if s.chip.slPresent k then slQualify else slAbsent) ∧ t.chip.fld F.SLT_STS.RETRIES k = 0 ∧ keeps t) ∧
      (s.chip.slSt k ≠ slLatched → s.chip.slSt k ≠ slPass → s.Does (.slotClear k high) fun t =>
        t.chip.slSt k = s.chip.slSt k ∧ t.chip.fld F.SLT_STS.RETRIES k = 0 ∧ keeps t) ∧
      (s.Does (.slotEnergyClear k) fun t => t.chip.slot k = { s.chip.slot k with energy := 0 } ∧ t.chip.slSt k = s.chip.slSt k ∧ keeps t)) ∧
    (∀ ini (m : SlotSample), ini < 256 → s.Does (.slotMeasRead ini k m) fun t =>
      let power (ma : W) (vin : Nat) : Int := vin * ma.toInt
      let e : Int := (m.before ++ [(m.ma, m.vin)]).foldl (fun e x => (e + power x.1 x.2) % (2 ^ 64 * 100000 : Nat)) (s.chip.slot k).energy
      let uj := e.toNat / 100000
      let tmode := s.chip.fld F.SLT_CFG.TMODE k
      let temp : Nat := match m.temp with
        | some v => if s.chip.fld F.SLT_CFG.CLASS k = 1 ∧ tmode ≠ 0 then 2 ^ 31 + (if 2 ≤ tmode then 2 ^ 30 else 0) + v % 2 ^ 16 else 0
        | none => 0
      (on = false → t.chip.outbox = [.value ini 0] ∧ t.chip.latch ini (latSlot k) = [0, 0, 0, 0, 0, 0]) ∧
      (on = true → t.chip.outbox = [.value ini m.ma.toNat] ∧ (t.chip.slot k).energy = e.toNat ∧
        t.chip.latch ini (latSlot k) = [m.vout % 2 ^ 16 * 2 ^ 16 + m.vin % 2 ^ 16, m.vfb % 2 ^ 16 * 2 ^ 16 + m.vfa % 2 ^ 16,
          (BitVec.ofInt 32 (power m.ma m.vin / 1000)).toNat, temp, uj % 2 ^ 32, uj / 2 ^ 32]) ∧
      ∀ n i j, t.chip.rd n i j = s.chip.rd n i j)

/-- The way of a channel to Powered: presence after 20 µs begins Qualify and, with VIN in its window, the insertion timer; the expired timer
begins Ramp unless the temperature or safe state holds it; full enhancement begins Check, and 1,000 qualified samples give power-good.
VIN out of its window turns the gate off without a trip, and its return starts the timer in full; presence lost ends in Absent; a ramp
that takes too long is a trip (R338, R339, R343, R344, R346, R348, R352, R416). Where it reads or fixes more than the spec says, the
choice is the model's: log entry 59. -/
def Obligations.SlotsRampToPowered : Prop :=
  ∀ (s : State) (k : Nat), s.chip.AtRest → k < 32 →
    let x := s.chip.slot k
    let st := s.chip.slSt k
    let now := s.chip.time
    let held := s.chip.slotHold || x.hot
    let outside (mv : Nat) : Prop := mv < s.chip.slUV k ∨ s.chip.slOV k < mv
    let inside (mv : Nat) : Prop := s.chip.slUV k + 100 ≤ mv ∧ mv + 100 ≤ s.chip.slOV k
    let base := s.chip.slOn k && decide (st ≠ slPass) && !s.chip.vinSnsBad
    (s.chip.slOn k = true → s.chip.slPresent k = false → x.onAt + 20 * usT ≤ now → s.Does (.slotPresenceAsserted k) fun t =>
      t.chip.slPresent k = true ∧
      (st = slAbsent → t.chip.slSt k = slQualify ∧ (t.chip.slot k).insAt = (if x.vinOk && !s.chip.vinSnsBad then some now else none) ∧
        (∀ a, x.absentAt = some a → a + 250 * msT ≤ now → t.chip.fld F.SLT_STS.RETRIES k = 0) ∧
        (x.absentAt = none → t.chip.fld F.SLT_STS.RETRIES k = s.chip.fld F.SLT_STS.RETRIES k)) ∧
      (st ≠ slAbsent → t.chip.slSt k = st)) ∧
    (s.chip.slOn k = true → s.chip.slPresent k = true → s.Does (.slotPresenceLost k) fun t => t.chip.slPresent k = false ∧
      (2 ≤ st → st ≤ 6 → t.chip.slSt k = slAbsent ∧ t.chip.is F.SLT_STS.PG k = false ∧ (t.chip.slot k).absentAt = some now) ∧
      (st < 2 ∨ 6 < st → t.chip.slSt k = st)) ∧
    (∀ i mv, s.chip.slOn k = true → ¬ outside mv → exec (.slotVinLeaveWindow k i mv) s = .next (s.withChip s.fresh)) ∧
    (∀ mv, s.chip.slOn k = true → outside mv →
      (s.Does (.slotVinLeaveWindow k .vin mv) fun t => (t.chip.slot k).vinOk = false ∧
        t.chip.fld F.SLT_EVT.TRIPS k = s.chip.fld F.SLT_EVT.TRIPS k ∧
        (3 ≤ st → st ≤ 5 → t.chip.slSt k = slQualify ∧ t.chip.fld F.SLT_STS.CAUSE k = 9 ∧ t.chip.is F.SLT_STS.PG k = false) ∧
        (st = slQualify → t.chip.slSt k = slQualify ∧ (t.chip.slot k).insAt = none)) ∧
      (s.Does (.slotVinLeaveWindow k .feedA mv) fun t => t.chip.is F.SLT_STS.FEED_A_OK k = false ∧ t.chip.is F.SLT_STS.FEED_A_ON k = false ∧
        t.chip.slSt k = st) ∧
      (s.Does (.slotVinLeaveWindow k .feedB mv) fun t => t.chip.is F.SLT_STS.FEED_B_OK k = false ∧ t.chip.is F.SLT_STS.FEED_B_ON k = false ∧
        t.chip.slSt k = st)) ∧
    (∀ mv, s.chip.slOn k = true → inside mv →
      (x.vinOk = false → s.Does (.slotVinEnterWindow k .vin mv) fun t => (t.chip.slot k).vinOk = true ∧ t.chip.slSt k = st ∧
        (st = slQualify → s.chip.slPresent k = true → s.chip.vinSnsBad = false → (t.chip.slot k).insAt = some now)) ∧
      (s.Does (.slotVinEnterWindow k .feedA mv) fun t => t.chip.is F.SLT_STS.FEED_A_OK k = true ∧
        t.chip.is F.SLT_STS.FEED_A_ON k = (base && !s.chip.is F.SLT_CTRL.FEED_A_OFF k && !x.revA)) ∧
      (s.Does (.slotVinEnterWindow k .feedB mv) fun t => t.chip.is F.SLT_STS.FEED_B_OK k = true ∧
        t.chip.is F.SLT_STS.FEED_B_ON k = (base && !s.chip.is F.SLT_CTRL.FEED_B_OFF k && !x.revB))) ∧
    (∀ a, x.insAt = some a → st = slQualify → s.chip.slPresent k = true → x.vinOk = true → a + s.chip.slInsDelay k ≤ now →
      s.Does (.slotInsertionDelayExpire k) fun t => (held = false → t.chip.slSt k = slRamp ∧ (t.chip.slot k).rampAt = some now) ∧
        (held = true → t.chip.slSt k = slQualify ∧ (t.chip.slot k).ready = true)) ∧
    (st = slRamp → s.Does (.slotFullEnhancement k) fun t => t.chip.slSt k = slCheck ∧
      (t.chip.slot k).pgAt = (if s.chip.is F.SLT_STS.CLA k then none else some now) ∧ ∀ n i j, n ≠ .SLT_STS → t.chip.rd n i j = s.chip.rd n i j) ∧
    (∀ a, x.rampAt = some a → st = slRamp → a + s.chip.slRampTo k ≤ now → s.Does (.slotRampTimeout k) fun t =>
      t.chip.fld F.SLT_STS.CAUSE k = 4 ∧ (t.chip.slSt k = slRetry ∨ t.chip.slSt k = slLatched) ∧ t.chip.Raised chipCollector 14 clsP) ∧
    (∀ a, x.pgAt = some a → st = slCheck → a + 1000 * usT ≤ now →
      (s.Does (.slotPgQualified k false) fun t => t.chip.slSt k = slPowered ∧ t.chip.is F.SLT_STS.PG k = true ∧ (t.chip.slot k).powAt = some now) ∧
      (s.Does (.slotPgQualified k true) fun t => t.chip.slSt k = slCheck ∧ t.chip.is F.SLT_STS.PG_WITHHELD k = true ∧
        t.chip.is F.SLT_STS.PG k = s.chip.is F.SLT_STS.PG k ∧ t.chip.is F.SLT_STS.CLA k = true))

/-- Trips of a channel: the fault timer at its limit (cause 1), the fast trip (2), the temperature (3), VOUT lost (5) turn the gate off,
count, and wait for a retry while RETRY_MAX allows one, else latch; a diode fault latches and a pass fault stops the feeds without a
trip; each raises chip source bit 14 with its slot in FLT_SLOT_SRC. The retry after 1 s begins Ramp again, and 60 s of power clear the
retry count; a feed in reverse stops conducting; VIN_SNS out of range acts on every enabled channel (R337, R341, R342, R345, R347, R348,
R351, R403). The clauses beyond R403 rest on the model's readings too: log entries 59 and 60. -/
def Obligations.SlotsTripAndRetry : Prop :=
  ∀ (s : State), s.chip.AtRest →
    (∀ k, k < 32 →
      let x := s.chip.slot k
      let st := s.chip.slSt k
      let now := s.chip.time
      let held := s.chip.slotHold || x.hot
      let n := s.chip.fld F.SLT_STS.RETRIES k
      let told (t : State) : Prop := t.chip.Raised chipCollector 14 clsP ∧ bitAt (t.chip.rd .FLT_SLOT_SRC).toNat k = true
      let tripped (cause : Nat) (t : State) : Prop := t.chip.fld F.SLT_STS.CAUSE k = cause ∧ t.chip.is F.SLT_STS.PG k = false ∧
        t.chip.fld F.SLT_EVT.TRIPS k = min (s.chip.fld F.SLT_EVT.TRIPS k + 1) 65535 ∧ told t ∧
        (n < s.chip.fld F.SLT_CTRL.RETRY_MAX k → t.chip.slSt k = slRetry ∧ t.chip.fld F.SLT_STS.RETRIES k = n + 1 ∧
          (t.chip.slot k).tripAt = some now) ∧
        (s.chip.fld F.SLT_CTRL.RETRY_MAX k ≤ n → t.chip.slSt k = slLatched ∧ t.chip.fld F.SLT_STS.RETRIES k = n)
      let ramps (t : State) : Prop := t.chip.slSt k = slRamp ∧ (t.chip.slot k).rampAt = some now
      (s.chip.gateOn k = true →
        (∀ j, 0 < j → s.Does (.slotLimitAct k j) fun t => t.chip.is F.SLT_STS.CLA k = true ∧ (t.chip.slot k).ft = s.chip.ftNow k + j ∧
          t.chip.slSt k = st ∧ t.chip.fld F.SLT_EVT.LIMITS k =
            (if s.chip.ftNow k = 0 then min (s.chip.fld F.SLT_EVT.LIMITS k + 1) 65535 else s.chip.fld F.SLT_EVT.LIMITS k)) ∧
        (s.chip.is F.SLT_STS.CLA k = true → s.chip.slFtimer k ≤ s.chip.ftNow k → s.Does (.slotFaultTimerExpire k) (tripped 1)) ∧
        s.Does (.slotFastTrip k) (tripped 2) ∧
        (s.chip.slTemp k = true →
          (s.chip.slOn k = true → s.Does (.slotTempTrip k) fun t => tripped 3 t ∧ (t.chip.slot k).hot = true) ∧
          (s.chip.fld F.SLT_CFG.TMODE k % 2 = 1 → s.Does (.slotDiodeFault k) fun t => t.chip.slSt k = slLatched ∧
            t.chip.fld F.SLT_STS.CAUSE k = 6 ∧ t.chip.is F.SLT_STS.PG k = false ∧ told t ∧
            t.chip.fld F.SLT_EVT.TRIPS k = s.chip.fld F.SLT_EVT.TRIPS k ∧ t.chip.fld F.SLT_STS.RETRIES k = n))) ∧
      (s.chip.is F.SLT_STS.CLA k = true → s.chip.ftNow k = 0 → s.Does (.slotFaultTimerZero k) fun t => t.chip.is F.SLT_STS.CLA k = false ∧
        t.chip.slSt k = st ∧ (t.chip.slot k).ft = 0 ∧ (st = slCheck → (t.chip.slot k).pgAt = some now)) ∧
      (s.chip.is F.SLT_STS.CLA k = false → (st = slPowered → s.Does (.slotVoutLost k) (tripped 5)) ∧
        (st = slCheck → s.Does (.slotVoutLost k) fun t => t.chip.slSt k = slCheck ∧ (t.chip.slot k).pgAt = some now)) ∧
      (s.Does (.slotTempBelowTjmax k) fun t => (t.chip.slot k).hot = false ∧
        (x.ready = true → st = slQualify ∨ st = slRetry → x.vinOk = true → s.chip.slPresent k = true → s.chip.slotHold = false → ramps t) ∧
        (x.ready = false → t.chip.slSt k = st)) ∧
      (∀ a, x.tripAt = some a → st = slRetry → a + secT ≤ now → s.Does (.slotRetryExpire k) fun t =>
        (x.vinOk = true → s.chip.vinSnsBad = false → held = false → ramps t) ∧
        (x.vinOk = true → s.chip.vinSnsBad = false → held = true → t.chip.slSt k = slRetry ∧ (t.chip.slot k).ready = true) ∧
        (x.vinOk = false ∨ s.chip.vinSnsBad = true → t.chip.slSt k = slQualify)) ∧
      (∀ a, x.powAt = some a → st = slPowered → a + 60 * secT ≤ now →
        exec (.slotPowered60s k) s = .next (s.withChip (s.fresh.set F.SLT_STS.RETRIES 0 k))) ∧
      (st ≠ slDisabled → st ≠ slPass → s.chip.gateOn k = false → s.Does (.slotPassFault k) fun t => t.chip.slSt k = slPass ∧
        t.chip.fld F.SLT_STS.CAUSE k = 7 ∧ t.chip.is F.SLT_STS.FEED_A_ON k = false ∧ t.chip.is F.SLT_STS.FEED_B_ON k = false ∧ told t) ∧
      (∀ b r, s.chip.slOn k = true → s.Does (.slotFeedReverse k b r) fun t =>
        (b = false → (t.chip.slot k).revA = r ∧ (r = true → t.chip.is F.SLT_STS.FEED_A_ON k = false)) ∧
        (b = true → (t.chip.slot k).revB = r ∧ (r = true → t.chip.is F.SLT_STS.FEED_B_ON k = false)) ∧ t.chip.slSt k = st)) ∧
    (∀ mv, mv < 8500 ∨ 14500 < mv → s.chip.vinSnsBad = false → s.Does (.vinSnsOutOfRange mv) fun t => t.chip.vinSnsBad = true ∧
      (∀ n ∈ recRegs, ∀ c, t.chip.rd n c = s.chip.rd n c) ∧
      ∀ k, k < 32 → s.chip.slOn k = true → t.chip.is F.SLT_STS.FEED_A_ON k = false ∧ t.chip.is F.SLT_STS.FEED_B_ON k = false ∧
        t.chip.fld F.SLT_EVT.TRIPS k = s.chip.fld F.SLT_EVT.TRIPS k ∧
        (s.chip.gateOn k = true → t.chip.slSt k = slQualify ∧ t.chip.fld F.SLT_STS.CAUSE k = 9 ∧ t.chip.is F.SLT_STS.PG k = false) ∧
        (s.chip.slSt k = slQualify → t.chip.slSt k = slQualify ∧ (t.chip.slot k).insAt = none)) ∧
    (∀ mv, 9000 ≤ mv → mv ≤ 14000 → s.chip.vinSnsBad = true → s.Does (.vinSnsRecover mv) fun t => t.chip.vinSnsBad = false ∧
      (∀ n ∈ recRegs, ∀ c, t.chip.rd n c = s.chip.rd n c) ∧
      ∀ k, k < 32 → s.chip.slOn k = true → s.chip.slSt k = slQualify → s.chip.slPresent k = true → (s.chip.slot k).vinOk = true →
        t.chip.slSt k = slQualify ∧ (t.chip.slot k).insAt = some s.chip.time)

/-! ## Counters, sampling, histograms, the debug port -/

/-- Counters wrap past 2^48 - 1 and keep a sticky bit; a read gives the low word and latches the high one for its initiator; a sampling unit
takes its counter as base, fires at its period and notes the program counter of its interrupt; an edge set is committed where its edges
ascend and its bins restart at 0; a changed selection zeroes its bins; the JTAG instructions that take the boundary cells cost the
partners their links at the end, and the debug port reads and writes under the MPU while it is open (R354 to R364, R377 to R379, R386,
Tables 7.6 and 19.7). Where it reads or fixes more than the spec says, the choice is the model's: log entries 77, 78, 86 and 93. -/
def Obligations.CountersAndDebugPortAct : Prop :=
  ∀ (s : State), s.chip.AtRest →
    (∀ n k, n < 4096 →
      (counterUsed n = false → exec (.counterWrap n k) s = .next (s.withChip s.fresh)) ∧
      (counterUsed n = true → s.chip.badWords = [] → s.Does (.counterWrap n k) fun t => s.chip.Counted t.chip n k ∧
        (∀ m, m ≠ n → t.chip.counter m = s.chip.counter m) ∧ s.chip.Apart [] t.chip ∧
        (s.chip.counter n + k < 2 ^ 48 → ∀ i, t.chip.rd .CNT_OVF i = s.chip.rd .CNT_OVF i) ∧
        (2 ^ 48 ≤ s.chip.counter n + k → bitAt (t.chip.rd .CNT_OVF (n / 32)).toNat (n % 32) = true))) ∧
    (∀ ini n, ini < 256 → n < 4096 → s.chip.badWords = [] → exec (.counterRead ini n) s = .next (s.withChip
      ((s.fresh.setLatch ini (latCnt n) [s.chip.counter n / 2 ^ 32]).value ini (s.chip.counter n % 2 ^ 32)))) ∧
    (∀ u, u < 4 →
      let m := (s.chip.samp.get (0, 0) u).1
      let base := (s.chip.samp.get (0, 0) u).2
      let p := s.chip.sampPeriod u
      (∀ v : W, s.Does (.samplingArm u v) fun t => t.chip.is F.CNT_SAMP_CFG.EN u = true ∧
        t.chip.samp.get (0, 0) u = (v.toNat % 2 ^ 12, s.chip.counter (v.toNat % 2 ^ 12)) ∧ s.chip.Apart [.CNT_SAMP_CFG] t.chip) ∧
      (s.chip.is F.CNT_SAMP_CFG.EN u = true → p ≤ (s.chip.counter m + 2 ^ 48 - base) % 2 ^ 48 → s.Does (.samplingPeriodReached u) fun t =>
        t.chip.samp.get (0, 0) u = (m, (base + p) % 2 ^ 48) ∧ t.chip.is F.CNT_SAMP_STS.FIRED u = true ∧ s.chip.Apart [.CNT_SAMP_STS] t.chip ∧
        (s.chip.is F.CNT_SAMP_STS.FIRED u = false → u ∈ t.chip.sampIrq ∧ t.chip.outbox = [.irq (2 + u)]) ∧
        (s.chip.is F.CNT_SAMP_STS.FIRED u = true → t.chip.sampIrq = s.chip.sampIrq ∧
          t.chip.fld F.CNT_SAMP_STS.MISSED u = min (s.chip.fld F.CNT_SAMP_STS.MISSED u + 1) 65535)) ∧
      (∀ pc, u ∈ s.chip.sampIrq → s.chip.badWords = [] → s.Does (.samplingInterruptTaken u pc) fun t => t.chip.rd .CNT_SAMP_PC u = w32 pc ∧
        u ∉ t.chip.sampIrq ∧ s.chip.Counted t.chip (cntCpx 3) 1 ∧ s.chip.Apart [.CNT_SAMP_PC] t.chip)) ∧
    (∀ v : W,
      let k := bitsOf v.toNat 24 2
      let l := (List.range 31).map (fun j => (s.chip.rd .CNT_EDGE k j).toNat)
      let bin (c : Chip) (i b : Nat) : Nat := c.hist.get 0 (32 * i + b)
      (ascending l = true → s.Does (.histEdgeCommit v) fun t => t.chip.edgeSet k = l ∧ s.chip.Apart [.CNT_HIST_CTRL] t.chip ∧
        ∀ i b, i < 156 → b < 32 → bin t.chip i b = if s.chip.histSel i = k then 0 else bin s.chip i b) ∧
      (ascending l = false → s.Does (.histEdgeCommit v) fun t => t.chip.is F.CNT_HIST_CTRL.REFUSED = true ∧ t.chip.edges = s.chip.edges ∧
        t.chip.hist = s.chip.hist ∧ s.chip.Apart [.CNT_HIST_CTRL] t.chip) ∧
      (s.Does (.histFreeze v) fun t => t.chip.is F.CNT_HIST_CTRL.FREEZE = true ∧ t.chip.fld F.CNT_HIST_CTRL.MISSED = 0 ∧
        t.chip.edges = s.chip.edges ∧ t.chip.hist = s.chip.hist ∧ s.chip.Apart [.CNT_HIST_CTRL] t.chip) ∧
      (∀ w, w < 10 → s.Does (.histSelWrite w v) fun t => t.chip.rd .CNT_HIST_SEL w = w32 (if w = 9 then v.toNat % 2 ^ 24 else v.toNat) ∧
        s.chip.Apart [.CNT_HIST_SEL] t.chip ∧
        ∀ i b, i < 156 → b < 32 → bin t.chip i b = if t.chip.histSel i = s.chip.histSel i then bin s.chip i b else 0) ∧
      (∀ ini i b, ini < 256 → i < 156 → b < 32 → s.chip.badWords = [] → exec (.histRead ini i b) s = .next (s.withChip
        ((s.fresh.setLatch ini (latBin i b) [bin s.chip i b / 2 ^ 32]).value ini (bin s.chip i b % 2 ^ 32))))) ∧
    (∀ i, (scans i = true → s.chip.scanLinks = [] → exec (.jtagInstructionLoad i) s = .next (s.withChip
        { s.fresh with jtag := i, scanLinks := (List.range numCells).filter (fun p => (s.chip.port p).up) })) ∧
      (scans i = false → s.Does (.jtagInstructionLoad i) fun t => t.chip.jtag = i ∧ t.chip.scanLinks = [] ∧
        (∀ p ∈ s.chip.scanLinks, isIdle (s.chip.ltssm p) = false → (t.chip.port p).up = false) ∧ (i = .idcode → .jtag idcode false ∈ t.chip.outbox))) ∧
    (∀ a, a < 2 ^ 40 →
      let c := s.fresh.masPackets a
      (∀ v, s.chip.jtag ≠ .debug ∨ s.chip.lc = 2 → exec (.jtagDebugAccess a v) s = .next (s.withChip s.fresh)) ∧
      (s.chip.jtag = .debug → s.chip.lc ≠ 2 →
        (∀ v : Option W, a % 4 ≠ 0 → s.chip.masAllows debugMaster (if v.isSome then 1 else 0) a 4 = true →
          exec (.jtagDebugAccess a v) s = .next (s.withChip (s.fresh.out (.jtag 0 true)))) ∧
        (∀ g inst, s.chip.Reaches a g inst → g.name.latches = false →
          (s.chip.masAllows debugMaster 0 a 4 = true → exec (.jtagDebugAccess a none) s = .next (s.withChip
            (c.out (.jtag (c.view s.view 155 g % 2 ^ 32) false)))) ∧
          (∀ v : W, s.chip.masAllows debugMaster 1 a 4 = true → g.name.ordinary = true → exec (.jtagDebugAccess a (some v)) s = .next (s.withChip
            ((c.wr g.name g.i g.j (w32 (accessWrite g.name false (c.rd g.name g.i g.j).toNat v.toNat))).out (.jtag 0 false)))))))

/-! ## The address map -/

/-- Every register of every instance of its block has one address, at which the map finds it, and the map finds a register at no other
address (R380, R381, Tables 20.1 to 20.3). -/
def Obligations.RegistersHaveOneAddress : Prop :=
  (∀ (n : RName) (k i j : Nat), k ∈ n.place.block.instances → i < n.place.ci → j < n.place.cj →
    ∃ inst, masAt (n.address k i j) = .reg ⟨n, k * n.place.mult + i, j⟩ inst) ∧
  ∀ (a : Nat) (g : Reg) (inst : Nat), masAt a = .reg g inst → ∃ k i, k ∈ g.name.place.block.instances ∧ i < g.name.place.ci ∧
    g.j < g.name.place.cj ∧ g.i = k * g.name.place.mult + i ∧ a = g.name.address k i g.j
end

