-- ==== Sys2Proof/Laws/Flash.lean ====
section
/-! SUPPORT. The word code of the image's flash pages (R253): a word written with its own code reads good, and a page of such words
reads as its data, with nothing corrected. -/

namespace Sys2Proof.Machine

/-- A word checked against its own code is good. -/
theorem checkWord_self (d : List Byte) (a : Nat) : checkWord d a (wordCode d a) = .good := by
  simp [checkWord]

theorem codeColumns_lt : ∀ x ∈ codeColumns, x < 2 ^ 16 := by decide +kernel

theorem foldl_xor_lt (l : List (Bool × Nat)) (h : ∀ p ∈ l, p.2 < 2 ^ 16) (x : Nat) (hx : x < 2 ^ 16) :
    l.foldl (fun x p => if p.1 then x ^^^ p.2 else x) x < 2 ^ 16 := by
  induction l generalizing x with
  | nil => exact hx
  | cons p l ih =>
    refine ih (fun q hq => h q (List.mem_cons_of_mem _ hq)) _ ?_
    show (if p.1 = true then x ^^^ p.2 else x) < 2 ^ 16
    split
    · exact Nat.xor_lt_two_pow hx (h p List.mem_cons_self)
    · exact hx

/-- The code of a word has 16 bits. -/
theorem wordCode_lt (d : List Byte) (a : Nat) : wordCode d a < 2 ^ 16 :=
  foldl_xor_lt _ (fun _ hp => codeColumns_lt _ (List.of_mem_zip hp).2) 0 (by decide)

/-- Word `w` of a page's data, and the bytes it is written as: 16 bytes and its code. -/
def pageWord (d : List Byte) (w : Nat) : List Byte := (d.drop (16 * w)).take 16
def wordBytes (n : Nat) (d : List Byte) (w : Nat) : List Byte :=
  pageWord d w ++ [BitVec.ofNat 8 (wordCode (pageWord d w) (224 * n + w) / 256), BitVec.ofNat 8 (wordCode (pageWord d w) (224 * n + w))]

/-- A flash page as R253 writes it: 224 words of data, each with its code, then the tail. -/
def writePage (n : Nat) (d tail : List Byte) : List Byte := (List.range 224).flatMap (wordBytes n d) ++ tail

theorem drop_flatMap_const {α β : Type} (f : α → List β) (m : Nat) (l : List α) (h : ∀ x ∈ l, (f x).length = m) (w : Nat) :
    (l.flatMap f).drop (m * w) = (l.drop w).flatMap f := by
  induction l generalizing w with
  | nil => simp
  | cons a l ih =>
    cases w with
    | zero => simp
    | succ w =>
      have ha := h a List.mem_cons_self
      rw [List.flatMap_cons, List.drop_succ_cons, ← ih (fun x hx => h x (List.mem_cons_of_mem _ hx)) w, List.drop_append,
        List.drop_eq_nil_of_le (by rw [ha]; exact Nat.le_mul_of_pos_right _ (Nat.succ_pos _)), ha, Nat.mul_succ, Nat.add_sub_cancel,
        List.nil_append]

theorem length_flatMap_const {α β : Type} (f : α → List β) (m : Nat) (l : List α) (h : ∀ x ∈ l, (f x).length = m) :
    (l.flatMap f).length = m * l.length := by
  induction l with
  | nil => simp
  | cons a l ih =>
    rw [List.flatMap_cons, List.length_append, ih (fun x hx => h x (List.mem_cons_of_mem _ hx)), h a List.mem_cons_self, List.length_cons,
      Nat.mul_succ, Nat.add_comm]

/-- Where a word stands in its page. -/
theorem drop_writePage (n : Nat) (d tail : List Byte) (hd : d.length = 3584) {w : Nat} (hw : w < 224) :
    ∃ rest, (writePage n d tail).drop (18 * w) = wordBytes n d w ++ rest := by
  have hl : ∀ x ∈ List.range 224, (wordBytes n d x).length = 18 := by
    intro x hx
    have := List.mem_range.1 hx
    simp [wordBytes, pageWord, hd]; omega
  refine ⟨((List.range 224).drop (w + 1)).flatMap (wordBytes n d) ++ tail, ?_⟩
  have hlen : ((List.range 224).flatMap (wordBytes n d)).length = 18 * 224 := by
    rw [length_flatMap_const _ 18 _ hl, List.length_range]
  rw [writePage, List.drop_append_of_le_length (by omega), drop_flatMap_const _ 18 _ hl, List.drop_eq_getElem_cons (by simpa using hw),
    List.flatMap_cons, List.getElem_range, List.append_assoc]

theorem length_writePage (n : Nat) (d tail : List Byte) (hd : d.length = 3584) : (writePage n d tail).length = 4032 + tail.length := by
  have hl : ∀ x ∈ List.range 224, (wordBytes n d x).length = 18 := by
    intro x hx
    have := List.mem_range.1 hx
    simp [wordBytes, pageWord, hd]; omega
  rw [writePage, List.length_append, length_flatMap_const _ 18 _ hl, List.length_range]

theorem beNat_two (c : Nat) (h : c < 2 ^ 16) : beNat [BitVec.ofNat 8 (c / 256), BitVec.ofNat 8 c] = c := by
  simp [beNat]; omega

/-- A page written so reads as its data, with no word corrected and none failed (R253, R255). -/
theorem checkPage_writePage (n : Nat) (d tail : List Byte) (hd : d.length = 3584) : checkPage n (writePage n d tail) = { data := d } := by
  have key : ∀ k, k ≤ 224 → (List.range k).foldl (fun (r : PageCheck) w =>
      let x := ((writePage n d tail).drop (18 * w)).take 16
      match checkWord x (224 * n + w) (beAt (writePage n d tail) (18 * w + 16) 2) with
      | .good => { r with data := r.data ++ x }
      | .corrected i => { r with data := r.data ++ flipBit x i, fixed := r.fixed + 1 }
      | .failed => { r with data := r.data ++ x, failed := true }) {} = { data := d.take (16 * k) } := by
    intro k hk
    induction k with
    | zero => rfl
    | succ k ih =>
      obtain ⟨rest, hr⟩ := drop_writePage n d tail hd (w := k) (by omega)
      have hp : (pageWord d k).length = 16 := by simp [pageWord, hd]; omega
      have h1 : ((writePage n d tail).drop (18 * k)).take 16 = pageWord d k := by
        rw [hr, wordBytes, List.append_assoc, List.take_append_of_le_length (by omega), List.take_of_length_le (by omega)]
      have h2 : beAt (writePage n d tail) (18 * k + 16) 2 = wordCode (pageWord d k) (224 * n + k) := by
        rw [beAt, ← List.drop_drop, hr, wordBytes, List.append_assoc, List.drop_append_of_le_length (by omega),
          List.drop_of_length_le (by omega)]
        exact beNat_two _ (wordCode_lt _ _)
      rw [List.range_succ, List.foldl_append, ih (by omega)]
      simp only [List.foldl_cons, List.foldl_nil, h1, h2, checkWord_self, Nat.mul_succ, List.take_add, pageWord]
  have := key 224 (Nat.le_refl _)
  rw [List.take_of_length_le (by omega)] at this
  exact this

/-- Such a page is accepted at once, with its data and its version (R255), where the version is the expected one. -/
theorem readPage_writePage (n v : Nat) (d tail : List Byte) (hd : d.length = 3584) (hv : (tail.getD 63 0).toNat = v) (expected : Option Nat)
    (he : expected = none ∨ expected = some v) : readPage n (writePage n d tail) expected = { data := d, version := v } := by
  have hl : ∀ x ∈ List.range 224, (wordBytes n d x).length = 18 := by
    intro x hx
    have := List.mem_range.1 hx
    simp [wordBytes, pageWord, hd]; omega
  have hg : ((writePage n d tail).getD 4095 0).toNat = v := by
    rw [writePage, List.getD_append_right _ _ _ _ (by rw [length_flatMap_const _ 18 _ hl, List.length_range]; omega),
      length_flatMap_const _ 18 _ hl, List.length_range]
    exact hv
  rcases he with rfl | rfl <;> unfold readPage <;> simp only [checkPage_writePage n d tail hd, hg] <;> simp

/-- The header page of a slot, where it is a page written so. -/
theorem readHeader_writePage (s : Chip) (slot v : Nat) (d tail : List Byte) (hd : d.length = 3584) (hv : (tail.getD 63 0).toNat = v)
    (hp : s.page (areaBase slot) = writePage (areaBase slot) d tail) :
    s.readHeader slot = ({ data := d, version := v }, parseHeader d v (s.fld F.CHP_ID.MAX_LEVEL)) := by
  simp [Chip.readHeader, hp, readPage_writePage _ v d tail hd hv none (.inl rfl)]

/-- Pages written so are read in turn. -/
theorem readPages_writePage (s : Chip) (base v : Nat) (tail : List Byte) (hv : (tail.getD 63 0).toNat = v) (f : Nat → List Byte)
    (l : List Nat) (h : ∀ n ∈ l, (f n).length = 3584 ∧ s.page (base + n) = writePage (base + n) (f n) tail) :
    s.readPages base v l = (l.map f, 0, 0, 0) := by
  induction l with
  | nil => rfl
  | cons n l ih =>
    obtain ⟨hn, hp⟩ := h n List.mem_cons_self
    simp [Chip.readPages, hp, readPage_writePage _ v _ tail hn hv (some v) (.inr rfl), ih (fun m hm => h m (List.mem_cons_of_mem _ hm)), b2n]

/-- A page reads as it was stored; other pages read as before. -/
@[simp] theorem Chip.page_setPage_self (s : Chip) (n : Nat) (p : List Byte) : (s.setPage n p).page n = p := Tab.get_set_self _ _ _ _
theorem Chip.page_setPage_ne (s : Chip) {n m : Nat} (p : List Byte) (h : n ≠ m) : (s.setPage n p).page m = s.page m :=
  Tab.get_set_ne _ _ _ h

end Sys2Proof.Machine
end

