-- ==== Sys2Proof/Laws/Memory.lean ====
section
/-! SUPPORT. The addressed memories, management SRAM and the Ethernet DMA buffers: a byte written is the byte read, no other byte changes,
and every operation keeps the canonical form. -/

namespace Sys2Proof.Machine

/-- Both memories of the chip are in canonical form. -/
abbrev Chip.MemWf (c : Chip) : Prop := Memory.wf c.sram = true ∧ Memory.wf c.dmaRam = true

theorem memWf_reset : State.reset.chip.MemWf := ⟨rfl, rfl⟩

theorem Memory.wf_put {m : List Host.Cell} (h : Memory.wf m = true) (a : Nat) (v : Byte) : Memory.wf (tput natLt (0 : Byte) m a v) = true :=
  Tab.set_wf (0 : Byte) m a v h

/-! ## One byte -/

@[simp] theorem Chip.bufByte_setBufByte_self (c : Chip) (dma : Bool) (a : Nat) (v : Byte) : (c.setBufByte dma a v).bufByte dma a = v := by
  cases dma
  · exact c.ramByte_setRamByte_self a v
  · exact tget_tput_self natLt 0 c.dmaRam a v

theorem Chip.bufByte_setBufByte_ne (c : Chip) {dma dma' : Bool} {a b : Nat} (v : Byte) (h : dma ≠ dma' ∨ a ≠ b) :
    (c.setBufByte dma a v).bufByte dma' b = c.bufByte dma' b := by
  cases dma <;> cases dma'
  · exact c.ramByte_setRamByte_ne v (h.resolve_left (fun x => x rfl))
  · rfl
  · rfl
  · exact tget_tput_ne natLt 0 0 c.dmaRam v (h.resolve_left (fun x => x rfl))

/-! ## The canonical form -/

theorem Chip.setRamByte_memWf {c : Chip} (h : c.MemWf) (a : Nat) (v : Byte) : (c.setRamByte a v).MemWf := ⟨Memory.wf_put h.1 a v, h.2⟩

theorem Chip.setBufByte_memWf {c : Chip} (h : c.MemWf) (dma : Bool) (a : Nat) (v : Byte) : (c.setBufByte dma a v).MemWf := by
  cases dma
  · exact Chip.setRamByte_memWf h a v
  · exact ⟨h.1, Memory.wf_put h.2 a v⟩

theorem Chip.setRamBytes_memWf {c : Chip} (h : c.MemWf) (a : Nat) (l : List Byte) : (c.setRamBytes a l).MemWf := by
  induction l generalizing c a with
  | nil => exact h
  | cons b l ih => exact ih (Chip.setRamByte_memWf h a b) (a + 1)

theorem Chip.setBuf_memWf {c : Chip} (h : c.MemWf) (dma : Bool) (a : Nat) (l : List (Option Byte)) : (c.setBuf dma a l).MemWf := by
  induction l generalizing c a with
  | nil => exact h
  | cons b l ih =>
    cases b with
    | none => exact ih h (a + 1)
    | some v => exact ih (Chip.setBufByte_memWf h dma a v) (a + 1)

end Sys2Proof.Machine
end

