-- ==== Sys2Proof/Tests/Slice0.lean ====
section
/-! SUPPORT. Tests: ill-formed commands that the check refuses, small commands with the values of the spec, and states that meet the
hypotheses of the statements. -/

open Sys2Proof Sys2Proof.Machine

namespace Sys2Proof.Tests

-- One theorem at a time: a thread for each evaluation below would need more memory than a build has.
set_option Elab.async false

/-! ## States the tests start from -/

/-- A started chip: image loaded, both Ethernet links up, the protection unit off. -/
def chip0 : Chip :=
  { ((((({} : Chip).set F.IMG_STS.STATE 1).set F.ETH_PORT_STS.LINK_UP 1 0).set F.ETH_PORT_STS.LINK_UP 1 1).set F.MPU_CFG.EN 0) with
    time := 16000000000000, started := true, boot := 2 }
def sess1 : Sess := { num := 1, uid := 1, eth := 0, mac := 5, ip := 7, udp := 100, ipv6 := true, major := 1, keepalive := 1000, heard := 0, expect := 10, started := 3 }
def st (c : Chip) : State := { chip := c, kmp := { sess := [sess1], nextUid := 2 } }
def req (ws : List W) : KmpReq := { ip := 7, udp := 100, mac := 5, seq := 10, session := 1, words := ws }
/-- Virtual switches 3 and 4 with two bridges each at ports 16 and 32, devices at ports 20 and 36; bridge 0 of switch 3 bound to port 20. -/
def chipV : Chip :=
  let f (n p : Nat) (c : Chip) : Chip := ((c.set F.VCS_INST_CFG.EN 1 n).set F.VCS_INST_CFG.USP p n).set F.VCS_INST_CFG.VPPB_COUNT 2 n
  let g (p r : Nat) (c : Chip) : Chip := ((c.set F.CEL_PORT_CFG.ROLE r p).set F.VCS_PORT_ADM.STATE admReady p).modPort p (fun x => { x with up := true, lds := some 1 })
  let c := g 36 2 (g 20 2 (g 32 1 (g 16 1 (f 4 32 (f 3 16 chip0)))))
  ((c.wr .VCS_VPPB_BIND 3 0 (w32 (2 ^ 30 + 20))).set F.VCS_VPPB_STS.STATE 2 3 0).modVppb 3 0 (fun x => { x with reach := true })
/-- A grove 1 of members 3 and 4 with one grove window of 256 MiB at grove address 0 on port 36. -/
def chipG : Chip :=
  let c := ((chipV.setMembers 1 0x18).set F.GRV_STS.STATE gStanding 1).setJoined 1 0x18
  let c := ((c.set F.GRV_WIN_CFG.EN 1 16).wr .GRV_WIN_SIZE 16 0 1).wr .GRV_WIN_TGT_A 16 0 (w32 (2 ^ 30 + 36))
  c

/-! ## Helpers of the proofs below -/

theorem all_one {α : Type} {l : List α} {b : α} {p : α → Prop} (h : l = [b]) (hb : p b) : ∀ a ∈ l, p a := by
  subst h; simpa using hb

theorem reaches_of {c : Chip} {a : Nat} {g : Reg} {i : Nat} (h : a % 4 = 0) (hm : masAt a = .reg g i)
    (hd : (masDomain g i).all (fun x => c.domOn x.1 && (domBnd x.1).all (fun b => decide (c.fld F.NOC_BND_STS.STATE b.1 b.2 = 0))) = true) :
    c.Reaches a g i :=
  ⟨h, hm, fun d w e => by
    rw [e] at hd
    obtain ⟨on, bnd⟩ := (Bool.and_eq_true _ _).mp hd
    exact ⟨on, fun n k b => by rw [b] at bnd; exact of_decide_eq_true bnd⟩⟩

theorem bnd_all {o : Option (Nat × Nat)} {p : Nat → Nat → Prop} (h : ∀ x ∈ o, p x.1 x.2) : ∀ n k, o = some (n, k) → p n k :=
  fun n k e => h (n, k) e

/-! ## Well-formed and ill-formed commands -/

/-- An ill-formed command for each check of Instr.wf. -/
def illFormed1 : List Instr :=
  [.startUp { pages := [(32768, List.replicate 4096 0)] }, .startUp { pages := [(0, [0])] }, .waveBegin 8, .hello { eth := 2 },
   .bye { eth := 2 }, .echo { eth := 2 }, .relayClaim { eth := 2 }, .regRead { eth := 2 }, .regWrite { eth := 2 },
   .regRmw { eth := 2 }, .bulkRead { eth := 2 }, .bulkWrite { eth := 2 }, .counterSweep { eth := 2 }, .bindVppb { eth := 2 },
   .unbindDrain { eth := 2 }, .unbindSquash { eth := 2 }, .portRemove { eth := 2 }, .portAdmit { eth := 2 }, .instAttach { eth := 2 },
   .windowSet { eth := 2 }, .groveCreate { eth := 2 }, .groveMemberAdd { eth := 2 }, .groveMemberRemove { eth := 2 },
   .groveDissolve { eth := 2 }, .fabricAtomic { eth := 2 }, .graftCreate { eth := 2 }, .graftAbort { eth := 2 },
   .graftReleaseChecked { eth := 2 }, .graftReleaseForced { eth := 2 }, .graftSettle { eth := 2 }, .mailboxReply { eth := 2 },
   .fmapiTunnel { eth := 2 }, .powerQuery { eth := 2 }, .powerOff { eth := 2 }, .powerOn { eth := 2 }, .enterDormant { eth := 2 },
   .setOperatingPoint { eth := 2 }, .faultClear { eth := 2 }, .faultResumeRestart { eth := 2 }, .faultResumeWarm { eth := 2 }]
def illFormed2 : List Instr :=
  [.chipReset { eth := 2 }, .selfTestMemory { eth := 2 }, .selfTestFullBist { eth := 2 }, .selfTestLogicBist { eth := 2 },
   .selfTestLane { eth := 2 }, .selfTestSlotConverter { eth := 2 }, .selfTestDroop { eth := 2 }, .selfTestTemperature { eth := 2 },
   .testSectionTimeout 9 0 0, .testSectionTimeout 0 6 0, .testSectionTimeout 0 0 8192, .testSectionRetry 9 0 0,
   .testSectionRetry 0 6 0, .testSectionRetry 0 0 8192, .selfTestEnd (2 ^ 128) [] [], .imageErase { eth := 2 },
   .imageWrite { eth := 2 }, .imageRead { eth := 2 }, .imageVerify { eth := 2 }, .lcState { eth := 2 },
   .lcReturnChallenge { eth := 2 }, .lcReturnToken { eth := 2 }, .lcAdvance { eth := 2 }, .eventAck { eth := 2 } 0,
   .eventAck {} 65536, .eventRetry 0 0, .eventRetry 9 0, .sessionKeepaliveExpire 0, .sessionKeepaliveExpire 9, .sequenceGapExpire 0,
   .sequenceGapExpire 9, .kmpDatagramDiscard 2, .ethFrameReceive 2 {}, .arpRequest 2 0, .neighbourSolicitation 2 0,
   .icmpEchoRequest 2 false 0 [], .mkaFrame 2 {}, .sakRekey 2 0, .ethLinkUp 2 0 0, .ethLinkUp 0 8 0]
def illFormed3 : List Instr :=
  [.ethLinkUp 0 0 4, .ethLinkDown 2, .celPortCfgWrite 128 0, .partnerDetected 128, .receiverDetectRepeat 128,
   .trainingStepComplete 128 {}, .trainingStepFail 128, .linkUp 128 0 [] [], .linkUp 0 17 [] [], .linkFlitReceive 128 0 .good,
   .linkFlitReceive 0 16 .good, .messageTailCrcFail 128 0, .reEqualization 128, .linkProtocolViolation 128, .perstNAssert 128 0,
   .perstNRelease 128, .upstreamHotReset 128, .dpcTrigger 128, .partnerLaneMargining 128 0 false 0, .partnerLaneMargining 0 4 false 0,
   .marginScanStart 128 0 0, .marginScanStart 0 4 0, .marginScanDone 128 0 0, .marginScanDone 0 4 0, .testEnable 128 0,
   .testDisable 128 0, .loopModeSet 128 0, .remoteLoopbackTimeout 128, .prbsClear 128 0 0, .prbsClear 0 4 0, .prbsCheckerLock 128 0,
   .prbsCheckerLock 0 4, .prbsCheckerUnlock 128 0 0 0, .prbsCheckerUnlock 0 4 0 0, .ingressMessageArrival 128 { kind := .memRd },
   .ingressMessageArrival 0 { kind := .memRd, vb := 256 }, .ingressMessageArrival 0 { kind := .memRd, data := List.replicate 4097 0 },
   .contractBucketRefill 128, .contractEnable 128, .committedWaitTimeout 128]
def illFormed4 : List Instr :=
  [.ingressToEgressMove 0 5, .meshPacketArrive 0 4 0, .meshPacketArrive 0 0 4, .egressQueueReopen 128 0, .egressQueueReopen 0 12,
   .queueStateBroadcast 8, .egressTransmit 128, .linkCreditReturn 128 0 0 0, .linkCreditReturn 0 12 0 0, .portDown 128 .detect,
   .flushDone 128, .instCfgWrite 64 0, .secondaryBusResetSet 64 0, .secondaryBusResetSet 0 64, .secondaryBusResetClear 64 0,
   .secondaryBusResetClear 0 64, .drainDone 64 0, .drainDone 0 64, .drainTimeout 64 0, .drainTimeout 0 64, .squashDone 64 0,
   .squashDone 0 64, .downLimitExpire 128, .loopCheckDone 128 [], .loopCheckTimeout 128, .mailboxDoorbell 64 0 [],
   .mailboxRelayTimeout 64, .windowCommit 8 0, .mpuAttrWrite 256 0 0, .mpuAttrWrite 0 32 0, .mpuBaseWrite 256 0 0,
   .mpuBaseWrite 0 32 0, .registerWrite 156 0 0 4 0, .registerWrite 135 0 0 4 0, .registerWrite 154 3 0 4 0,
   .registerWrite 154 0 (2 ^ 40) 4 0, .homeRequest 0 (.sfStuck 16), .agentAtomic 0 (.sfUncorrectable 16), .snfProbeStart 0 0 (.sfStuck 16), .birspTimeout 0 64,
   .groveFellingComplete 32, .deviceViral 128, .groveTargetsUp 32, .removalWalkDone 32]
def illFormed5 : List Instr :=
  [.snfProbeStart 8 0 .clean, .ertProbeStart 8 0, .graftArmedDrained 16, .chunkReadIssue 16 0, .graftCopyDone 16, .graftSwitch 16,
   .graftXferTimeout 16, .graftFlipTimeout 16, .channelHaltClear 16, .boundaryPacketArrive 0 4, .domainEntryAnswer 182,
   .regionDrained 8, .domainReady 9 0 [], .domainReady 0 8 [], .epochMarkerArrive 9 0 0 0 0, .epochMarkerArrive 0 9 0 0 0,
   .epochMarkerArrive 0 0 4 0 0, .epochMarkerArrive 0 0 0 4 0, .epochMarkerArrive 0 0 0 0 2, .routeTableWrite 9 0 0,
   .routeTableWrite 0 8 0, .faultRecordPropagate 169, .fltRecClear 169, .supplyOutOfWindow 7, .droopWarning 8 0,
   .droopRelease 8, .droopReset 8 0, .refclkLoss 3, .timeBaseRead 256, .sramNarrowWrite false (2 ^ 22) [],
   .sramNarrowWrite false 0 (List.replicate 9 0), .mergeBufferFlush false 524288 false, .scrubStart 9 0 0, .scrubStart 0 6 0,
   .scrubWord 9 0 0 0 0, .scrubWord 0 6 0 0 0, .scrubWord 0 0 4 0 0, .scrubEnd 9 0]
def illFormed6 : List Instr :=
  [.scrubEnd 0 6, .slotEnable 32 0, .slotDisable 32 0, .slotLimitWrite 32 0, .slotCfgWrite 32 false 0, .slotPresenceAsserted 32,
   .slotPresenceLost 32, .slotVinLeaveWindow 32 .vin 0, .slotVinEnterWindow 32 .vin 0, .slotInsertionDelayExpire 32,
   .slotFullEnhancement 32, .slotRampTimeout 32, .slotPgQualified 32 false, .slotLimitAct 32 0, .slotFaultTimerExpire 32,
   .slotFastTrip 32, .slotTempTrip 32, .slotTempBelowTjmax 32, .slotDiodeFault 32, .slotVoutLost 32, .slotRetryExpire 32,
   .slotPowered60s 32, .slotClear 32 false, .slotPassFault 32, .slotFeedReverse 32 false false, .slotEnergyClear 32,
   .slotMeasRead 256 0 {}, .slotMeasRead 0 32 {}, .counterWrap 4096 0, .counterRead 256 0, .counterRead 0 4096, .samplingArm 4 0,
   .samplingPeriodReached 4, .samplingInterruptTaken 4 0, .histSelWrite 10 0, .histRead 256 0 0, .histRead 0 156 0, .histRead 0 0 32,
   .jtagDebugAccess (2 ^ 40) none, .powerGoodHoldExpire 128]
def illFormed7 : List Instr :=
  [.refclkReturn 3, .supplyBackInWindow 7, .trunkCsbChange 128 false, .slotFaultTimerZero 32, .aspmL1Entry { port := 128 }, .aspmL1Exit 128,
   .echo { udp := 2 ^ 16 }, .echo { major := 256 }, .echo { seq := 2 ^ 32 }, .echo { session := 2 ^ 16 },
   .echo { words := List.replicate 65536 0 }, .scrubStart 8 5 0]
def illFormed : List Instr := illFormed1 ++ illFormed2 ++ illFormed3 ++ illFormed4 ++ illFormed5 ++ illFormed6 ++ illFormed7

theorem test_illFormed_refused : illFormed.all (fun c => !c.wf) = true := by decide +kernel
theorem test_illFormed_stops : illFormed.all (fun c => match exec c {} with | .fault f => decide (f = .noSuchPart) | _ => false) = true := by decide +kernel

/-- A partner of the example of chapter 2: CXL 2.0, PCI Express to 32 GT/s, no flit mode. -/
def host20 : TrainInfo := { adv := { maxRate := 4, cxl := true, version := 20, cache := true } }

/-! ## The worked examples of the spec, one step or one operation each -/

/-- Chapter 20, finding port 44. -/
theorem test_map_port44 :
    masAt 0x0124100104 = .reg ⟨.CEL_PORT_STS, 44, 0⟩ 44 ∧ masAt 0x0124100000 = .reg ⟨.FLT_REC_STS, 44, 0⟩ 44 ∧
    (∃ i, masAt 0x0128000750 = .reg ⟨.BUF_EQ, 44, 4⟩ i) ∧ (∃ i, masAt 0x0128000B80 = .reg ⟨.QOS_CON_CFG, 44, 0⟩ i) ∧
    (∃ i, masAt 0x00101001B0 = .reg ⟨.VCS_PORT_ADM, 44, 0⟩ i) ∧ (∃ i, masAt 0x0080001600 = .reg ⟨.CNT_VAL_LO, 704, 0⟩ i) :=
  ⟨by decide +kernel, by decide +kernel, ⟨2, by decide +kernel⟩, ⟨2, by decide +kernel⟩, ⟨0, by decide +kernel⟩, ⟨0, by decide +kernel⟩⟩

/-- Chapter 20: a REG_READ from port A of an unmapped address. -/
theorem test_unmapped_read :
    (match exec (.regRead (req [1, 0x24100120])) (st chip0) with
      | .next t => some (t.chip.rd .CHP_STATUS, t.chip.rd .CHP_ERR_INFO, t.chip.rd .CHP_ERR_ADDR_LO, t.chip.rd .CHP_ERR_ADDR_HI)
      | _ => none) = some (0x40000000, 0x90980000, 0x24100120, 1) := by decide +kernel

/-- Chapter 12, Table 12.6: HELLO on port B in Field, with sessions 1 and 2 held. -/
def stField : State :=
  let c := ((chip0.set F.LCS_STATE.STATE 2).set F.ETH_PORT_STS.SECURED 1 1).set F.IMG_STS.LEVEL 1
  { chip := c, kmp := { sess := [sess1, { sess1 with num := 2, uid := 2, mac := 6, ip := 8 }], nextUid := 3 } }
theorem test_hello :
    (match exec (.hello { eth := 1, ip := 9, udp := 9, mac := 9, seq := 0x1000, words := [0x01011388, 1] }) stField with
      | .next t => t.chip.outbox.any (fun o => match o with
          | .kmp m => decide (m.major = 1 ∧ m.minor = 0 ∧ m.opcode = 1 ∧ m.flags = 0x8000 ∧ m.seq = 0x1000 ∧ m.session = 3 ∧
              m.words = [0x01001388, 1, 0x00010002, 1])
          | _ => false)
      | _ => false) = true := by decide +kernel

/-- Chapter 2: a CXL 2.0 host trains on a 64 GT/s port of 16 lanes; what Configuration negotiates (the rate, NEG_RATE, rises
after it). -/
theorem test_cxl2_host :
    (match exec (.trainingStepComplete 20 host20) (st (((chip0.wr .CEL_PORT_CFG 20 0 0x7B1).set F.CEL_LINK_STS.LTSSM ltConfig 20).modPort 20
        (fun x => { x with step := 4 }))) with
      | .next t => t.chip.rd .CEL_PORT_STS 20 &&& 0xFFFFFFF8
      | _ => 0) = 0x00042380 := by decide +kernel

/-- Chapter 13: a word of page 1 with syndrome 0x0015 is corrected in data bit 5, one with syndrome 0x001B fails. -/
theorem test_word_code :
    checkWord (List.replicate 16 0) 229 (wordCode (List.replicate 16 0) 229 ^^^ 0x0015) = .corrected 5 ∧
    checkWord (List.replicate 16 0) 233 (wordCode (List.replicate 16 0) 233 ^^^ 0x001B) = .failed := by decide +kernel

/-- Chapter 5: what a contract charges MemRd and MemWr of 64 bytes under Table 5.4. -/
theorem test_contract_charge :
    let c := ((chip0.wr .QOS_CON_CFG 36 0 0xC00C0008).set F.CEL_PORT_STS.FLIT256 1 36).set F.CEL_PORT_STS.CXL_ACTIVE 1 36
    (c.chargeOf 36 .memRd 0 0 false, c.chargeOf 36 .memWr 64 0 false) = (101, 84) := by decide +kernel

/-- Chapter 7: the three-way window. -/
theorem test_window :
    let t (p : Nat) : W := w32 (2 ^ 30 + p)
    let w := winOf 0x400 192 0x8840000C [t 96, t 100, t 104] [0, 0, 0]
    let c := chip0.setWin 5 0 w
    (c.findWin 5 0x4000015040 = some w ∧ w.lo = 0x4000000000 ∧ w.permits false 0 = true ∧ w.permits true 0 = false) ∧
    interleave ((waysOf w.iw).getD 1) ((granOf w.ig).getD 0) 0x15040 = (0, 0x7040) := by decide +kernel

/-- Chapter 7, Table 7.7: two MPU entries; levels 0 machine, 2 user, 3 agent; accesses 0 read, 1 write. -/
theorem test_mpu :
    let c := (((((chip0.set F.MPU_CFG.EN 1).wr .MPU_BASE 0 0 0).wr .MPU_ATTR 0 0 0x56C00D36).wr .MPU_BASE 1 0 0x3000).wr .MPU_ATTR 1 0 0xD400002F)
    c.masAllows ⟨154, 2, true⟩ 0 0x100000 4 = true ∧ c.masAllows ⟨154, 2, true⟩ 0 0x320000 4 = false ∧
    c.masAllows ⟨136, 3, true⟩ 1 0x380000 4 = false ∧ c.mpuDebug 3 0 0x320000 = true ∧ c.mpuDebug 3 1 0x100000 = true := by decide +kernel

/-- Chapter 8: home region, set and tag of the example's line. -/
theorem test_home : homeOf 0x163456780 = 5 ∧ snfSet 0x163456780 = 0x1E84 ∧ snfTag 0x163456780 = 0x0B1A ∧
    interleave 2 4096 0x123456780 = (0, 0x91A2B780) := by decide +kernel

/-- Chapter 4: the thresholds of the four queues: α 1/2 at F = 4,881 and 4,880, α 4 at 650. -/
theorem test_thresholds : threshold 3 4881 = 2440 ∧ threshold 3 4880 = 2440 ∧ threshold 3 650 = 325 ∧ threshold 6 650 = 2600 := by
  decide +kernel

/-- Chapter 18: counters wrap at 48 bits. -/
theorem test_counter_wrap : (0x7D78400 + 2 ^ 48 - 0xFFFFF0000000) % 2 ^ 48 = 400000000 ∧ cntCell 33 0 = 528 := by decide +kernel

/-! ## Hypotheses of the statements over every command -/

theorem test_hyps_EmptyQueueTicks :
    State.reset.pending = [] ∧ State.reset.chip.pw.dormant = false ∧
    ({ chip := { pw := { dormant := true } } } : State).chip.pw.dormant = true := by decide +kernel

theorem test_hyps_WellFormedCommandsComplete : (Instr.waveBegin 7).wf = true ∧ (Instr.waveBegin 8).wf = false := by decide

theorem test_hyps_StepKeepsSessionLimits :
    (st chip0).kmp.Within ∧ ∃ t, step { st chip0 with pending := [.echo (req [7])] } = .next t := by
  refine ⟨by unfold Kmp.Within Sess.Within; decide +kernel, ?_⟩
  cases h : step { st chip0 with pending := [.echo (req [7])] } with
  | next t => exact ⟨t, rfl⟩
  | fault f =>
    have : (match step { st chip0 with pending := [.echo (req [7])] } with | .next _ => true | _ => false) = true := by decide +kernel
    rw [h] at this; cases this
  | refused r =>
    have : (match step { st chip0 with pending := [.echo (req [7])] } with | .next _ => true | _ => false) = true := by decide +kernel
    rw [h] at this; cases this

theorem test_hyps_RegistersHaveOneAddress :
    (127 ∈ RName.CEL_PORT_STS.place.block.instances ∧ 0 < RName.CEL_PORT_STS.place.ci ∧ 0 < RName.CEL_PORT_STS.place.cj) ∧
    masAt 0x20000100 = .reg ⟨.FLT_CFG, 0, 0⟩ 0 := by decide +kernel

namespace Sessions

/-- A session with one request held and two events not yet acknowledged. -/
def sessE : Sess := { sess1 with unacked := [⟨3, 0x0800, [1], 1, 0⟩, ⟨4, 0x0801, [2], 200, 0⟩], held := [⟨0x100, req [], 0⟩] }
def sEvt : State := { chip := chip0, kmp := { sess := [sessE], nextUid := 2 } }
def reqH : KmpReq := { req [0x01010064, 1] with ip := 9 }
def st8 : State := { chip := chip0, kmp := { sess := (List.range 8).map (fun i => { sess1 with num := i + 1, uid := i + 1, ip := 20 + i }), nextUid := 9 } }
def chipE : Chip := { ((chip0.set F.QOS_EPOL_CFG.RATE 0 0 0).set F.QOS_EPOL_CFG.RATE 1000 0 1).set F.QOS_EPOL_CFG.RATE 0x1FFFF 0 2 with
  eth := [(0, { tokens := [(1, 1000000000)], ip4 := 0x0A000001, ip4Len := 24, ip6 := 1, ip6Len := 64, mac := [1,2,3,4,5,6], ckn := [9], cak := [1], prio := 1 })] }
def chipE3 : Chip := foldl' (List.range 8) (fun i c => c.set F.QOS_EPOL_CFG.RATE 131071 0 i) chipE
def mk (b : Bool) : MkaIn := { ckn := [9], live := true, priority := if b then 5 else 0, sak := true, inUse := true }
def chipE2 : Chip := chipE.modEth 0 (fun x => { x with saks := 1, server := true })

/-- The hypotheses of SessionRequestsAnswer are met, clause by clause. -/
theorem test_hyps_SessionRequestsAnswer :
    (let s : State := (st chip0); let q : KmpReq := (req []); let x : Sess := sess1;
     s.chip.AtRest ∧ q.wf = true ∧ s.Hears 3 q x) ∧
    (let s : State := (st chip0); let q : KmpReq := (req []); let x : Sess := sess1;
     s.chip.AtRest ∧ q.wf = true ∧ s.Hears 2 q x ∧ q.words = [] ∧ s.chip.relay = none) ∧
    (let s : State := (st chip0); let q : KmpReq := (req [1]); let x : Sess := sess1; let w : W := 0x00000001#32;
     s.chip.AtRest ∧ q.wf = true ∧ s.Hears 4 q x ∧ q.words = [w] ∧ bitAt w.toNat 0 = true ∧
     (s.chip.relay = none ∨ s.chip.holdsRelay x.num = true)) := by
  refine ⟨?_, ?_, ?_⟩ <;>
    (dsimp only [State.Hears, State.Owes]; decide +kernel)

/-- The hypotheses of RegisterReadsAnswer are met, clause by clause. -/
theorem test_hyps_RegisterReadsAnswer :
    (let s : State := (st chip0); let q : KmpReq := (req [0, 0x20000100]); let x : Sess := sess1;
     let readable : Nat → Nat → Prop := fun op a => (s.begun op q x).chip.masAllows (dmaMaster q.eth) 0 a 4 = true ∧
       ∃ g inst, (s.begun op q x).chip.Reaches a g inst ∧ g.name.latches = false;
     s.chip.AtRest ∧ q.wf = true ∧ s.Hears 256 q x ∧ q.words.length % 2 = 0 ∧ 0 < q.words.length ∧ q.words.length ≤ 128 ∧
     (∀ a ∈ pairs q.words, readable 256 a)) ∧
    (let s : State := (st chip0); let q : KmpReq := (req [0,0x30000040,1]); let x : Sess := sess1;
     let readable : Nat → Nat → Prop := fun op a => (s.begun op q x).chip.masAllows (dmaMaster q.eth) 0 a 4 = true ∧
       ∃ g inst, (s.begun op q x).chip.Reaches a g inst ∧ g.name.latches = false;
     let hi : W := 0; let lo : W := 0x30000040#32; let n : W := 0x00000001#32;
     let l : List Nat := List.map (fun i => pairAddr hi.toNat lo.toNat + 4 * i) (List.range n.toNat);
     s.chip.AtRest ∧ q.wf = true ∧ s.Hears 272 q x ∧ q.words = [hi, lo, n] ∧ 1 ≤ n.toNat ∧ n.toNat ≤ 2048 ∧ (∀ a ∈ l, readable 272 a)) := by
  refine ⟨?_, ?_⟩
  · dsimp only [State.Hears, State.Owes]
    and_intros
    all_goals first | decide +kernel | exact all_one (b := 0x20000100) (by decide +kernel) ⟨by decide +kernel, ⟨.FLT_CFG, 0, 0⟩, 0, reaches_of (by decide) (by decide +kernel) (by decide +kernel), rfl⟩
  · dsimp only [State.Hears, State.Owes]
    and_intros
    all_goals first | decide +kernel | exact all_one (b := 0x30000040) (by decide +kernel) ⟨by decide +kernel, ⟨.PWR_ENTRY_CFG, 0, 0⟩, 0, reaches_of (by decide) (by decide +kernel) (by decide +kernel), rfl⟩

/-- The hypotheses of RegisterWritesAnswer are met, clause by clause. -/
theorem test_hyps_RegisterWritesAnswer :
    (let s : State := (st chip0); let q : KmpReq := (req [0,0x30000040,1]); let x : Sess := sess1; let hi : W := 0;
     let lo : W := 0x30000040#32;
     let g : Reg := { name := RName.PWR_ENTRY_CFG, i := 0, j := 0 }; let inst : Nat := 0;
     let a : Nat := pairAddr hi.toNat lo.toNat;
     let open_ : Nat → Prop := fun op => (s.begun op q x).chip.Reaches a g inst ∧ g.name.ordinary = true ∧ g.name.latches = false ∧
       (s.begun op q x).chip.masAllows (dmaMaster q.eth) 0 a 4 = true ∧ (s.begun op q x).chip.masAllows (dmaMaster q.eth) 1 a 4 = true;
     let v : W := 0x00000001#32;
     s.chip.AtRest ∧ s.chip.merge = [] ∧ q.wf = true ∧ s.Hears 257 q x ∧ open_ 257 ∧ q.words = [hi, lo, v]) ∧
    (let s : State := (st chip0); let q : KmpReq := (req [0,0x30000040,1]); let x : Sess := sess1; let hi : W := 0;
     let lo : W := 0x30000040#32;
     let g : Reg := { name := RName.PWR_ENTRY_CFG, i := 0, j := 0 }; let inst : Nat := 0;
     let a : Nat := pairAddr hi.toNat lo.toNat;
     let open_ : Nat → Prop := fun op => (s.begun op q x).chip.Reaches a g inst ∧ g.name.ordinary = true ∧ g.name.latches = false ∧
       (s.begun op q x).chip.masAllows (dmaMaster q.eth) 0 a 4 = true ∧ (s.begun op q x).chip.masAllows (dmaMaster q.eth) 1 a 4 = true;
     let v : W := 0x00000001#32;
     s.chip.AtRest ∧ s.chip.merge = [] ∧ q.wf = true ∧ s.Hears 273 q x ∧ open_ 273 ∧ q.words = [hi, lo, v]) ∧
    (let s : State := (st chip0); let q : KmpReq := (req [0,0x30000040,255,5]); let x : Sess := sess1; let hi : W := 0;
     let lo : W := 0x30000040#32;
     let g : Reg := { name := RName.PWR_ENTRY_CFG, i := 0, j := 0 }; let inst : Nat := 0;
     let a : Nat := pairAddr hi.toNat lo.toNat;
     let open_ : Nat → Prop := fun op => (s.begun op q x).chip.Reaches a g inst ∧ g.name.ordinary = true ∧ g.name.latches = false ∧
       (s.begun op q x).chip.masAllows (dmaMaster q.eth) 0 a 4 = true ∧ (s.begun op q x).chip.masAllows (dmaMaster q.eth) 1 a 4 = true;
     let mask : W := 0x000000ff#32; let v : W := 0x00000005#32;
     s.chip.AtRest ∧ s.chip.merge = [] ∧ q.wf = true ∧ s.Hears 258 q x ∧ open_ 258 ∧ q.words = [hi, lo, mask, v]) := by
  refine ⟨?_, ?_, ?_⟩
  · dsimp only [State.Hears, State.Owes]
    exact ⟨by decide +kernel, by decide +kernel, by decide +kernel, by decide +kernel,
      ⟨reaches_of (by decide) (by decide +kernel) (by decide +kernel), by decide +kernel⟩, by decide +kernel⟩
  · dsimp only [State.Hears, State.Owes]
    exact ⟨by decide +kernel, by decide +kernel, by decide +kernel, by decide +kernel,
      ⟨reaches_of (by decide) (by decide +kernel) (by decide +kernel), by decide +kernel⟩, by decide +kernel⟩
  · dsimp only [State.Hears, State.Owes]
    exact ⟨by decide +kernel, by decide +kernel, by decide +kernel, by decide +kernel,
      ⟨reaches_of (by decide) (by decide +kernel) (by decide +kernel), by decide +kernel⟩, by decide +kernel⟩

/-- The hypotheses of CounterSweepAnswers are met. -/
theorem test_hyps_CounterSweepAnswers :
    let s : State := (st chip0); let q : KmpReq := (req [1]); let x : Sess := sess1; let w : W := 0x00000001#32;
    let first : Nat := bitsOf w.toNat 16 12; let n : Nat := bitsOf w.toNat 0 13; let b : Chip := (s.begun 288 q x).chip;
    let l : List Nat := rangeFrom first n;
    s.chip.AtRest ∧ s.chip.badWords = [] ∧ q.wf = true ∧ s.Hears 288 q x ∧ q.words = [w] ∧ 0 < n ∧ first + n ≤ 4096 ∧
    (∀ k ∈ l, b.sweepOk (dmaMaster q.eth) k = true) := by
  dsimp only [State.Hears, State.Owes]; decide +kernel

/-- The hypotheses of HelloOpensSession are met, clause by clause. -/
theorem test_hyps_HelloOpensSession :
    (let s : State := (st8); let q : KmpReq := reqH; let w0 : W := 0x01010064#32; let w1 : W := 0x00000001#32;
     s.chip.AtRest ∧ q.wf = true ∧ q.words = [w0, w1] ∧ s.chip.ethCarries q.eth = true ∧ s.chip.kmpOver q.ipv6 = true ∧ w0.toNat / 2 ^ 24 ≤ 1 ∧
     1 ≤ w0.toNat / 2 ^ 16 % 256 ∧ (∀ y ∈ s.kmp.sess, ¬(y.eth = q.eth ∧ y.ip = q.ip ∧ y.udp = q.udp)) ∧ s.chip.relay = none ∧
     8 ≤ s.kmp.sess.length) ∧
    (let s : State := (st chip0); let q : KmpReq := reqH; let w0 : W := 0x01010064#32; let w1 : W := 0x00000001#32;
     let y : Sess := sess1;
     s.chip.AtRest ∧ q.wf = true ∧ q.words = [w0, w1] ∧ s.chip.ethCarries q.eth = true ∧ s.chip.kmpOver q.ipv6 = true ∧ w0.toNat / 2 ^ 24 ≤ 1 ∧
     1 ≤ w0.toNat / 2 ^ 16 % 256 ∧ (∀ y ∈ s.kmp.sess, ¬(y.eth = q.eth ∧ y.ip = q.ip ∧ y.udp = q.udp)) ∧ s.chip.relay = none ∧
     s.kmp.sess.length < 8 ∧ y ∈ s.kmp.sess) ∧
    (let s : State := (st chip0); let q : KmpReq := reqH; let w0 : W := 0x01010064#32; let w1 : W := 0x00000001#32;
     let x : Sess := { num := s.kmp.freeNum, uid := s.kmp.nextUid, eth := q.eth, mac := q.mac, ip := q.ip, udp := q.udp, ipv6 := q.ipv6, major := 1, keepalive := clampTo 100 60000 (w0.toNat % 2 ^ 16), heard := s.chip.time, started := 0, expect := (q.seq + 1) % 2 ^ 32, prog := [], held := [], kept := [], evtNext := 0, unacked := [], queue := [], lost := 0 };
     let k : Nat := 1;
     s.chip.AtRest ∧ q.wf = true ∧ q.words = [w0, w1] ∧ s.chip.ethCarries q.eth = true ∧ s.chip.kmpOver q.ipv6 = true ∧ w0.toNat / 2 ^ 24 ≤ 1 ∧
     1 ≤ w0.toNat / 2 ^ 16 % 256 ∧ (∀ y ∈ s.kmp.sess, ¬(y.eth = q.eth ∧ y.ip = q.ip ∧ y.udp = q.udp)) ∧ s.chip.relay = none ∧
     s.kmp.sess.length < 8 ∧ 1 ≤ k ∧ k < x.num) := by
  refine ⟨?_, ?_, ?_⟩ <;>
    (dsimp only [State.Hears, State.Owes]; decide +kernel)

/-- The hypotheses of EventsAreAcknowledgedOrSentAgain are met, clause by clause. -/
theorem test_hyps_EventsAreAcknowledgedOrSentAgain :
    (let s : State := (st chip0); let x : Sess := sess1; let q : KmpReq := ({ req [] with seq := 3 }); let code : Nat := 0;
     s.chip.AtRest ∧ s.chip.holdsRelay x.num = false ∧ q.wf = true ∧ code < 65536 ∧ s.chip.ethCarries q.eth = true ∧
     s.chip.kmpOver q.ipv6 = true ∧ s.kmp.named q = some x ∧ q.major = x.major ∧ x.queue = [] ∧ x.lost = 0) ∧
    (let s : State := (sEvt); let x : Sess := sessE;
     let u : Unacked := { seq := 3, code := 2048, words := [0x00000001#32], sends := 1, last := 0 };
     s.chip.AtRest ∧ s.chip.holdsRelay x.num = false ∧ 0 < x.num ∧ x.num < 9 ∧ s.kmp.numbered x.num = some x ∧
     List.find? (fun v => decide (v.seq = u.seq)) x.unacked = some u ∧ u.last + s.chip.evtRetry ≤ s.chip.time ∧ u.sends < s.chip.evtTries) ∧
    (let s : State := (sEvt); let x : Sess := sessE;
     let u : Unacked := { seq := 4, code := 2049, words := [0x00000002#32], sends := 200, last := 0 };
     s.chip.AtRest ∧ s.chip.holdsRelay x.num = false ∧ 0 < x.num ∧ x.num < 9 ∧ s.kmp.numbered x.num = some x ∧
     List.find? (fun v => decide (v.seq = u.seq)) x.unacked = some u ∧ u.last + s.chip.evtRetry ≤ s.chip.time ∧ s.chip.evtTries ≤ u.sends) := by
  refine ⟨?_, ?_, ?_⟩ <;>
    (dsimp only [State.Hears, State.Owes]; decide +kernel)

/-- The hypotheses of SessionsEndAndDiscardsCount are met, clause by clause. -/
theorem test_hyps_SessionsEndAndDiscardsCount :
    (let s : State := (st chip0); let x : Sess := sess1;
     s.chip.AtRest ∧ 0 < x.num ∧ x.num < 9 ∧ s.kmp.numbered x.num = some x ∧ s.chip.holdsRelay x.num = false ∧
     x.heard + x.keepalive * msT ≤ s.chip.time) ∧
    (let s : State := (sEvt); let x : Sess := sessE; let h : Held := ⟨0x100, req [], 0⟩;
     s.chip.AtRest ∧ 0 < x.num ∧ x.num < 9 ∧ s.kmp.numbered x.num = some x ∧ h ∈ x.held ∧ h.since + s.chip.gapTime ≤ s.chip.time) ∧
    (let s : State := (st chip0); let e : Nat := 0;
     s.chip.AtRest ∧ e < 2 ∧ s.chip.ethCarries e = true) ∧
    (let s : State := (st chip0);
     s.chip.AtRest ∧ s.chip.relay = none) := by
  refine ⟨?_, ?_, ?_, ?_⟩ <;>
    (dsimp only [State.Hears, State.Owes]; decide +kernel)

/-- The hypotheses of FramesMeetTheirPolicer are met, clause by clause. -/
theorem test_hyps_FramesMeetTheirPolicer :
    (let s : State := (st chipE); let e : Nat := 0; let f : FrameIn := ({ fcsBad := true });
     s.chip.AtRest ∧ s.chip.badWords = [] ∧ e < 2 ∧ s.chip.ethUp e = true ∧ f.pause = false ∧ s.chip.macTakes e f = true ∧
     (f.cls ≠ FrameClass.eapol → s.chip.macsecReq e = true → s.chip.secured e = true) ∧ (f.cls ≠ FrameClass.eapol → s.chip.secured e = true →
     f.macsec ≠ 0) ∧ f.macsec ≠ 2 ∧ (f.macsec = 1 → s.chip.secured e = true) ∧ f.fcsBad = true) ∧
    (let s : State := (st chipE); let e : Nat := 0; let f : FrameIn := ({ cls := .arp });
     let i : Nat := policerOf (s.knows e f.cls) f.cls;
     s.chip.AtRest ∧ s.chip.badWords = [] ∧ e < 2 ∧ s.chip.ethUp e = true ∧ f.pause = false ∧ s.chip.macTakes e f = true ∧
     (f.cls ≠ FrameClass.eapol → s.chip.macsecReq e = true → s.chip.secured e = true) ∧ (f.cls ≠ FrameClass.eapol → s.chip.secured e = true →
     f.macsec ≠ 0) ∧ f.macsec ≠ 2 ∧ (f.macsec = 1 → s.chip.secured e = true) ∧ f.fcsBad = false ∧ s.chip.fld F.QOS_EPOL_CFG.RATE e i = 0) ∧
    (let s : State := (st chipE3); let e : Nat := 0; let f : FrameIn := ({});
     let i : Nat := policerOf (s.knows e f.cls) f.cls;
     s.chip.AtRest ∧ s.chip.badWords = [] ∧ e < 2 ∧ s.chip.ethUp e = true ∧ f.pause = false ∧ s.chip.macTakes e f = true ∧
     (f.cls ≠ FrameClass.eapol → s.chip.macsecReq e = true → s.chip.secured e = true) ∧ (f.cls ≠ FrameClass.eapol → s.chip.secured e = true →
     f.macsec ≠ 0) ∧ f.macsec ≠ 2 ∧ (f.macsec = 1 → s.chip.secured e = true) ∧ f.fcsBad = false ∧ s.chip.fld F.QOS_EPOL_CFG.RATE e i = 131071) ∧
    (let s : State := (st chipE); let e : Nat := 0; let f : FrameIn := ({});
     let i : Nat := policerOf (s.knows e f.cls) f.cls;
     let full : Nat := Tab.get 0 ((s.chip.polRefill e).ethx e).tokens i;
     s.chip.AtRest ∧ s.chip.badWords = [] ∧ e < 2 ∧ s.chip.ethUp e = true ∧ f.pause = false ∧ s.chip.macTakes e f = true ∧
     (f.cls ≠ FrameClass.eapol → s.chip.macsecReq e = true → s.chip.secured e = true) ∧ (f.cls ≠ FrameClass.eapol → s.chip.secured e = true →
     f.macsec ≠ 0) ∧ f.macsec ≠ 2 ∧ (f.macsec = 1 → s.chip.secured e = true) ∧ f.fcsBad = false ∧ s.chip.fld F.QOS_EPOL_CFG.RATE e i ≠ 0 ∧
     s.chip.fld F.QOS_EPOL_CFG.RATE e i ≠ 131071 ∧ (f.wire + 20) * ethUnit ≤ full) := by
  refine ⟨?_, ?_, ?_, ?_⟩ <;>
    (dsimp only [State.Hears, State.Owes]; decide +kernel)

/-- The hypotheses of KeyAgreementSecuresPort are met, clause by clause. -/
theorem test_hyps_KeyAgreementSecuresPort :
    (let s : State := (st chipE); let e : Nat := 0; let m : MkaIn := (mk true); let x : EthX := s.chip.ethx e;
     let server : Bool := decide (x.prio < m.priority) || decide (x.prio = m.priority) && !m.wins;
     s.chip.AtRest ∧ e < 2 ∧ s.chip.ethUp e = true ∧ x.ckn ≠ [] ∧ m.ckn = x.ckn ∧ m.good = true ∧ m.live = true ∧ server = true ∧ x.saks = 0) ∧
    (let s : State := (st chipE2); let e : Nat := 0; let m : MkaIn := (mk true); let x : EthX := s.chip.ethx e;
     let server : Bool := decide (x.prio < m.priority) || decide (x.prio = m.priority) && !m.wins;
     s.chip.AtRest ∧ e < 2 ∧ s.chip.ethUp e = true ∧ x.ckn ≠ [] ∧ m.ckn = x.ckn ∧ m.good = true ∧ m.live = true ∧ server = true ∧ x.saks ≠ 0 ∧
     m.inUse = true) ∧
    (let s : State := (st chipE); let e : Nat := 0; let m : MkaIn := (mk false); let x : EthX := s.chip.ethx e;
     let server : Bool := decide (x.prio < m.priority) || decide (x.prio = m.priority) && !m.wins;
     s.chip.AtRest ∧ e < 2 ∧ s.chip.ethUp e = true ∧ x.ckn ≠ [] ∧ m.ckn = x.ckn ∧ m.good = true ∧ m.live = true ∧ server = false ∧ m.sak = true) ∧
    (let s : State := (st (chipE2.set F.ETH_PORT_STS.SECURED 1 0)); let e : Nat := 0; let x : EthX := s.chip.ethx e;
     let pn : Nat := 4611686018427387905;
     s.chip.AtRest ∧ e < 2 ∧ s.chip.ethUp e = true ∧ s.chip.secured e = true ∧ x.server = true ∧ 2 ^ 62 < pn) := by
  refine ⟨?_, ?_, ?_, ?_⟩ <;>
    (dsimp only [State.Hears, State.Owes]; decide +kernel)

/-- The hypotheses of EthernetLinksComeAndGo are met, clause by clause. -/
theorem test_hyps_EthernetLinksComeAndGo :
    (let s : State := (st (chip0.set F.ETH_PORT_STS.LINK_UP 0 0)); let e : Nat := 0; let phy : Nat := 1; let fec : Nat := 1;
     s.chip.AtRest ∧ e < 2 ∧ phy < 8 ∧ fec < 4 ∧ s.chip.ethUp e = false ∧ s.chip.domOn (ethDom e) = true ∧ s.chip.pw.dormant = false ∧
     s.chip.boot ≠ 0 ∧ bitAt ((s.chip.rd RName.ETH_PORT_CFG e).toNat) 13 = true ∧ phyOk ((s.chip.rd RName.ETH_PORT_CFG e).toNat) phy fec = true) ∧
    (let s : State := (st chip0); let e : Nat := 0;
     s.chip.AtRest ∧ e < 2 ∧ s.chip.is F.ETH_PORT_STS.LINK_UP e = true ∧ s.chip.relay = none) ∧
    (let s : State := (st chipE); let e : Nat := 0; let ip : Nat := 167772161;
     s.chip.AtRest ∧ e < 2 ∧ s.chip.ethCarries e = true ∧ s.chip.ownsIp4 e ip = true) ∧
    (let s : State := (st chipE); let e : Nat := 0; let ip : Nat := 1;
     s.chip.AtRest ∧ e < 2 ∧ s.chip.ethCarries e = true ∧ s.chip.ownsIp6 e ip = true) := by
  refine ⟨?_, ?_, ?_, ?_⟩ <;>
    (dsimp only [State.Hears, State.Owes]; decide +kernel)
end Sessions

namespace Requests

def t36 : W := w32 (2^30+36)
def t20 : W := w32 (2^30+20)
def reqW : KmpReq := req ([0x30002, 16, 1, 0x8000000F, t20] ++ List.replicate 31 0)
def x20 : Ext := extOf 0x1014 5
def x36 : Ext := extOf 0x1024 9
def chipX (k : Nat) : Chip := { chipV with ert := [{ key := x20, tgt := x36, st := k, chan := 2 }] }
def chipS : Chip :=
  let c := { chipV with ert := (List.range 128).map (fun i => ({ key := extOf 0x1014 i, tgt := extOf 0x1024 (i + 128), st := 4, chan := 0 } : Ert)) }
  let c := c.setWin 3 0 { base := 16, size := 1, cfg := 0x8000000F, ta := t20 :: List.replicate 15 0, tb := List.replicate 16 0 }
  ((c.wr .VCS_VPPB_BIND 3 1 t36).set F.VCS_VPPB_STS.STATE 2 3 1).modVppb 3 1 (fun x => { x with reach := true })
def chipM : Chip := { (chipV.setVsw 3 { mbx := some ⟨0x5100, [], 77, 0⟩ }) with relay := some (1, 0, true) }
def chipP : Chip := { chip0 with pw := { off := [0, 1] } }
def chipD : Chip := ((chip0.set F.TMB_CFG.ALARM_ARM 1).wr .TMB_ALARM_HI 0 0 500).wr .TMB_ALARM_LO 0 0 0
def chipF : Chip := (chip0.raise 5 3 clsC) |> fun c => { c with mail := [] }
def chipSafe : Chip := (chip0.set F.FLT_SAFE_STS.SAFE 1)

/-- The hypotheses of BindOpensAccessChange are met. -/
theorem test_hyps_BindOpensAccessChange :
    let s : State := (st chipV); let q : KmpReq := (req [0x30001, t36]); let x : Sess := sess1; let w0 : W := 0x00030001#32;
    let w1 : W := 0x40000024#32; let b : Chip := (s.begun 512 q x).chip; let n : Nat := bitsOf w0.toNat 16 6;
    let v : Nat := bitsOf w0.toNat 0 6; let tgt : Tgt := tgtOf w1.toNat;
    s.chip.AtRest ∧ q.wf = true ∧ s.Hears 512 q x ∧ q.words = [w0, w1] ∧ b.bindStatus n v w1 = 0 ∧ b.epFull = false ∧
    (tgt.type = 1 ∨ tgt.type = 2) ∧ b.adm tgt.port = admReady := by
  dsimp only [State.Hears, State.Owes]; decide +kernel

/-- The hypotheses of UnbindBeginsDrainOrSquash are met. -/
theorem test_hyps_UnbindBeginsDrainOrSquash :
    let s : State := (st chipV); let q : KmpReq := (req [0x30000, 0]); let x : Sess := sess1; let w0 : W := 0x00030000#32;
    let w1 : W := 0; let b : Chip := (s.begun 513 q x).chip; let n : Nat := bitsOf w0.toNat 16 6;
    let v : Nat := bitsOf w0.toNat 0 6;
    s.chip.AtRest ∧ q.wf = true ∧ s.Hears 513 q x ∧ q.words = [w0, w1] ∧ s.chip.ert = [] ∧ b.is F.VCS_INST_CFG.EN n = true ∧
    v < b.vppbCount n ∧ (b.vppb n v).binding = none ∧ b.fld F.VCS_VPPB_STS.STATE n v = 2 ∧ b.epFull = false := by
  dsimp only [State.Hears, State.Owes]; decide +kernel

/-- The hypotheses of AdmissionRequestsMovePorts are met, clause by clause. -/
theorem test_hyps_AdmissionRequestsMovePorts :
    (let s : State := (st chipV); let q : KmpReq := (req [36]); let x : Sess := sess1; let w : W := 0x00000024#32;
     let b : Chip := (s.begun 514 q x).chip; let p : Nat := bitsOf w.toNat 0 7;
     s.chip.AtRest ∧ q.wf = true ∧ q.words = [w] ∧ s.Hears 514 q x ∧ b.role p = 2 ∧ b.bindingsOf p = [] ∧ b.ert = [] ∧ b.removals = [] ∧
     (∀ g < 32, b.groveUses g p = false) ∧ isIdle (b.ltssm p) = true ∧ b.adm p ≠ admNA ∧ b.adm p ≠ admOos ∧ b.adm p ≠ admFailed) ∧
    (let s : State := (st ((chipV.set F.VCS_PORT_ADM.STATE admOos 36).set F.VCS_PORT_ADM.STATE admFailed 20));
     let q : KmpReq := (req [36]); let x : Sess := sess1; let w : W := 0x00000024#32; let b : Chip := (s.begun 515 q x).chip;
     let p : Nat := bitsOf w.toNat 0 7;
     s.chip.AtRest ∧ q.wf = true ∧ q.words = [w] ∧ s.Hears 515 q x ∧ (b.role p = 1 ∨ b.role p = 2) ∧ (b.adm p = admOos ∨ b.adm p = admFailed)) ∧
    (let s : State := (st chipV); let q : KmpReq := (req [0x30000]); let x : Sess := sess1; let w : W := 0x00030000#32;
     let b : Chip := (s.begun 516 q x).chip; let n : Nat := bitsOf w.toNat 16 6;
     s.chip.AtRest ∧ q.wf = true ∧ q.words = [w] ∧ s.Hears 516 q x ∧ b.is F.VCS_INST_CFG.EN n = true ∧ b.adm (b.usp n) = admReady ∧
     b.epFull = false) := by
  refine ⟨?_, ?_, ?_⟩ <;>
    (dsimp only [State.Hears, State.Owes]; decide +kernel)

/-- The hypotheses of WindowSetCommitsWindow are met. -/
theorem test_hyps_WindowSetCommitsWindow :
    let s : State := (st chipV); let q : KmpReq := reqW; let x : Sess := sess1; let b : Chip := (s.begun 528 q x).chip;
    let w : Nat → W := fun i => q.words.getD i 0; let n : Nat := bitsOf ((w 0).toNat) 16 6;
    let k : Nat := bitsOf ((w 0).toNat) 0 5;
    let c : Win := winOf (w 1) (w 2) (w 3) (List.map (fun i => w (4 + 2 * i)) (List.range 16)) (List.map (fun i => w (5 + 2 * i)) (List.range 16));
    let n' : Nat := 0; let k' : Nat := 0;
    s.chip.AtRest ∧ q.wf = true ∧ s.Hears 528 q x ∧ q.words.length = 36 ∧ b.windowCode n k c false = 0 ∧ b.epFull = false ∧
    32 * n' + k' ≠ 32 * n + k := by
  dsimp only [State.Hears, State.Owes]; decide +kernel

/-- The hypotheses of GroveRequestsChangeGroves are met, clause by clause. -/
theorem test_hyps_GroveRequestsChangeGroves :
    (let s : State := (st chipV); let q : KmpReq := (req [1, 0x18, 0, 0, 0, 1, t36, 0]); let x : Sess := sess1;
     let w : Nat → Nat := fun i => (q.words.getD i 0).toNat; let g : Nat := w 0 % 32; let b : Chip := (s.begun 768 q x).chip;
     let vec : Nat := w 1 + w 2 * 2 ^ 32;
     s.chip.AtRest ∧ q.wf = true ∧ s.Hears 768 q x ∧ q.words.length = groveWords q.words ∧ b.pw.off = [] ∧
     b.createCode g vec (gwinDefs (bitsOf (w 0) 16 4 + 1) (List.drop 3 (List.map (fun x => x.toNat) q.words))).1 = 0) ∧
    (let s : State := (st ((chipG.set F.VCS_INST_CFG.EN 1 5).set F.GRV_STS.STATE gSeeding 1));
     let q : KmpReq := (req [0x50001]); let x : Sess := sess1; let w : Nat → Nat := fun i => (q.words.getD i 0).toNat;
     let g : Nat := w 0 % 32; let n : Nat := bitsOf (w 0) 16 6; let b : Chip := (s.begun 769 q x).chip;
     s.chip.AtRest ∧ q.wf = true ∧ s.Hears 769 q x ∧ q.words.length = 1 ∧ b.gst g = gSeeding ∧ b.groveTakes g = true ∧
     b.is F.VCS_INST_CFG.EN n = true ∧ bitAt (b.members g) n = false ∧ 2 ≤ popCount (b.members g) + 1) ∧
    (let s : State := (st ((chipG.setMembers 1 0x38).set F.VCS_INST_CFG.EN 1 5 |>.setJoined 1 0));
     let q : KmpReq := (req [0x50001]); let x : Sess := sess1; let w : Nat → Nat := fun i => (q.words.getD i 0).toNat;
     let g : Nat := w 0 % 32; let n : Nat := bitsOf (w 0) 16 6; let b : Chip := (s.begun 770 q x).chip;
     s.chip.AtRest ∧ q.wf = true ∧ s.Hears 770 q x ∧ q.words.length = 1 ∧ b.groveTakes g = true ∧ bitAt (b.members g) n = true ∧
     bitAt (b.joined g) n = false ∧ b.groveMapped g (some n) = false ∧ 3 ≤ popCount (b.members g)) ∧
    (let s : State := (st (chipG.set F.GRV_STS.STATE gSeeding 1)); let q : KmpReq := (req [0x50001]); let x : Sess := sess1;
     let w : Nat → Nat := fun i => (q.words.getD i 0).toNat; let g : Nat := w 0 % 32; let b : Chip := (s.begun 771 q x).chip;
     s.chip.AtRest ∧ q.wf = true ∧ s.Hears 771 q x ∧ q.words.length = 1 ∧ b.gst g = gSeeding ∧ b.is F.GRV_STS.REMOVING g = false ∧
     b.is F.GRV_STS.DISSOLVING g = false ∧ b.groveMapped g none = false) ∧
    (let s : State := (st chipG); let q : KmpReq := (req [0x02000001, 0, 0x1004, 7]); let x : Sess := sess1;
     let op : AtomOp := AtomOp.fetchAdd; let size : Nat := 4; let gw : Nat := 0; let b : Chip := (s.begun 784 q x).chip;
     let w : Nat → Nat := fun i => (q.words.getD i 0).toNat; let g : Nat := w 0 % 32;
     let ga : Nat := w 1 % 2 ^ 14 * 2 ^ 32 + w 2;
     s.chip.AtRest ∧ q.wf = true ∧ s.Hears 784 q x ∧ atomForm (w 0) = some (op, size) ∧ q.words.length = 3 + arity op * size / 4 ∧
     b.gst g = gStanding ∧ b.groveAt ga = some (g, gw) ∧ ga % size = 0) := by
  refine ⟨?_, ?_, ?_, ?_, ?_⟩ <;>
    (dsimp only [State.Hears, State.Owes]; decide +kernel)

/-- The hypotheses of GraftRequestsChangeEntries are met, clause by clause. -/
theorem test_hyps_GraftRequestsChangeEntries :
    (let s : State := (st ((chipV.set F.VCS_PORT_ADM.STATE admIn 20).set F.VCS_PORT_ADM.STATE admIn 36));
     let q : KmpReq := (req [31, 0x1014, 5, 0x1024, 9]); let x : Sess := sess1;
     let w : Nat → Nat := fun i => (q.words.getD i 0).toNat; let b : Chip := (s.begun 1024 q x).chip;
     let src : Ext := extOf (w 1) (w 2); let tgt : Ext := extOf (w 3) (w 4);
     s.chip.AtRest ∧ q.wf = true ∧ s.Hears 1024 q x ∧ q.words.length = 5 ∧ b.graftCheck (w 0 % 32) src tgt = 0 ∧ b.ertKey src = none) ∧
    (let s : State := (st (((chipX 4).set F.VCS_PORT_ADM.STATE admIn 20).set F.VCS_PORT_ADM.STATE admIn 36));
     let q : KmpReq := (req [31, 0x1014, 5, 0x1024, 11]); let x : Sess := sess1;
     let w : Nat → Nat := fun i => (q.words.getD i 0).toNat; let b : Chip := (s.begun 1024 q x).chip;
     let src : Ext := extOf (w 1) (w 2); let tgt : Ext := extOf (w 3) (w 4);
     s.chip.AtRest ∧ q.wf = true ∧ s.Hears 1024 q x ∧ q.words.length = 5 ∧ b.graftCheck (w 0 % 32) src tgt = 0 ∧ b.ertKey src = some { key := x20, tgt := x36, st := 4, chan := 2 }) ∧
    (let s : State := (st (chipX 1)); let q : KmpReq := (req [0x1014, 5]); let x : Sess := sess1;
     let w : Nat → Nat := fun i => (q.words.getD i 0).toNat; let b : Chip := (s.begun 1025 q x).chip; let e : Ert := { key := x20, tgt := x36, st := 1, chan := 2 };
     s.chip.AtRest ∧ q.wf = true ∧ s.Hears 1025 q x ∧ q.words.length = 2 ∧ b.ertKey (extOf (w 0) (w 1)) = some e ∧ e.active = true ∧
     b.heldOf e.key = []) ∧
    (let s : State := (st (chipX 4)); let q : KmpReq := (req [0, 0x1014, 5]); let x : Sess := sess1;
     let w : Nat → Nat := fun i => (q.words.getD i 0).toNat; let b : Chip := (s.begun 1026 q x).chip;
     let k : Ext := extOf (w 1) (w 2); let e : Ert := { key := x20, tgt := x36, st := 4, chan := 2 };
     s.chip.AtRest ∧ q.wf = true ∧ s.Hears 1026 q x ∧ q.words.length = 3 ∧ b.ertKey k = some e ∧ e.active = false ∧ b.epFull = false ∧
     b.winReaches k (k.ext * extBytes) extBytes none = false ∧ b.groveReaches k (k.ext * extBytes) extBytes = false) := by
  refine ⟨?_, ?_, ?_, ?_⟩ <;>
    (dsimp only [State.Hears, State.Owes]; decide +kernel)

/-- The hypotheses of GraftSettlePointsWindow are met. -/
theorem test_hyps_GraftSettlePointsWindow :
    let s : State := (st chipS); let q : KmpReq := (req [0x30000, t36, 1]); let x : Sess := sess1;
    let b : Chip := (s.begun 1027 q x).chip; let w : Nat → Nat := fun i => (q.words.getD i 0).toNat;
    let n : Nat := bitsOf (w 0) 16 6; let k : Nat := bitsOf (w 0) 0 5; let i : Nat := bitsOf (w 0) 8 4;
    let c : Win := b.win n k; let ways : Nat := (waysOf c.iw).getD 1; let len : Nat := (c.hi - c.lo) / ways;
    let new : Tgt := tgtOf (w 1);
    let hits : List Ert := b.settleSet (c.tgt i) (c.dpaBase i) len;
    let put : List W → Nat → List W := fun l v => List.map (fun j => if j = i then w32 v else l.getD j 0) (List.range 16);
    let c' : Win := { epoch := c.epoch, base := c.base, size := c.size, cfg := c.cfg, ta := put c.ta new.word, tb := put c.tb (w 2 % 2 ^ 24) };
    s.chip.AtRest ∧ q.wf = true ∧ s.Hears 1027 q x ∧ q.words.length = 3 ∧ b.is F.VCS_INST_CFG.EN n = true ∧ c.en = true ∧ c.isGrove = false ∧
    i < ways ∧ hits.length * extBytes = len ∧ (∀ e ∈ hits, e.tgt.port = new.port ∧ e.tgt.ld = new.ld ∧ e.tgt.type = new.type ∧
    e.tgt.ext * extBytes = w 2 % 2 ^ 24 * winUnit + (e.key.ext * extBytes - c.dpaBase i)) ∧
    b.otherReaches { type := (c.tgt i).type, port := (c.tgt i).port, ld := (c.tgt i).ld, ext := 0 } (c.dpaBase i) len n k = false ∧
    b.windowCode n k c' true = 0 ∧ b.epFull = false := by
  dsimp only [State.Hears, State.Owes]; decide +kernel

/-- The hypotheses of MailboxRequestsReachHostAndDevice are met, clause by clause. -/
theorem test_hyps_MailboxRequestsReachHostAndDevice :
    (let s : State := (st chipM); let q : KmpReq := (req [0x30000, 77, 0, 4, 0xAABBCCDD]); let x : Sess := sess1;
     let w : Nat → Nat := fun i => (q.words.getD i 0).toNat; let b : Chip := (s.begun 1280 q x).chip;
     let n : Nat := bitsOf (w 0) 16 6;
     let y : Mbx := { opcode := 20736, payload := [], tag := 77, since := 0 };
     s.chip.AtRest ∧ q.wf = true ∧ s.Hears 1280 q x ∧ b.holdsRelay x.num = true ∧ (b.vsw n).mbx = some y ∧ y.tag = w 1 ∧ w 3 ≤ 4096 ∧
     q.words.length = 4 + (w 3 + 3) / 4) ∧
    (let s : State := (st chipM);
     let q : KmpReq := ({ req [20, 0x00000000, 0x53000000, 0, 0x14000000, 0xAABBCCDD] with response := some [1,2,3] });
     let x : Sess := sess1; let w : Nat → Nat := fun i => (q.words.getD i 0).toNat; let b : Chip := (s.begun 1296 q x).chip;
     let req : List Byte := List.take (w 0) (bytesOfWords (List.drop 1 q.words)); let d : List Byte := List.drop 12 req;
     let r : List Byte := [0x01#8, 0x02#8, 0x03#8];
     s.chip.AtRest ∧ q.wf = true ∧ s.Hears 1296 q x ∧ 12 ≤ w 0 ∧ q.words.length = 1 + (w 0 + 3) / 4 ∧
     natOfBytes (List.take 2 (List.drop 3 req)) = 21248 ∧ (b.port (byteAt d 0)).up = true ∧ q.response = some r) := by
  refine ⟨?_, ?_⟩ <;>
    (dsimp only [State.Hears, State.Owes]; decide +kernel)

/-- The hypotheses of PowerRequestsReachController are met, clause by clause. -/
theorem test_hyps_PowerRequestsReachController :
    (let s : State := (st chip0); let q : KmpReq := (req [0, 3, 0, 0, 0, 0, 0]); let x : Sess := sess1;
     let b : Chip := (s.begun 1536 q x).chip; let w : Nat → Nat := fun i => (q.words.getD i 0).toNat;
     let named : List Nat := maskDoms (List.map (fun i => w (1 + i)) (List.range 6));
     let u : Chip := (b.count (cntChip 9)).set F.PWR_ENTRY_STS.BUSY 1;
     let l : List Nat := List.filter b.domOn (closure domsBelow named);
     s.chip.AtRest ∧ s.chip.scrubs = [] ∧ q.wf = true ∧ s.Hears 1536 q x ∧ q.words.length = 7 ∧ (∀ d ∈ named, d < 181) ∧
     b.is F.FLT_SAFE_STS.SAFE = false ∧ l ≠ [] ∧ u.takeRefusal (PwrSrc.kmp (x.req 1536) q.eth) false (closure domsBelow named) = none) ∧
    (let s : State := (st chipP); let q : KmpReq := (req [0, 3, 0, 0, 0, 0, 0]); let x : Sess := sess1;
     let b : Chip := (s.begun 1536 q x).chip; let w : Nat → Nat := fun i => (q.words.getD i 0).toNat;
     let named : List Nat := maskDoms (List.map (fun i => w (1 + i)) (List.range 6));
     let l : List Nat := List.filter (fun d => !b.domOn d) (closure domsAbove named);
     s.chip.AtRest ∧ s.chip.scrubs = [] ∧ q.wf = true ∧ s.Hears 1536 q x ∧ q.words.length = 7 ∧ (∀ d ∈ named, d < 181) ∧
     b.is F.FLT_SAFE_STS.SAFE = false ∧ b.domOn 176 = true ∧ (∀ d ∈ l, ∀ (n h : Nat), bndOf d = some (n, h) →
     b.fld F.NOC_BND_STS.STATE n h < 3) ∧ (∀ d ∈ l, d < 128 → b.fld F.CEL_PORT_CFG.ROLE d = 0)) ∧
    (let s : State := (st chipD); let q : KmpReq := (req [0]); let x : Sess := sess1;
     let b : Chip := (s.begun 1536 q x).chip;
     let u : Chip := (b.count (cntChip 9)).set F.PWR_ENTRY_STS.BUSY 1;
     let l : List Nat := List.filter b.domOn (List.range 182);
     s.chip.AtRest ∧ s.chip.scrubs = [] ∧ q.wf = true ∧ s.Hears 1536 q x ∧ q.words.length = 1 ∧ b.is F.FLT_SAFE_STS.SAFE = false ∧
     b.is F.TMB_CFG.ALARM_ARM = true ∧ b.ns + 10000000 ≤ b.alarmNs ∧ l ≠ [] ∧ u.takeRefusal (PwrSrc.kmp (x.req 1536) q.eth) true (List.range 182) = none) ∧
    (let s : State := (st chipP); let q : KmpReq := (req [0]); let x : Sess := sess1;
     let b : Chip := (s.begun 1536 q x).chip; let w : Nat → Nat := fun i => (q.words.getD i 0).toNat;
     s.chip.AtRest ∧ s.chip.scrubs = [] ∧ q.wf = true ∧ s.Hears 1536 q x ∧ q.words.length = 1 ∧ b.is F.FLT_SAFE_STS.SAFE = false ∧
     b.pw.raise = none ∧ b.setpoint (w 0 % 4) ≤ b.fld F.PWR_OP_STS.SETPOINT_MV) ∧
    (let s : State := (st (chip0.set F.PWR_OP_STS.SETPOINT_MV 700)); let q : KmpReq := (req [0]); let x : Sess := sess1;
     let b : Chip := (s.begun 1536 q x).chip; let w : Nat → Nat := fun i => (q.words.getD i 0).toNat;
     s.chip.AtRest ∧ s.chip.scrubs = [] ∧ q.wf = true ∧ s.Hears 1536 q x ∧ q.words.length = 1 ∧ b.is F.FLT_SAFE_STS.SAFE = false ∧
     b.pw.raise = none ∧ b.fld F.PWR_OP_STS.SETPOINT_MV < b.setpoint (w 0 % 4)) := by
  refine ⟨?_, ?_, ?_, ?_, ?_⟩
  · dsimp only [State.Hears, State.Owes]; decide +kernel
  · dsimp only [State.Hears, State.Owes]
    have h : ∀ d ∈ List.filter (fun d => !(chipP).domOn d) (closure domsAbove [0, 1]), bndOf d = none := by decide +kernel
    have none_of {d : Nat} (hd : d ∈ List.filter (fun d => !(chipP).domOn d) (closure domsAbove [0, 1])) (n k : Nat)
        (e : bndOf d = some (n, k)) : (chipP).fld F.NOC_BND_STS.STATE n k < 3 := by rw [h d hd] at e; cases e
    and_intros
    all_goals first | exact fun d hd n k e => none_of hd n k e | decide +kernel
  · dsimp only [State.Hears, State.Owes]; decide +kernel
  · dsimp only [State.Hears, State.Owes]; decide +kernel
  · dsimp only [State.Hears, State.Owes]; decide +kernel

/-- The hypotheses of FaultAndResetRequestsAct are met, clause by clause. -/
theorem test_hyps_FaultAndResetRequestsAct :
    (let s : State := (st chipF); let q : KmpReq := (req [5]); let x : Sess := sess1;
     let w0 : Nat := (q.words.getD 0 0).toNat; let b : Chip := (s.begun 1552 q x).chip; let c : Nat := w0 % 256;
     let p : Nat := 129; let bit : Nat := 17;
     s.chip.AtRest ∧ q.wf = true ∧ s.Hears 1552 q x ∧ q.words.length = 1 ∧ w0 % 256 ≤ 168 ∧ b.is F.FLT_REC_STS.OPEN c = true ∧
     b.liveBits c = 0 ∧ parentOf c = some (p, bit)) ∧
    (let s : State := (st chipSafe); let q : KmpReq := (req [5]); let x : Sess := sess1;
     let b : Chip := (s.begun 1553 q x).chip;
     s.chip.AtRest ∧ q.wf = true ∧ s.Hears 1553 q x ∧ q.words.length = 1 ∧ b.is F.FLT_SAFE_STS.SAFE = true ∧ b.openF = none ∧
     b.pw.testing = [] ∧ b.started = true ∧ b.failTest = none) ∧
    (let s : State := (st chipSafe); let q : KmpReq := (req [5]); let x : Sess := sess1;
     let b : Chip := (s.begun 1553 q x).chip; let n : Nat := 0;
     s.chip.AtRest ∧ q.wf = true ∧ s.Hears 1553 q x ∧ q.words.length = 1 ∧ b.is F.FLT_SAFE_STS.SAFE = true ∧ b.openF = none ∧ n < 2048) ∧
    (let s : State := (st chipF); let q : KmpReq := (req []); let x : Sess := sess1; let n : Nat := 0;
     s.chip.AtRest ∧ q.wf = true ∧ s.Hears 1568 q x ∧ q.words = [] ∧ n < 2048) := by
  refine ⟨?_, ?_, ?_, ?_⟩ <;>
    (dsimp only [State.Hears, State.Owes]; decide +kernel)
/-- The hypotheses of AcceptedClearsFillTheLog are met, clause by clause. -/
theorem test_hyps_AcceptedClearsFillTheLog :
    (let s : State := (st (chipF.set F.FLT_LOG_PTR.NEXT 63)); let c : Nat := 5; let m : Nat := 0;
     s.chip.AtRest ∧ c < 169 ∧ s.chip.is F.FLT_REC_STS.OPEN c = true ∧ s.chip.liveBits c = 0 ∧ m ≠ s.chip.fld F.FLT_LOG_PTR.NEXT) ∧
    (let s : State := (st chipF); let q : KmpReq := (req [5]); let x : Sess := sess1;
     let b : Chip := (s.begun 0x0610 q x).chip; let c : Nat := (q.words.getD 0 0).toNat % 256; let m : Nat := 63;
     s.chip.AtRest ∧ q.wf = true ∧ s.Hears 0x0610 q x ∧ q.words.length = 1 ∧ c < 169 ∧ b.is F.FLT_REC_STS.OPEN c = true ∧ b.liveBits c = 0 ∧
     m ≠ b.fld F.FLT_LOG_PTR.NEXT) ∧
    (let s : State := (st chipF); let q : KmpReq := (req [255]); let x : Sess := sess1; let c : Nat := (q.words.getD 0 0).toNat % 256;
     s.chip.AtRest ∧ q.wf = true ∧ s.Hears 0x0610 q x ∧ q.words.length = 1 ∧ c = 255) ∧
    (let a : Chip := chipF; let c : Nat := 5; let m : Nat := 63;
     c < 169 ∧ a.is F.FLT_REC_STS.OPEN c = true ∧ a.liveBits c = 0 ∧ m ≠ a.fld F.FLT_LOG_PTR.NEXT) ∧
    (let a : Chip := chipF; let c : Nat := 168; c < 169 ∧ (a.clearRecord c).2 ≠ 0) := by
  refine ⟨?_, ?_, ?_, ?_, ?_⟩ <;>
    (dsimp only [State.Hears, State.Owes]; decide +kernel)

/-- The hypotheses of LatchingReadsFormOneValue are met, clause by clause: the latches hold what was read at 4 s while the time is 5 s. -/
theorem test_hyps_LatchingReadsFormOneValue :
    (let s : State := (st chip0); let ini : Nat := 154; let n : Nat := 5;
     let c : Chip := { chip0.setLatch ini latTmb [0, 0] with time := 80000000000 };
     s.chip.AtRest ∧ ini < 256 ∧ n < 4096 ∧ s.chip.badWords = [] ∧ s.chip.counter n < 2 ^ 48 ∧ c.latch ini latTmb = [0, 0]) ∧
    (let a : Chip := { chip0 with time := 64000000007 }; let ini : Nat := 152; let v : List (Nat × Nat) := []; let n : Nat := 5;
     let r : Chip × Nat := a.regRead v ini ⟨.TMB_NOW_LO, 0, 0⟩; let c : Chip := { r.1 with time := 80000000000 };
     let r' : Chip × Nat := a.regRead v ini ⟨.CNT_VAL_LO, n, 0⟩; let c' : Chip := r'.1.count n 3;
     c.latch ini latTmb = r.1.latch ini latTmb ∧ c.time ≠ a.time ∧ n < 4096 ∧ (a.freshCount n).counter n < 2 ^ 48 ∧
     c'.latch ini (latCnt n) = r'.1.latch ini (latCnt n)) := by
  refine ⟨?_, ?_⟩ <;> decide +kernel

end Requests

namespace StartUp

/-- The header page of an unsigned image of three pages with no section (Table 13.3), of a rollback number, and its other pages. -/
def zeros : List Byte := List.replicate 3584 0
def headOf (rollback : Byte) : List Byte :=
  [0x56, 0x52, 0x49, 0x4D, 0, 1, 1, 0, 0, 0, 0, 0, 0, 0, 0, 9, rollback, 1, 0, 0, 0, 0, 0, 3] ++ List.replicate 3560 0
def tail7 : List Byte := List.replicate 63 0 ++ [7]
def imageAt (slot : Nat) (h : List Byte) : List (Nat × List Byte) :=
  let b := areaBase slot
  [(b, writePage b h tail7), (b + 1, writePage (b + 1) zeros tail7), (b + 2, writePage (b + 2) zeros tail7)]
def hdOf (rollback : Nat) : Header := { level := 1, version := 7, seq := 9, rollback := rollback, advance := true, pages := 3, sections := [] }
def hd7 : Header := hdOf 3
/-- That image in slot 0, beside an empty slot 1; beside one of rollback number 5; no image. -/
def imgPages : List (Nat × List Byte) := imageAt 0 (headOf 3) ++ imageAt 1 zeros
def twoPages : List (Nat × List Byte) := imageAt 0 (headOf 3) ++ imageAt 1 (headOf 5)
def noPages : List (Nat × List Byte) := imageAt 0 zeros ++ imageAt 1 zeros
def chipI : Chip := { chip0 with flash := imgPages }
def chipB : Chip := { chipI with boot := 1 }
def chip4 : Chip := { ({} : Chip) with fuses := { rollback := 4 } }

theorem length_zeros : zeros.length = 3584 := by decide +kernel
theorem length_headOf (r : Byte) : (headOf r).length = 3584 := by
  rw [headOf, List.length_append, List.length_replicate]; rfl

/-- A slot that holds an image with header page `d`. -/
def Holds (c : Chip) (slot : Nat) (d : List Byte) : Prop :=
  c.page (areaBase slot) = writePage (areaBase slot) d tail7 ∧ ∀ n ∈ [1, 2], c.page (areaBase slot + n) = writePage (areaBase slot + n) zeros tail7

theorem holds_of {c : Chip} {a b : List Byte} (h : c.flash = imageAt 0 a ++ imageAt 1 b) : Holds c 0 a ∧ Holds c 1 b := by
  have hp (n : Nat) : c.page n = Tab.get blankPage (imageAt 0 a ++ imageAt 1 b) n := by rw [Chip.page, h]
  refine ⟨⟨by rw [hp]; rfl, fun n hn => ?_⟩, by rw [hp]; rfl, fun n hn => ?_⟩ <;>
    (simp only [List.mem_cons, List.not_mem_nil, or_false] at hn; rcases hn with rfl | rfl <;> (rw [hp]; rfl))

theorem header_read {c : Chip} {slot : Nat} {d : List Byte} (h : Holds c slot d) (hd : d.length = 3584) (hm : c.fld F.CHP_ID.MAX_LEVEL = 1) :
    c.readHeader slot = ({ data := d, version := 7 }, parseHeader d 7 1) := by
  rw [readHeader_writePage c slot 7 d tail7 hd (by decide +kernel) h.1, hm]

theorem slot_read {c : Chip} {slot : Nat} {d e : List Byte} (h : Holds c slot d) (r : Nat) (hu : c.fuses.unsigned c.lc = true) :
    c.checkSlot slot (hdOf r) e true =
      { stream := zeros, unsigned := true, cause := if r < c.fuses.rollback then 8 else 0 } := by
  have hp : c.readPages (areaBase slot) 7 [1, 2] = ([zeros, zeros], 0, 0, 0) :=
    readPages_writePage c (areaBase slot) 7 tail7 (by decide +kernel) (fun _ => zeros) [1, 2] (fun n hn => ⟨length_zeros, h.2 n hn⟩)
  unfold Chip.checkSlot
  rw [show rangeFrom 1 ((hdOf r).pages - 1) = [1, 2] from rfl, show (hdOf r).version = 7 from rfl, hp]
  by_cases hr : r < c.fuses.rollback <;> simp [hu, hr, hdOf, sectionsOk, programsOk, Header.programs]

theorem parse_head3 : parseHeader (headOf 3) 7 1 = (0, some (hdOf 3)) := by decide +kernel
theorem parse_head5 : parseHeader (headOf 5) 7 1 = (0, some (hdOf 5)) := by decide +kernel
theorem parse_zeros : (parseHeader zeros 7 1).2 = none := by decide +kernel

def chipT : Chip := ({ chip0 with fuses := { state := 1 } } : Chip).decodeLc
def chipL : Chip := { chip0 with lcJob := some { q := sess1.req 0x0712, target := 1, hash := 0 } }
def chipLR : Chip := ({ chip0 with fuses := { state := 2 }, challenge := some (5, 0)} : Chip).decodeLc.set F.ETH_PORT_STS.SECURED 1 0
def rq1 : ReqId := (sess1.req 0x0630)
def stT (y : TestX) : State := { chip := { chip0 with test := some y }, kmp := { sess := [{ sess1 with prog := [rq1] }], nextUid := 2 } }
def mem (l : List TestSect) : TestX := { q := rq1, kind := 1, named := 511, sects := l, since := 0 }

theorem pages_wf {a b : List Byte} (ha : a.length = 3584) (hb : b.length = 3584) :
    (Instr.startUp { pages := imageAt 0 a ++ imageAt 1 b }).wf = true := by
  have ht : tail7.length = 64 := by decide +kernel
  simp [Instr.wf, imageAt, length_writePage, length_zeros, ha, hb, ht, areaBase]

/-- The hypotheses of SelfTestRequestsStart are met, clause by clause. -/
theorem test_hyps_SelfTestRequestsStart :
    (let s : State := (st chip0); let q : KmpReq := (req [1]); let x : Sess := sess1;
     let b : Chip := (s.begun 1584 q x).chip; let named : Nat → Nat := fun k => testMask k q.words;
     s.chip.AtRest ∧ q.wf = true ∧ s.Hears 1584 q x ∧ b.is F.FLT_SAFE_STS.SAFE = false ∧ q.words.length = testWords 1 ∧ named 1 ≠ 0 ∧
     named 1 < 2 ^ testWidth 1) ∧
    (let s : State := (st chipT); let q : KmpReq := (req [1]); let x : Sess := sess1;
     let b : Chip := (s.begun 1584 q x).chip; let named : Nat → Nat := fun k => testMask k q.words;
     let atRest : Prop := (∀ c < 128, b.cellUp c = false) ∧ b.groveLives = false ∧ b.txns = [] ∧ b.ert = [] ∧ b.inners = [] ∧
       b.pw.testing = [] ∧ b.scrubs = [] ∧ ∀ r < 8, b.fld F.NOC_BND_STS.STATE r ≠ 4;
     s.chip.AtRest ∧ q.wf = true ∧ s.Hears 1584 q x ∧ b.is F.FLT_SAFE_STS.SAFE = false ∧ (b.lc = 1 ∨ b.lc = 3) ∧ atRest ∧
     q.words.length = testWords 2 ∧ named 2 ≠ 0 ∧ named 2 < 2 ^ testWidth 2) ∧
    (let s : State := (st chipT); let q : KmpReq := (req (List.replicate 17 1)); let x : Sess := sess1;
     let b : Chip := (s.begun 1584 q x).chip; let named : Nat → Nat := fun k => testMask k q.words;
     let atRest : Prop := (∀ c < 128, b.cellUp c = false) ∧ b.groveLives = false ∧ b.txns = [] ∧ b.ert = [] ∧ b.inners = [] ∧
       b.pw.testing = [] ∧ b.scrubs = [] ∧ ∀ r < 8, b.fld F.NOC_BND_STS.STATE r ≠ 4;
     s.chip.AtRest ∧ q.wf = true ∧ s.Hears 1584 q x ∧ b.is F.FLT_SAFE_STS.SAFE = false ∧ (b.lc = 1 ∨ b.lc = 3) ∧ atRest ∧
     q.words.length = testWords 3 ∧ named 3 ≠ 0 ∧ named 3 < 2 ^ testWidth 3) ∧
    (let s : State := (st chip0); let q : KmpReq := (req (List.replicate 5 1)); let x : Sess := sess1;
     let b : Chip := (s.begun 1584 q x).chip; let named : Nat → Nat := fun k => testMask k q.words;
     s.chip.AtRest ∧ q.wf = true ∧ s.Hears 1584 q x ∧ b.is F.FLT_SAFE_STS.SAFE = false ∧ (∀ c < 128, b.coverOf c = none ∧
     b.is F.CEL_LINK_CFG.TEST_EN c = false) ∧ q.words.length = testWords 4 ∧ named 4 ≠ 0 ∧ named 4 < 2 ^ testWidth 4) ∧
    (let s : State := (st chip0); let q : KmpReq := (req [1,1]); let x : Sess := sess1;
     let b : Chip := (s.begun 1584 q x).chip; let named : Nat → Nat := fun k => testMask k q.words;
     s.chip.AtRest ∧ q.wf = true ∧ s.Hears 1584 q x ∧ b.is F.FLT_SAFE_STS.SAFE = false ∧ q.words.length = testWords 5 ∧ named 5 ≠ 0 ∧
     named 5 < 2 ^ testWidth 5) ∧
    (let s : State := (st chip0); let q : KmpReq := (req [1]); let x : Sess := sess1;
     let b : Chip := (s.begun 1584 q x).chip; let named : Nat → Nat := fun k => testMask k q.words;
     s.chip.AtRest ∧ q.wf = true ∧ s.Hears 1584 q x ∧ b.is F.FLT_SAFE_STS.SAFE = false ∧ q.words.length = testWords 6 ∧ named 6 ≠ 0 ∧
     named 6 < 2 ^ testWidth 6) ∧
    (let s : State := (st chip0); let q : KmpReq := (req [1]); let x : Sess := sess1;
     let b : Chip := (s.begun 1584 q x).chip; let named : Nat → Nat := fun k => testMask k q.words;
     s.chip.AtRest ∧ q.wf = true ∧ s.Hears 1584 q x ∧ b.is F.FLT_SAFE_STS.SAFE = false ∧ q.words.length = testWords 7 ∧ named 7 ≠ 0 ∧
     named 7 < 2 ^ testWidth 7) := by
  refine ⟨?_, ?_, ?_, ?_, ?_, ?_, ?_⟩ <;>
    (dsimp only [State.Hears, State.Owes]; decide +kernel)

/-- The hypotheses of LifeCycleAdvances are met, clause by clause. The token clause is met where the free values (log entry on
Config.sha384 and Config.ecdsaOk) accept a key and a signature. -/
theorem test_hyps_LifeCycleAdvances :
    (let s : State := (st chip0); let q : KmpReq := (req []); let x : Sess := sess1;
     s.chip.AtRest ∧ q.wf = true ∧ s.Hears 1808 q x ∧ q.words = []) ∧
    (let s : State := (st chipLR); let q : KmpReq := (req [0]); let x : Sess := sess1;
     s.chip.AtRest ∧ q.wf = true ∧ s.Hears 1809 q x ∧ q.words.length = 1 ∧ s.chip.lcJob = none) ∧
    (let s : State := (st chipLR);
     let q : KmpReq := (req (([0,0,0,0,0,0,5] : List W) ++ List.replicate 48 0)); let x : Sess := sess1;
     let id : Nat := s.chip.fuses.chipId; let c : Nat := 5; let t0 : Nat := 0;
     let key : List Byte := bytesOfWords (List.take 24 (List.drop 7 q.words));
     s.chip.fuses.keyOk key = true →
     Config.ecdsaOk key ([86, 82, 69, 84] ++ bytesOfWords (List.take 6 (List.drop 1 q.words))) (bytesOfWords (List.take 24 (List.drop 31 q.words))) = true →
     s.chip.AtRest ∧ q.wf = true ∧ s.Hears 1809 q x ∧ q.words.length = 55 ∧ s.chip.lcJob = none ∧ s.chip.challenge = some (c, t0) ∧
     wordsNat q.words 1 2 = id ∧ wordsNat q.words 3 4 = c ∧ s.chip.fuses.keyOk key = true ∧
     Config.ecdsaOk key ([86, 82, 69, 84] ++ bytesOfWords (List.take 6 (List.drop 1 q.words))) (bytesOfWords (List.take 24 (List.drop 31 q.words))) = true) ∧
    (let s : State := (st chip0); let q : KmpReq := (req [1]); let x : Sess := sess1;
     let w0 : Nat := (q.words.getD 0 0).toNat; let hash : Nat := wordsNat q.words 1 12;
     s.chip.AtRest ∧ q.wf = true ∧ s.Hears 1810 q x ∧ s.chip.lcJob = none ∧ advances s.chip.lc (w0 % 8) = true ∧
     q.words.length = (if w0 % 8 = 2 then 13 else 1) ∧ (w0 % 8 = 2 → s.chip.fuses.keyHash &&& hash = s.chip.fuses.keyHash)) ∧
    (let s : State := (st chipLR); let q : KmpReq := (req []); let c : Nat := 5; let t0 : Nat := 0;
     s.chip.AtRest ∧ q.wf = true ∧ s.chip.challenge = some (c, t0) ∧ t0 + 600 * secT ≤ s.chip.time) ∧
    (let s : State := ({ st { chipL with challenge := some (5, 0) } with kmp := { sess := [{ sess1 with prog := [sess1.req 0x0712] }] , nextUid := 2 } });
     let q : KmpReq := (req []);
     let j : LcJob := { q := { uid := 1, seq := 10, opcode := 1810 }, target := 1, hash := 0 }; let y : Sess := { sess1 with prog := [j.q] };
     let left : Nat := 0;
     s.chip.AtRest ∧ q.wf = true ∧ s.chip.lcJob = some j ∧ s.Owes j.q y ∧ (Instr.lcFuseProgramDone true left).wf = true) := by
  refine ⟨?_, ?_, ?_, ?_, ?_, ?_⟩
  · dsimp only [State.Hears, State.Owes]; decide +kernel
  · dsimp only [State.Hears, State.Owes]; decide +kernel
  · dsimp only [State.Hears]
    intro hk he
    and_intros
    all_goals first | decide +kernel | assumption
  · dsimp only [State.Hears, State.Owes]; decide +kernel
  · dsimp only [State.Hears, State.Owes]; decide +kernel
  · dsimp only [State.Hears, State.Owes]; decide +kernel

/-- The hypotheses of ImageRequestsReachFlash are met, clause by clause. -/
theorem test_hyps_ImageRequestsReachFlash :
    (let s : State := (st chip0); let q : KmpReq := (req [1, 0, 1]); let x : Sess := sess1;
     let w : Nat → Nat := fun i => (q.words.getD i 0).toNat; let area : Nat := w 0 % 4;
     s.chip.AtRest ∧ q.wf = true ∧ q.flashError = false ∧ s.Hears 1792 q x ∧ q.words.length = 3 ∧ area ≠ 3 ∧ w 1 + w 2 ≤ areaPages area ∧
     (s.begun 1792 q x).chip.areaActive area = false) ∧
    (let s : State := (st chip0);
     let q : KmpReq := (req ([1, 0, 0] ++ List.replicate 64 (w32 7))); let x : Sess := sess1;
     let w : Nat → Nat := fun i => (q.words.getD i 0).toNat; let area : Nat := w 0 % 4;
     let d : List Byte := bytesOfWords (List.drop 3 q.words); let a : Nat := 4096 * w 1 + w 2 % 4096;
     s.chip.AtRest ∧ q.wf = true ∧ q.flashError = false ∧ s.Hears 1793 q x ∧ 67 ≤ q.words.length ∧ q.words.length ≤ 1027 ∧ area ≠ 3 ∧
     w 2 % 256 = 0 ∧ a + d.length ≤ 4096 * areaPages area ∧ (s.begun 1793 q x).chip.areaActive area = false ∧
     (∀ (p : Nat), (s.chip.page p).length = 4096)) ∧
    (let s : State := (st chip0); let q : KmpReq := (req [0,0,4,8]); let x : Sess := sess1;
     let w : Nat → Nat := fun i => (q.words.getD i 0).toNat; let area : Nat := w 0 % 4;
     s.chip.AtRest ∧ q.wf = true ∧ q.flashError = false ∧ s.Hears 1794 q x ∧ q.words.length = 4 ∧ area ≠ 3 ∧ w 2 % 4 = 0 ∧ w 3 % 4 = 0 ∧
     4 ≤ w 3 ∧ w 3 ≤ 4096 ∧ 4096 * w 1 + w 2 + w 3 ≤ 4096 * areaPages area) ∧
    (let s : State := (st chipI); let q : KmpReq := (req [0]); let x : Sess := sess1;
     let w : Nat → Nat := fun i => (q.words.getD i 0).toNat; let h : Header := hd7; let b : Chip := (s.begun 1795 q x).chip;
     s.chip.AtRest ∧ q.wf = true ∧ q.flashError = false ∧ s.Hears 1795 q x ∧ q.words.length = 1 ∧ w 0 < 2 ∧ (b.readHeader (w 0)).2.2 = some h) := by
  refine ⟨?_, ?_, ?_, ?_⟩
  · dsimp only [State.Hears, State.Owes]; decide +kernel
  · dsimp only [State.Hears, State.Owes]
    and_intros
    all_goals first | exact fun p => List.length_replicate | decide +kernel
  · dsimp only [State.Hears, State.Owes]; decide +kernel
  · dsimp only [State.Hears, State.Owes]
    have h := header_read (c := ((st chipI).begun 1795 (req [0]) sess1).chip) (holds_of (a := headOf 3) (b := zeros) rfl).1 (length_headOf 3)
      (by decide +kernel)
    have hw : ((req [0]).words.getD 0 0).toNat = 0 := by decide +kernel
    and_intros
    all_goals first | (rw [hw, h, parse_head3]; rfl) | decide +kernel

/-- The hypotheses of StartUpLoadsImageAndWaves are met, clause by clause: START_UP. -/
theorem test_hyps_StartUpLoadsImageAndWaves_startUp :
    (let s : State := (st {}); let x : StartIn := { pages := imgPages }; let k : Nat := 0; let h : Header := hdOf 3;
     let c : Chip := (foldl' x.pages (fun p c => c.setPage p.1 p.2) s.fresh).decodeLc;
     let head : Nat → Option Header := fun k => (c.readHeader k).2.2;
     let check : Nat → Header → Nat := fun k h => (c.checkSlot k h (c.readHeader k).1.data true).cause;
     let first : Nat → Header → Prop := fun k h => k < 2 ∧ head k = some h ∧
       ∀ y, head (1 - k) = some y → y.seq < h.seq ∨ (y.seq = h.seq ∧ k = 0);
     s.chip.AtRest ∧ (Instr.startUp x).wf = true ∧ s.chip.boot = 0 ∧
       (s.chip.is F.PWR_RESET_CAUSE.WARM = true ∨ s.chip.pw.rails = []) ∧ x.flash = 0 ∧ first k h ∧ check k h = 0) ∧
    (let s : State := (st chip4); let x : StartIn := { pages := twoPages };
     let k : Nat := 0; let h : Header := hdOf 3; let y : Header := hdOf 5;
     let c : Chip := (foldl' x.pages (fun p c => c.setPage p.1 p.2) s.fresh).decodeLc;
     let head : Nat → Option Header := fun k => (c.readHeader k).2.2;
     let check : Nat → Header → Nat := fun k h => (c.checkSlot k h (c.readHeader k).1.data true).cause;
     let first : Nat → Header → Prop := fun k h => k < 2 ∧ head k = some h ∧
       ∀ y, head (1 - k) = some y → y.seq < h.seq ∨ (y.seq = h.seq ∧ k = 0);
     s.chip.AtRest ∧ (Instr.startUp x).wf = true ∧ s.chip.boot = 0 ∧
       (s.chip.is F.PWR_RESET_CAUSE.WARM = true ∨ s.chip.pw.rails = []) ∧ x.flash = 0 ∧ first k h ∧ check k h ≠ 0 ∧ head (1 - k) = some y ∧ check (1 - k) y = 0) ∧
    (let s : State := (st {}); let x : StartIn := { pages := noPages };
     let c : Chip := (foldl' x.pages (fun p c => c.setPage p.1 p.2) s.fresh).decodeLc;
     let head : Nat → Option Header := fun k => (c.readHeader k).2.2;
     s.chip.AtRest ∧ (Instr.startUp x).wf = true ∧ s.chip.boot = 0 ∧
       (s.chip.is F.PWR_RESET_CAUSE.WARM = true ∨ s.chip.pw.rails = []) ∧ x.flash = 0 ∧ head 0 = none ∧ head 1 = none) ∧
    (let s : State := (st ((({} : Chip).set F.PWR_RESET_CAUSE.WARM 1))); let x : StartIn := { flash := 1 };
     s.chip.AtRest ∧ (Instr.startUp x).wf = true ∧ s.chip.boot = 0 ∧
       (s.chip.is F.PWR_RESET_CAUSE.WARM = true ∨ s.chip.pw.rails = []) ∧ 0 < x.flash) := by
  refine ⟨?_, ?_, ?_, by decide +kernel⟩ <;> dsimp only
  · have hs := holds_of (c := (foldl' imgPages (fun p (c : Chip) => c.setPage p.1 p.2) (st {}).fresh).decodeLc) (a := headOf 3) (b := zeros) rfl
    have h0 := header_read hs.1 (length_headOf 3) (by decide +kernel)
    have h1 := header_read hs.2 length_zeros (by decide +kernel)
    refine ⟨by decide +kernel, pages_wf (length_headOf 3) length_zeros, by decide +kernel, by decide +kernel, rfl,
      ⟨by decide, by rw [h0, parse_head3], fun y hy => ?_⟩, ?_⟩
    · rw [show 1 - 0 = 1 from rfl, h1, parse_zeros] at hy; cases hy
    · exact congrArg SlotRead.cause ((slot_read hs.1 3 (by decide +kernel)).trans (by rw [if_neg (by decide +kernel)]))
  · have hs := holds_of (c := (foldl' twoPages (fun p (c : Chip) => c.setPage p.1 p.2) (st chip4).fresh).decodeLc)
      (a := headOf 3) (b := headOf 5) rfl
    have h0 := header_read hs.1 (length_headOf 3) (by decide +kernel)
    have h1 := header_read hs.2 (length_headOf 5) (by decide +kernel)
    refine ⟨by decide +kernel, pages_wf (length_headOf 3) (length_headOf 5), by decide +kernel, by decide +kernel, rfl,
      ⟨by decide, by rw [h0, parse_head3], fun y hy => ?_⟩, ?_, by rw [show 1 - 0 = 1 from rfl, h1, parse_head5], ?_⟩
    · rw [show 1 - 0 = 1 from rfl, h1, parse_head5] at hy; cases hy; exact .inr ⟨rfl, rfl⟩
    · rw [slot_read hs.1 3 (by decide +kernel), if_pos (by decide +kernel)]; decide
    · rw [slot_read hs.2 5 (by decide +kernel), if_neg (by decide +kernel)]
  · have hs := holds_of (c := (foldl' noPages (fun p (c : Chip) => c.setPage p.1 p.2) (st {}).fresh).decodeLc) (a := zeros) (b := zeros) rfl
    have h0 := header_read hs.1 length_zeros (by decide +kernel)
    have h1 := header_read hs.2 length_zeros (by decide +kernel)
    exact ⟨by decide +kernel, pages_wf length_zeros length_zeros, by decide +kernel, by decide +kernel, rfl, by rw [h0, parse_zeros],
      by rw [h1, parse_zeros]⟩

/-- The loaded slot of a chip with that flash. -/
theorem loaded_of {c : Chip} (hf : c.flash = imgPages) (hm : c.fld F.CHP_ID.MAX_LEVEL = 1) (hs : c.fld F.IMG_STS.SLOT = 0)
    (hu : c.fuses.unsigned c.lc = true) : c.loaded = some (hd7, zeros) := by
  have h := (holds_of (a := headOf 3) (b := zeros) hf).1
  rw [Chip.loaded, hs, header_read h (length_headOf 3) hm, parse_head3]
  exact congrArg (fun r : SlotRead => some (hd7, r.stream)) (slot_read h 3 hu)

/-- A port made by one write leaves every other cell Disabled. -/
theorem only_role {q : Nat} (hq : q ≠ 20) : (chip0.set F.CEL_PORT_CFG.ROLE 2 20).fld F.CEL_PORT_CFG.ROLE q = 0 := by
  have h : (chip0.set F.CEL_PORT_CFG.ROLE 2 20).rd .CEL_PORT_CFG q 0 = 0 := by
    rw [Chip.rd_set, if_neg (fun e => hq (congrArg Reg.i e).symm)]
    rfl
  show bitsOf ((chip0.set F.CEL_PORT_CFG.ROLE 2 20).rd .CEL_PORT_CFG q 0).toNat F.CEL_PORT_CFG.ROLE.lo F.CEL_PORT_CFG.ROLE.width = 0
  rw [h]; decide

/-- The hypotheses of StartUpLoadsImageAndWaves are met, clause by clause: START_UP above, and the commands after it. -/
theorem test_hyps_StartUpLoadsImageAndWaves :
    (let s : State := (st chipB); let h : Header := hd7; let stream : List Byte := zeros;
     let start : StartCfg := List.foldl (fun _ x_1 => startOf (x_1.bytes stream)) s.chip.start (List.filter (fun x => decide (x.type = 1)) h.sections);
     s.chip.AtRest ∧ s.chip.boot = 1 ∧ s.chip.loaded = some (h, stream) ∧ (∀ x ∈ h.sections, x.type < 3 ∨ 6 < x.type) ∧
     s.chip.is F.FLT_SAFE_STS.SAFE = false ∧ s.chip.failTest = none ∧ s.chip.dieLost = false ∧ start.opPoint % 4 = 0) ∧
    (let s : State := (st { chip0 with waves := List.range 8 }); let w : Nat := 0; let c : Nat := 0;
     s.chip.AtRest ∧ w < 8 ∧ w ∈ s.chip.waves ∧ s.chip.is F.FLT_SAFE_STS.SAFE = false ∧ s.chip.fld F.IMG_STS.STATE = 1 ∧
     s.chip.waveZero + s.chip.waveGap * w ≤ s.chip.time ∧ c < 128 ∧ s.chip.waveOf (c / 4) = w ∧ s.chip.domOn c = true) ∧
    (let s : State := (st { chip0.set F.CEL_PORT_CFG.ROLE 2 20 with waves := List.range 8 }); let w : Nat := 5;
     let c : Nat := 20;
     s.chip.AtRest ∧ w < 8 ∧ w ∈ s.chip.waves ∧ s.chip.is F.FLT_SAFE_STS.SAFE = false ∧ s.chip.fld F.IMG_STS.STATE = 1 ∧
     s.chip.waveZero + s.chip.waveGap * w ≤ s.chip.time ∧ c < 128 ∧ s.chip.waveOf (c / 4) = w ∧ s.chip.fld F.CEL_PORT_CFG.ROLE c = 2 ∧
     (∀ (q : Nat), q ≠ c → s.chip.fld F.CEL_PORT_CFG.ROLE q = 0) ∧ s.chip.cfgBad c = false ∧ s.chip.poolBad c = false ∧
     (s.chip.adm c = admNA ∨ s.chip.adm c = admDown) ∧ (s.chip.port c).surplus = false ∧
     (∀ d ∈ covered c (s.chip.fld F.CEL_PORT_CFG.WIDTH c), s.chip.domOn d = true)) ∧
    (let s : State := (st (chipI.set F.IMG_RB.IMAGE 3)); let h : Header := hd7; let stream : List Byte := zeros;
     let n : Nat := s.chip.fld F.IMG_RB.IMAGE;
     s.chip.AtRest ∧ s.chip.fld F.IMG_STS.STATE = 1 ∧ s.chip.resetAt + secT ≤ s.chip.time ∧ s.chip.fuses.rollback < n ∧
     s.chip.loaded = some (h, stream) ∧ h.advance = true) := by
  refine ⟨?_, by decide +kernel, ?_, ?_⟩ <;> dsimp only
  · have hl := loaded_of (c := chipB) rfl (by decide +kernel) (by decide +kernel) (by decide +kernel)
    exact ⟨by decide +kernel, rfl, hl, by decide +kernel, by decide +kernel, rfl, rfl, by decide +kernel⟩
  · and_intros
    all_goals first | exact fun q hq => only_role hq | decide +kernel
  · have hl := loaded_of (c := chipI.set F.IMG_RB.IMAGE 3) rfl (by decide +kernel) (by decide +kernel) (by decide +kernel)
    exact ⟨by decide +kernel, by decide +kernel, by decide +kernel, by decide +kernel, hl, rfl⟩

/-- The hypotheses of SelfTestsRunAndEnd are met, clause by clause. -/
theorem test_hyps_SelfTestsRunAndEnd :
    (let s : State := (stT (mem [])); let y : TestX := mem []; let u : Nat := 0; let c : Nat := 0; let n : Nat := 0;
     ({ s.chip with test := none }).AtRest ∧ s.chip.test = some y ∧ y.waits = false ∧ u ≤ 8 ∧ c < 16 ∧ n < sectionsOf u c ∧ y.kind = 1 ∧
     bitAt y.named u = true ∧ bitAt y.skipped u = false ∧ (Instr.testSectionTimeout u c n).wf = true ∧ y.sects = []) ∧
    (let s : State := (stT (mem [⟨8,0,3,1,true,0⟩])); let y : TestX := mem [⟨8,0,3,1,true,0⟩]; let u : Nat := 8; let c : Nat := 0;
     let n : Nat := 3; let k : Nat := 1; let t0 : Nat := 0;
     ({ s.chip with test := none }).AtRest ∧ s.chip.test = some y ∧ y.waits = false ∧ u ≤ 8 ∧ c < 16 ∧ n < sectionsOf u c ∧ y.kind = 1 ∧
     bitAt y.named u = true ∧ bitAt y.skipped u = false ∧ y.sects = [{ unit := u, c := c, ix := n, tries := k, busy := true, since := t0 }] ∧
     t0 + 2 * usT ≤ s.chip.time ∧ (Instr.testSectionTimeout u c n).wf = true) ∧
    (let s : State := (stT (mem [⟨8,0,3,0,false,0⟩])); let y : TestX := mem [⟨8,0,3,0,false,0⟩]; let u : Nat := 8; let c : Nat := 0;
     let n : Nat := 3; let k : Nat := 0; let t0 : Nat := 0;
     ({ s.chip with test := none }).AtRest ∧ s.chip.test = some y ∧ y.waits = false ∧ u ≤ 8 ∧ c < 16 ∧ n < sectionsOf u c ∧ y.kind = 1 ∧
     bitAt y.named u = true ∧ bitAt y.skipped u = false ∧ y.sects = [{ unit := u, c := c, ix := n, tries := k, busy := false, since := t0 }] ∧
     t0 + 100 * usT ≤ s.chip.time ∧ (Instr.testSectionRetry u c n).wf = true) ∧
    (let s : State := (stT { q := rq1, kind := 7, named := 1, since := 0 }); let y : TestX := { q := rq1, kind := 7, named := 1, since := 0 }; let failed : Nat := 0;
     let sigs : List Nat := []; let x : Sess := { sess1 with prog := [rq1] };
     ({ s.chip with test := none }).AtRest ∧ s.chip.test = some y ∧ y.waits = false ∧ y.kind = 7 ∧ s.Owes y.q x ∧ s.chip.pw.testing = [] ∧
     (Instr.selfTestEnd failed sigs []).wf = true) := by
  refine ⟨?_, ?_, ?_, ?_⟩ <;>
    (dsimp only [State.Hears, State.Owes]; decide +kernel)

/-- The hypotheses of ResetsClearTheChip are met. -/
theorem test_hyps_ResetsClearTheChip :
    let low : Nat := 5000; let g : Reg := { name := RName.MPU_CFG, i := 0, j := 0 };
    5000 ≤ low ∧ g.name ≠ RName.PWR_RESET_CAUSE ∧ g.name ≠ RName.LCS_STATE ∧ g.name ≠ RName.LCS_CHIP_ID_LO ∧ g.name ≠ RName.LCS_CHIP_ID_HI := by
  dsimp only [State.Hears, State.Owes]; decide +kernel
end StartUp

namespace Ports

def chipP : Chip :=
  let c := (chip0.set F.CEL_PORT_CFG.ROLE 2 40).set F.CEL_PORT_CFG.ROLE 1 48
  let c := (c.set F.CEL_PORT_CFG.ROLE 3 56).set F.CEL_PORT_CFG.FLIT256_EN 1 40
  let c := (((c.set F.VCS_PORT_ADM.STATE admDown 40).set F.VCS_PORT_ADM.STATE admDown 48).set F.VCS_PORT_ADM.STATE admDown 56)
  let c := (c.set F.CEL_PORT_CFG.WIDTH 4 40).set F.CEL_PORT_CFG.MAX_RATE 6 40
  c
def stp (k : Nat) (c : Chip) : Chip := foldl' [40,48,56] (fun p c => c.modPort p (fun x => { x with step := k, waved := true, target := 3 })) c
def upp (l : Nat) (c : Chip) : Chip := foldl' [40,48,56] (fun p c => (c.modPort p (fun x => { x with step := 0, waved := true, up := true, target := 3 })).set F.CEL_LINK_STS.LTSSM l p) c
def fl (c : Chip) : Chip := foldl' [40,48,56] (fun p c => (c.modPort p (fun x => { x with flushing := true, flushCount := 3 }))) c
def prs (c : Chip) : Chip := foldl' [40,48,56] (fun p c => (c.modPort p (fun x => { x with perst := true, waved := true }))) c
def ti (f : PartnerAdv → PartnerAdv) : TrainInfo := { adv := f {} }
def msg1 : Msg := { id := 5, kind := .memWr, src := 3, iport := some 40, region := 2, loc := .ingress 40, tail := false, opn := 9 }
def rq1 : OpenReq := { id := 9, region := 2, epoch := 0, initiator := 3, inst := 3, vb := 0, kind := .memWr, tag := 7, rport := 40, dest := 48, ld := 0, addr := 0, dpa := 0, want := 0, start := 0, rd := 0, wr := 64 }
def tightPort (c : Chip) : Chip := c.modPort 40 (fun x => { x with requal := [c.time, c.time - 5, 3] })
/-- More than 64 receiver errors within the last 1 ms. -/
def badLink (c : Chip) : Chip := c.modPort 40 (fun x => { x with rxErrs := List.replicate 65 c.time, crcFails := List.replicate 65 c.time })
def chipD : Chip := foldl' [3,4] (fun p c => c.modPort p (fun x => { x with waved := true })) chipP
def chipD2 : Chip := ((chipD.wr .CEL_LINK_CFG 3 0 (w32 0x400)).set F.CEL_LINK_CFG.LOOP_MODE 4 3).set F.CEL_LINK_STS.LTSSM ltTest 3


/-- The hypotheses of PortsConfigureAndTrain are met, clause by clause. -/
theorem test_hyps_PortsConfigureAndTrain :
    (let s : State := (st chipP); let p : Nat := 40; let v : W := 0x00000002#32;
     s.chip.Still ∧ p < 128 ∧ s.chip.role p ≠ 0 ∧ bitsOf v.toNat 0 3 ≠ 0) ∧
    (let s : State := (st chipP); let p : Nat := 0; let v : W := 0;
     s.chip.Still ∧ p < 128 ∧ s.chip.role p = 0 ∧ bitsOf v.toNat 0 3 = 0) ∧
    (let s : State := (st chipP); let p : Nat := 0; let v : W := 0x00000002#32;
     let new : W := w32 (v.toNat &&& readMask RName.CEL_PORT_CFG);
     let counted : Chip := foldl' (List.range 4) (fun l (c : Chip) => c.prbsCount p l) s.fresh;
     let c : Chip := (counted.wr RName.CEL_PORT_CFG p 0 new).set F.CEL_PORT_STS.CFG_ERROR 0 p;
     s.chip.Still ∧ p < 128 ∧ s.chip.role p = 0 ∧ s.chip.coverOf p = none ∧ bitsOf v.toNat 0 3 = 2 ∧ c.cfgBad p = false ∧ c.poolBad p = false ∧
     (s.chip.port p).waved = false) ∧
    (let s : State := (st (stp 2 chipP)); let p : Nat := 40; let x : PortX := s.chip.port p;
     s.chip.Still ∧ p < 128 ∧ (s.chip.is F.FLT_SAFE_STS.SAFE = false ∧ s.chip.bridgesVia p = []) ∧ x.step = 2 ∧ s.chip.role p ≠ 0 ∧ x.perst = false ∧
     x.hotReset = false ∧ s.chip.adm p ≠ admOos) ∧
    (∀ k ∈ [1, 3], let s : State := (st (stp k chipP)); let p : Nat := 40; let x : PortX := s.chip.port p;
     s.chip.Still ∧ p < 128 ∧ (s.chip.is F.FLT_SAFE_STS.SAFE = false ∧ s.chip.bridgesVia p = []) ∧ x.perst = false ∧ x.step = k) ∧
    (let s : State := (st (stp 4 chipP)); let p : Nat := 40; let x : PortX := s.chip.port p; let i : TrainInfo := (ti id);
     s.chip.Still ∧ p < 128 ∧ (s.chip.is F.FLT_SAFE_STS.SAFE = false ∧ s.chip.bridgesVia p = []) ∧ x.perst = false ∧ x.step = 4 ∧ s.chip.role p ≠ 3 ∧ i.width ≤ 16 ∧
     (i.adv.cxl = false ∨ 20 ≤ i.adv.version)) ∧
    (let s : State := (st ((stp 6 chipP).set F.CEL_LINK_STS.LTSSM ltRecEq 40)); let p : Nat := 40; let x : PortX := s.chip.port p;
     let i : TrainInfo := { (ti id) with phase := some 2 };
     s.chip.Still ∧ p < 128 ∧ (s.chip.is F.FLT_SAFE_STS.SAFE = false ∧ s.chip.bridgesVia p = []) ∧ x.perst = false ∧ 5 ≤ x.step ∧ x.step ≤ 9 ∧ i.phase = some 2 ∧ s.chip.ltssm p = ltRecEq) ∧
    (∀ k ∈ [5, 9], let s : State := (st (stp k chipP)); let p : Nat := 40; let x : PortX := s.chip.port p;
     s.chip.Still ∧ p < 128 ∧ (s.chip.is F.FLT_SAFE_STS.SAFE = false ∧ s.chip.bridgesVia p = []) ∧ x.perst = false ∧ 5 ≤ x.step ∧ x.step ≤ 9 ∧ x.up = false ∧ (ti id).phase = none) ∧
    (let s : State := (st ((stp 5 chipP).set F.CEL_LINK_STS.LTSSM ltL0 40)); let p : Nat := 40;
     s.chip.Still ∧ p < 128 ∧ 2 < (s.chip.port p).step ∧ isIdle (s.chip.ltssm p) = false) ∧
    (let s : State := (st (stp 10 chipP)); let p : Nat := 40; let x : PortX := s.chip.port p; let lds : Nat := 16; let m : Nat := 11;
     s.chip.Still ∧ p < 128 ∧ (s.chip.is F.FLT_SAFE_STS.SAFE = false ∧ s.chip.bridgesVia p = []) ∧ x.step = 10 ∧ lds < 17 ∧ s.chip.poolBad p = false ∧ x.flushing = false ∧
     s.chip.resetBusy p = false ∧ s.chip.role p = 2 ∧ s.chip.adm p = admDown ∧ m < 12) := by
  and_intros <;> decide +kernel

/-- The hypotheses of LinksCountAndRecover are met, clause by clause. -/
theorem test_hyps_LinksCountAndRecover :
    (let s : State := (st ((upp ltL0 chipP).set F.LNK_LANE_STS.ACTIVE 1 41 3)); let p : Nat := 40; let lane : Nat := 7; let c : Nat := p + lane / 4;
     let l : Nat := lane % 4;
     s.chip.AtRest ∧ p < 128 ∧ lane < 16 ∧ (s.chip.within msT (s.chip.port p).crcFails).length < 64 ∧
     (s.chip.within msT (s.chip.port p).rxErrs).length < 64 ∧ s.chip.is F.LNK_LANE_STS.ACTIVE c l = true ∧ s.chip.ltssm p = ltL0 ∧
     s.chip.is F.LNK_EQ.ADAPT_FREEZE c l = false) ∧
    (let s : State := (st { upp ltL0 chipP with msgs := [msg1], opens := [rq1] }); let p : Nat := 40; let m : Msg := msg1;
     s.chip.AtRest ∧ p < 128 ∧ s.chip.is F.CEL_PORT_STS.FLIT256 p = false ∧ m.iport = some p ∧ m.tail = false ∧
     s.chip.msgs.filter (fun y => (decide (y.id = m.id) || decide (y.origin = m.id)) && decide (y.iport = some p) && !y.tail) = [m] ∧
     s.chip.cuts.filter (fun y => decide (y.id = m.id) && decide (y.iport = p)) = [] ∧ m.loc = Loc.ingress p) ∧
    (let m : Msg := { msg1 with loc := Loc.egress 48 4 };
     let s : State := (st { upp ltL0 chipP with msgs := [m], opens := [rq1] }); let p : Nat := 40;
     s.chip.AtRest ∧ p < 128 ∧ s.chip.is F.CEL_PORT_STS.FLIT256 p = false ∧ m.iport = some p ∧ m.tail = false ∧
     s.chip.msgs.filter (fun y => (decide (y.id = m.id) || decide (y.origin = m.id)) && decide (y.iport = some p) && !y.tail) = [m] ∧
     s.chip.cuts.filter (fun y => decide (y.id = m.id) && decide (y.iport = p)) = [] ∧ m.loc ≠ Loc.ingress p ∧ m.inn = 0 ∧ m.refs = []) ∧
    (let s : State := (st (badLink (upp ltL0 chipP))); let p : Nat := 40;
     let recent : List Nat := List.filter (fun t => decide (s.chip.time < t + secT)) (s.chip.port p).requal;
     s.chip.AtRest ∧ p < 128 ∧ (s.chip.port p).up = true ∧ s.chip.ltssm p = ltL0 ∧ (s.chip.port p).dropAt = none ∧
     s.chip.badQuality p = true ∧ recent.length < 2) ∧
    (let s : State := (st ((tightPort (badLink (upp ltL0 chipP))).set F.CEL_PORT_STS.NEG_RATE 4 40)); let p : Nat := 40;
     let recent : List Nat := List.filter (fun t => decide (s.chip.time < t + secT)) (s.chip.port p).requal;
     s.chip.AtRest ∧ p < 128 ∧ (s.chip.port p).up = true ∧ s.chip.ltssm p = ltL0 ∧ (s.chip.port p).dropAt = none ∧
     s.chip.badQuality p = true ∧ 2 ≤ recent.length ∧ 0 < s.chip.fld F.CEL_PORT_STS.NEG_RATE p) ∧
    (let s : State := (st ((upp ltL0 chipP).set F.VCS_PORT_ADM.STATE admIn 40)); let p : Nat := 40;
     s.chip.AtRest ∧ p < 128 ∧ s.chip.Still ∧ isIdle (s.chip.ltssm p) = false ∧ (s.chip.port p).up = true ∧ (s.chip.port p).viols = [] ∧
     s.chip.adm p = admIn ∧ s.chip.role p = 2) ∧
    (let s : State := (st (chipP.set F.LNK_MARGIN_RES.BUSY 1 127 3)); let p : Nat := 127; let lane : Nat := 3;
     s.chip.AtRest ∧ p < 128 ∧ lane < 4 ∧ s.chip.is F.LNK_MARGIN_RES.BUSY p lane = true) := by
  and_intros <;> decide +kernel

/-- The hypotheses of PinsAndDownsMovePorts are met, clause by clause. -/
theorem test_hyps_PinsAndDownsMovePorts :
    (let s : State := (st (upp ltL0 chipP)); let p : Nat := 48; let x : PortX := s.chip.port p; let low : Nat := 1000;
     s.chip.Still ∧ p < 128 ∧ isIdle (s.chip.ltssm p) = false ∧ s.chip.role p = 1 ∧ s.chip.attachedOf p = none ∧ 1000 ≤ low ∧
     x.waved = true ∧ x.perst = false ∧ s.chip.adm p ≠ admOos ∧ s.chip.adm p ≠ admFailed) ∧
    (let s : State := (st (prs chipP)); let p : Nat := 48;
     s.chip.Still ∧ p < 128 ∧ (s.chip.port p).perst = true ∧ s.chip.role p = 1 ∧ s.chip.adm p ≠ admOos ∧ s.chip.adm p ≠ admFailed) ∧
    (let s : State := (st (upp ltL0 chipP)); let p : Nat := 40;
     s.chip.Still ∧ p < 128 ∧ isIdle (s.chip.ltssm p) = false ∧ s.chip.role p ≠ 0) ∧
    (let s : State := (st (fl chipP)); let p : Nat := 40; let x : PortX := s.chip.port p;
     s.chip.Still ∧ p < 128 ∧ x.flushing = true ∧ x.upHeld = false) ∧
    (let s : State := (st chipP); let p : Nat := 40; s.chip.Still ∧ p < 128 ∧ s.chip.role p = 2) ∧
    (∀ low ∈ [false, true], let s : State := (st (chipP.modPort 56 (fun x => { x with csbLow := low }))); let p : Nat := 56;
     s.chip.Still ∧ p < 128 ∧ s.chip.role p = 3 ∧ (s.chip.port p).csbLow = low) ∧
    (let s : State := (st (((upp ltL0 chipP).set F.CEL_PORT_STS.FLIT256 1 40).set F.CEL_PORT_STS.NEG_WIDTH 8 40)); let p : Nat := 40;
     s.chip.Still ∧ p < 128 ∧ (s.chip.port p).up = true ∧ s.chip.ltssm p = ltL0 ∧ s.chip.role p = 2 ∧
     s.chip.is F.CEL_PORT_STS.FLIT256 p = true ∧ 8 ≤ s.chip.fld F.CEL_PORT_STS.NEG_WIDTH p) ∧
    (∀ l ∈ [ltL1, ltL0p], let s : State := (st (upp l chipP)); let p : Nat := 40; s.chip.Still ∧ p < 128 ∧ s.chip.ltssm p = l) := by
  and_intros <;> decide +kernel

/-- The hypotheses of LaneTestsRun are met, clause by clause. -/
theorem test_hyps_LaneTestsRun :
    (let s : State := (st chipD); let c : Nat := 3; let v : W := 0x00000400#32;
     s.chip.AtRest ∧ c < 128 ∧ s.chip.role c = 0 ∧ s.chip.coverOf c = none ∧ (s.chip.port c).waved = true ∧
     s.chip.fld F.CEL_PORT_CFG.MAX_RATE c < 6 ∧ bitsOf v.toNat 11 3 < 4 ∧ bitAt v.toNat 10 = true) ∧
    (let s : State := (st chipD2); let c : Nat := 3;
     s.chip.AtRest ∧ c < 128 ∧ s.chip.is F.CEL_LINK_CFG.TEST_EN c = true ∧ s.chip.fld F.CEL_LINK_CFG.LOOP_MODE c = 4 ∧
     (s.chip.port c).loopStart + 24 * msT ≤ s.chip.time) ∧
    (let s : State := (st chipD); let c : Nat := 0; let l : Nat := 0; let v : W := 0x00000080#32;
     s.chip.AtRest ∧ c < 128 ∧ l < 4 ∧ bitAt v.toNat 7 = true) ∧
    (let s : State := (st (foldl' (List.range 4) (fun l c => c.wr .LNK_PRBS 3 l (w32 0xFFFFFFFF)) chipD2)); let c : Nat := 3;
     let l : Nat := 0;
     s.chip.AtRest ∧ c < 128 ∧ l < 4 ∧ s.chip.prbsOn c l = true) ∧
    (let s : State := (st (chipD.set F.LNK_PRBS.LOCK 1 3 2)); let c : Nat := 3; let l : Nat := 2;
     s.chip.AtRest ∧ c < 128 ∧ l < 4 ∧ s.chip.is F.LNK_PRBS.LOCK c l = true) ∧
    (let s : State := (st chipD); let c : Nat := 0; let l : Nat := 0; let v : W := 0x80000000#32;
     s.chip.AtRest ∧ c < 128 ∧ l < 4 ∧ bitAt v.toNat 31 = true ∧ (s.chip.lane (4 * c + l)).margining = false) ∧
    (let s : State := (st (chipD.set F.LNK_MARGIN_RES.BUSY 1 3 1)); let c : Nat := 3; let l : Nat := 1;
     s.chip.AtRest ∧ c < 128 ∧ l < 4 ∧ s.chip.is F.LNK_MARGIN_RES.BUSY c l = true ∧
     (s.chip.lane (4 * c + l)).scanStart + (s.chip.lane (4 * c + l)).scanLen ≤ s.chip.time) := by
  and_intros <;> decide +kernel
end Ports

namespace Messages

def winW : Win := { base := 1, size := 1, cfg := w32 (2^31 + 15), ta := [w32 (2^30+20)], tb := [3] }
def chipM : Chip := { (((((chipV.set F.VCS_INST_STS.ATTACHED 1 3).set F.VCS_INST_STS.ATTACHED 1 4).set F.VCS_PORT_ADM.STATE admIn 16).set F.VCS_PORT_ADM.STATE admIn 20).set F.VCS_PORT_ADM.STATE admIn 36) with wins := [(96, winW), (97, { winW with base := 5, cfg := w32 (2^31) }), (98, { winW with base := 7, ta := [w32 (2^30+36)] })] }
def inn (k : MsgKind) (a n : Nat) : MsgIn := { kind := k, tag := 7, addr := a, len := n, data := List.replicate n 3 }
def st1 (c : Chip) : State := { st c with kmp := {} }
def mm : Msg := { id := 5, kind := .memWr, src := 16, iport := some 16, region := 1, inst := 3, tag := 7, addr := 2^28, dpa := 640, dest := 20, len := 64, data := List.replicate 64 9, sc := 4, opn := 9, loc := .ingress 16, shared := 1 }
def mr : Msg := { mm with kind := .memRd, len := 0, data := [], rsv := 1, shared := 0, opn := 9 }
def oo : OpenReq := { id := 9, region := 1, epoch := 0, initiator := 16, inst := 3, vb := 0, kind := .memWr, tag := 7, rport := 16, dest := 20, ld := 0, addr := 2^28, dpa := 640, want := 0, start := 0, rd := 0, wr := 64 }
def one (m : Msg) (c : Chip := chipM) : State := st1 { c with msgs := [m], opens := [{ oo with kind := m.kind, dest := m.dest }] }
def seen (c : Chip) : Chip := { c with qOpen := [(20, 4095), (36, 4095)] }
def part (net node : Nat) : Machine.Part := { net := net, node := node }
def land : Msg := { mm with dest := 36, loc := .landing 2 1, lcred := true, toNode := 2, fromNode := 1, parts := [{ part 0 2 with landed := true }, { part 3 2 with landed := true }] }
def onMesh (n k : Nat) : Msg := { mm with dest := 36, loc := .mesh, lcred := true, toNode := 2, fromNode := 1, parts := [part 0 n, part 3 k] }
def copies : Msg := { land with refs := [{ port := 36, sc := 4, waiting := false }, { port := 32, sc := 4, waiting := true }] }
/-- Port 18 of block 4, a device with credits, as the target of the first window; and a region whose pool is spoken for. -/
def chipB : Chip :=
  let c := ((chipM.set F.CEL_PORT_CFG.ROLE 2 18).set F.VCS_PORT_ADM.STATE admIn 18).modPort 18 (fun x => { x with
    up := true, lds := some 1, crHdr := (List.range 12).map (fun i => (i, 3)), crData := (List.range 12).map (fun i => (i, 640)) })
  let c := (c.wr .VCS_VPPB_BIND 3 0 (w32 (2 ^ 30 + 18)))
  { c with wins := [(96, { winW with ta := [w32 (2^30+18)] })] }
def tight (c : Chip) : Chip := (c.set F.CEL_PORT_CFG.ROLE 2 17).modPort 17 (fun x => { x with initCr := [(0, 20000)] })
def cxl (c : Chip) : Chip := c.set F.CEL_PORT_STS.CXL_ACTIVE 1 16
def eg (sc : Nat) : Msg := { mm with loc := .egress 20 sc, sc := sc }
def crd (p : Nat) (d : Int) (c : Chip) : Chip := c.modPort 20 (fun x => { x with crHdr := (List.range 12).map (fun i => (i, 3)), crData := (List.range 12).map (fun i => (i, 640)), ptr := p, deficit := [(4, d), (5, d)] })
def en0 : Ended := ⟨3, 17, 1000, 64, 0⟩
def chipC : Chip := (chipM.wr .QOS_CON_CFG 16 0 (w32 (2^31 + 0x0105))).set F.QOS_CON_MIN.RATE 5 16
def chipC2 : Chip := (chipC.modPort 20 (fun x => { x with up := false }))

/-- The hypotheses of MessagesEnterTheirQueue are met, clause by clause. -/
theorem test_hyps_MessagesEnterTheirQueue :
    (let s : State := (st1 chipM); let p : Nat := 0; let m : MsgIn := (inn .memRd (2^28+64) 0); let x : PortX := s.chip.port p;
     s.chip.Still ∧ p < 128 ∧ m.vb < 256 ∧ m.data.length ≤ 4096 ∧ (x.up = false ∨ x.flushing = true)) ∧
    (let s : State := (st1 (cxl chipM)); let p : Nat := 16;
     let m : MsgIn := ({inn .memWr (2^28) 64 with malformed := true, decodable := false}); let x : PortX := s.chip.port p;
     s.chip.Still ∧ p < 128 ∧ m.vb < 256 ∧ m.data.length ≤ 4096 ∧ x.up = true ∧ x.flushing = false ∧ s.chip.role p = 1 ∧ s.chip.inQuarantine p = false ∧
     x.noTraffic = false ∧ s.chip.meters p m.kind = false ∧ s.chip.malformedIn p m = true ∧ (m.decodable && isRequest m.kind) = false) ∧
    (let s : State := (st1 (cxl chipM)); let p : Nat := 16; let m : MsgIn := (inn .memRd (2^28+64) 0);
     let x : PortX := s.chip.port p; let n : Nat := 3; let d : Nat := 20; let g : Tgt := { type := 1, port := 20, ld := 0, pbr := 0 };
     let v : Nat := 0; let dpa : Nat := 805306432; let sc : Nat := s.chip.classify p m.kind;
     let fits : Prop := slotsOf m.len ≤ threshold (s.chip.alphaSc (p / 16) sc) (s.chip.free (p / 16));
     let direct : Prop := blockOf p = blockOf d ∧ s.chip.egOpen d sc = true ∧ s.chip.hasCredit d (s.chip.msgOf p m n v) = true;
     s.chip.Still ∧ p < 128 ∧ m.vb < 256 ∧ m.data.length ≤ 4096 ∧ x.up = true ∧ x.flushing = false ∧ s.chip.role p = 1 ∧ s.chip.inQuarantine p = false ∧
     x.noTraffic = false ∧ s.chip.meters p m.kind = false ∧ s.chip.malformedIn p m = false ∧ s.chip.overflows p m = false ∧
     s.chip.attachedOf p = some n ∧ isMemAccess m.kind = true ∧ s.chip.is F.CEL_PORT_STS.CXL_ACTIVE p = true ∧
     s.chip.check n false (accessOf m.kind) m.addr = Check.target g v dpa ∧ s.chip.tgtPort g = some d ∧ s.chip.isDown d = false ∧
     s.chip.inQuarantine d = false ∧ ¬ direct ∧ fits) ∧
    (let s : State := (st1 (cxl (tight chipM))); let p : Nat := 16; let m : MsgIn := (inn .memRd (2^28+64) 0);
     let x : PortX := s.chip.port p; let n : Nat := 3; let d : Nat := 20; let g : Tgt := { type := 1, port := 20, ld := 0, pbr := 0 };
     let v : Nat := 0; let dpa : Nat := 805306432; let sc : Nat := s.chip.classify p m.kind;
     let fits : Prop := slotsOf m.len ≤ threshold (s.chip.alphaSc (p / 16) sc) (s.chip.free (p / 16));
     let direct : Prop := blockOf p = blockOf d ∧ s.chip.egOpen d sc = true ∧ s.chip.hasCredit d (s.chip.msgOf p m n v) = true;
     s.chip.Still ∧ p < 128 ∧ m.vb < 256 ∧ m.data.length ≤ 4096 ∧ x.up = true ∧ x.flushing = false ∧ s.chip.role p = 1 ∧ s.chip.inQuarantine p = false ∧
     x.noTraffic = false ∧ s.chip.meters p m.kind = false ∧ s.chip.malformedIn p m = false ∧ s.chip.overflows p m = false ∧
     s.chip.attachedOf p = some n ∧ isMemAccess m.kind = true ∧ s.chip.is F.CEL_PORT_STS.CXL_ACTIVE p = true ∧
     s.chip.check n false (accessOf m.kind) m.addr = Check.target g v dpa ∧ s.chip.tgtPort g = some d ∧ s.chip.isDown d = false ∧
     s.chip.inQuarantine d = false ∧ ¬ direct ∧ ¬ fits) ∧
    (let s : State := (st1 (cxl chipB)); let p : Nat := 16; let m : MsgIn := (inn .memRd (2^28+64) 0);
     let x : PortX := s.chip.port p; let n : Nat := 3; let d : Nat := 18; let g : Tgt := { type := 1, port := 18, ld := 0, pbr := 0 };
     let v : Nat := 0; let dpa : Nat := 805306432; let sc : Nat := s.chip.classify p m.kind;
     let direct : Prop := blockOf p = blockOf d ∧ s.chip.egOpen d sc = true ∧ s.chip.hasCredit d (s.chip.msgOf p m n v) = true;
     s.chip.Still ∧ p < 128 ∧ m.vb < 256 ∧ m.data.length ≤ 4096 ∧ x.up = true ∧ x.flushing = false ∧ s.chip.role p = 1 ∧ s.chip.inQuarantine p = false ∧
     x.noTraffic = false ∧ s.chip.meters p m.kind = false ∧ s.chip.malformedIn p m = false ∧ s.chip.overflows p m = false ∧
     s.chip.attachedOf p = some n ∧ isMemAccess m.kind = true ∧ s.chip.is F.CEL_PORT_STS.CXL_ACTIVE p = true ∧
     s.chip.check n false (accessOf m.kind) m.addr = Check.target g v dpa ∧ s.chip.tgtPort g = some d ∧ s.chip.isDown d = false ∧
     s.chip.inQuarantine d = false ∧ direct ∧ m.tail = true ∧ s.chip.role d ≠ 1) ∧
    (let s : State := (st1 (cxl chipM)); let p : Nat := 16; let m : MsgIn := (inn .memRdData (2^29) 0);
     let x : PortX := s.chip.port p; let n : Nat := 3; let reason : Nat := 0;
     s.chip.Still ∧ p < 128 ∧ m.vb < 256 ∧ m.data.length ≤ 4096 ∧ x.up = true ∧ x.flushing = false ∧ s.chip.role p = 1 ∧ s.chip.inQuarantine p = false ∧
     x.noTraffic = false ∧ s.chip.meters p m.kind = false ∧ s.chip.malformedIn p m = false ∧ s.chip.overflows p m = false ∧
     s.chip.attachedOf p = some n ∧ isMemAccess m.kind = true ∧ s.chip.is F.CEL_PORT_STS.CXL_ACTIVE p = true ∧
     s.chip.check n false 0 m.addr = Check.deny reason ∧ reason ≠ 2 ∧
     (m.kind = MsgKind.memRd ∨ m.kind = MsgKind.memRdData)) := by
  and_intros <;> decide +kernel

/-- The hypotheses of MessagesCrossToTheirEgress are met, clause by clause. -/
theorem test_hyps_MessagesCrossToTheirEgress :
    (∀ m ∈ [{ mm with rsv := 0 }, mr], let s : State := (one m); let p : Nat := 16;
     s.chip.AtRest ∧ s.chip.msgs = [m] ∧ s.chip.ert = [] ∧ s.chip.badWords = [] ∧ s.chip.markers = [] ∧ m.toHome = false ∧
     m.chan = none ∧ isRequest m.kind = true ∧ m.stat = none ∧ m.spent = false ∧ m.loc = Loc.ingress p ∧ m.released = true ∧ ((s.chip.port m.dest).up = true ∧ (s.chip.port m.dest).flushing = false ∧ (s.chip.port m.dest).noTraffic = false) ∧
     m.dest / 16 = p / 16 ∧ s.chip.egOpen m.dest m.sc = true ∧ m.committed = true ∧ m.iport = some 16) ∧
    (∀ m ∈ [{ mm with dest := 36 }, { mr with dest := 36 }], let s : State := (one m (seen chipM)); let p : Nat := 16;
     s.chip.AtRest ∧ s.chip.msgs = [m] ∧ s.chip.ert = [] ∧ s.chip.badWords = [] ∧ s.chip.markers = [] ∧ m.toHome = false ∧
     m.chan = none ∧ isRequest m.kind = true ∧ m.stat = none ∧ m.spent = false ∧ m.loc = Loc.ingress p ∧ m.released = true ∧ ((s.chip.port m.dest).up = true ∧ (s.chip.port m.dest).flushing = false ∧ (s.chip.port m.dest).noTraffic = false) ∧
     m.dest / 16 ≠ p / 16 ∧ s.chip.seenOpen m.dest m.sc = true ∧ m.committed = true ∧ m.lcred = false ∧ m.iport = some 16) ∧
    (let s : State := (one (onMesh 1 1)); let m : Msg := onMesh 1 1; let net : Nat := 0; let q : Machine.Part := part 0 1; let n : Nat := 2;
     s.chip.AtRest ∧ s.chip.msgs = [m] ∧ s.chip.ert = [] ∧ s.chip.badWords = [] ∧ s.chip.markers = [] ∧ m.toHome = false ∧
     m.chan = none ∧ isRequest m.kind = true ∧ m.stat = none ∧ m.spent = false ∧ m.loc = Loc.mesh ∧ net < 4 ∧
     List.find? (fun x => decide (x.net = net) && !x.landed && !x.atB) m.parts = some q ∧ (∀ x ∈ m.parts, x.net = net → x = q) ∧
     q.node ≠ m.toNode ∧ neighbour q.node (s.chip.route q.node m.rEpoch net m.toNode) = some n) ∧
    (let s : State := (one (onMesh 2 2)); let m : Msg := onMesh 2 2; let net : Nat := 3; let q : Machine.Part := part 3 2;
     s.chip.AtRest ∧ s.chip.msgs = [m] ∧ s.chip.ert = [] ∧ s.chip.badWords = [] ∧ s.chip.markers = [] ∧ m.toHome = false ∧
     m.chan = none ∧ isRequest m.kind = true ∧ m.stat = none ∧ m.spent = false ∧ m.loc = Loc.mesh ∧ net < 4 ∧
     List.find? (fun x => decide (x.net = net) && !x.landed && !x.atB) m.parts = some q ∧ (∀ x ∈ m.parts, x.net = net → x = q) ∧
     q.node = m.toNode ∧ s.chip.fld F.NOC_BND_STS.STATE m.toNode m.boundary = 0) ∧
    (let s : State := (one land); let m : Msg := land; let d : Nat := 2; let src : Nat := 1;
     s.chip.AtRest ∧ s.chip.msgs = [m] ∧ s.chip.ert = [] ∧ s.chip.badWords = [] ∧ s.chip.markers = [] ∧ m.toHome = false ∧
     m.chan = none ∧ isRequest m.kind = true ∧ m.stat = none ∧ m.spent = false ∧ m.loc = Loc.landing d src ∧ d < 8 ∧ (∀ x ∈ m.parts, x.landed = true ∧ x.held = false) ∧ m.refs = [] ∧
     ((s.chip.port m.dest).up = true ∧ (s.chip.port m.dest).flushing = false ∧ (s.chip.port m.dest).noTraffic = false) ∧ m.dest / 16 = d ∧
     0 < s.chip.egThreshold m.dest m.sc + s.chip.fld F.BUF_CFG.OVERSHOOT d) ∧
    (let s : State := (one copies); let m : Msg := copies; let d : Nat := 2; let src : Nat := 1; let a : Nat := 1; let b : Nat := 0;
     let refs : List McRef := List.map (fun x => { x with waiting := !s.chip.egOpen x.port x.sc }) (List.filter (fun x => !s.chip.isDown x.port) m.refs);
     s.chip.AtRest ∧ s.chip.msgs = [m] ∧ s.chip.ert = [] ∧ s.chip.badWords = [] ∧ s.chip.markers = [] ∧ m.toHome = false ∧
     m.chan = none ∧ isRequest m.kind = true ∧ m.stat = none ∧ m.spent = false ∧ m.loc = Loc.landing d src ∧ d < 8 ∧ (∀ x ∈ m.parts, x.landed = true ∧ x.held = false) ∧ m.refs ≠ [] ∧ s.chip.inners = [] ∧
     s.chip.residueSplit d (slotsOf m.len) = some (a, b) ∧ refs ≠ []) := by
  and_intros <;> decide +kernel

/-- The hypotheses of MessagesLeave are met, clause by clause. -/
theorem test_hyps_MessagesLeave :
    (let s : State := (st1 chipM); let p : Nat := 127; let sc : Nat := 11;
     s.chip.AtRest ∧ s.chip.badWords = [] ∧ p < 128 ∧ sc < 12) ∧
    (let s : State := (st1 chipM); let p : Nat := 0; let r : Nat := 7; let ps : List Nat := rangeFrom (16 * r) 16;
     s.chip.AtRest ∧ s.chip.badWords = [] ∧ p < 128 ∧ r < 8 ∧ 112 ∈ ps ∧ 16 ∉ ps) ∧
    (∀ k ∈ [(0, 0), (4, 1000)], let sc : Nat := k.1; let s : State := (one (eg sc) (crd 0 k.2 chipM)); let p : Nat := 20;
     let m : Msg := eg sc; let o : OpenReq := oo;
     s.chip.AtRest ∧ s.chip.badWords = [] ∧ p < 128 ∧ s.chip.msgs = [m] ∧ sc < 12 ∧ m.loc = Loc.egress p sc ∧ m.sc = sc ∧ m.refs = [] ∧
     m.fence = 0 ∧ m.tail = true ∧ m.edb = false ∧ m.promoted = none ∧ m.txn = 0 ∧ m.inn = 0 ∧ (s.chip.port p).up = true ∧
     (s.chip.port p).flushing = false ∧ s.chip.role p ≠ 0 ∧ s.chip.hasCredit p m = true ∧ (sc < 4 ∨ (s.chip.port p).ptr = sc - 4 ∧
     ↑(s.chip.lenOf p m) ≤ Tab.get 0 (s.chip.port p).deficit sc ∧ 4 ≤ sc) ∧ s.chip.opens = [o] ∧ o.id = m.opn ∧ o.grove = none ∧
     isRequest m.kind = true) ∧
    (let s : State := (st1 chipM); let p : Nat := 0; let mc : Nat := 11; s.chip.AtRest ∧ s.chip.badWords = [] ∧ p < 128 ∧ mc < 12) ∧
    (∀ f ∈ [0, 1], let s : State := (st1 ({ chipM with ended := [en0, {en0 with id := 4, initiator := 152, lat := 999999}] }.set F.CNT_HIST_CTRL.FREEZE f));
     let p : Nat := 0; let e : Ended := en0;
     s.chip.AtRest ∧ s.chip.badWords = [] ∧ p < 128 ∧ List.find? (fun y => decide (y.id = e.id)) s.chip.ended = some e ∧
     s.chip.is F.CNT_HIST_CTRL.FREEZE = decide (f = 1)) := by
  and_intros <;> decide +kernel

/-- The hypotheses of ContractsMeterTraffic are met, clause by clause. -/
theorem test_hyps_ContractsMeterTraffic :
    (∀ k ∈ [0, 1], let s : State := (st1 (chipM.modPort 16 (fun x => { x with refill := chipM.time / (64 * nsT) - k }))); let p : Nat := 16;
     let edges : Nat := s.chip.time / (64 * nsT) - (s.chip.port p).refill;
     s.chip.AtRest ∧ s.chip.badWords = [] ∧ p < 128 ∧ s.chip.msgs = [] ∧ edges = k) ∧
    (let s : State := (st1 chipC); let p : Nat := 16;
     s.chip.AtRest ∧ s.chip.badWords = [] ∧ p < 128 ∧ s.chip.is F.QOS_CON_CFG.EN p = true) ∧
    (let s : State := (st1 chipM); let p : Nat := 0;
     s.chip.AtRest ∧ s.chip.badWords = [] ∧ p < 128 ∧ s.chip.is F.QOS_CON_CFG.EN p = false ∧
     F.QOS_CON_CFG.DEPTH ∈ [F.QOS_CON_CFG.DEPTH, F.QOS_CON_CFG.OVH, F.QOS_CON_CFG.READ_CHARGE]) ∧
    (∀ at' ∈ [none, some (chip0.time - 5)], let m : Msg := { mm with metered := true };
     let s : State := (one m (chipC2.modPort 16 (fun x => { x with shortAt := at' }))); let p : Nat := 16; let x : PortX := s.chip.port p;
     s.chip.AtRest ∧ s.chip.badWords = [] ∧ p < 128 ∧ m ∈ s.chip.msgs ∧ m.loc = Loc.ingress p ∧ m.metered = true ∧ m.committed = true ∧
     m.released = true ∧ m.toHome = false ∧ s.chip.egOpen m.dest m.sc = false ∧ m.relAt + 100 * usT < s.chip.time ∧ x.shortAt = at' ∧
     (∀ t0 ∈ at', s.chip.time < t0 + secT)) := by
  and_intros <;> decide +kernel
end Messages

namespace Switches

/-- The virtual switches of chipV with their hosts attached. -/
def chipA : Chip := ((chipV.set F.VCS_INST_STS.ATTACHED 1 3).set F.VCS_INST_STS.ATTACHED 1 4).set F.VCS_PORT_ADM.STATE admIn 16
def rqA : ReqId := ⟨1, 10, 0x0501⟩
def drn (n : Nat) : Drain := { next := n, epoch := 1, began := 5, reqs := [rqA] }
def stP (c : Chip) : State := { chip := c, kmp := { sess := [{ sess1 with prog := [rqA], expect := 11 }], nextUid := 2 } }
def opq : OpenReq := { id := 9, region := 1, epoch := 0, initiator := 16, inst := 3, vb := 0, kind := .memRd, tag := 7, rport := 16, dest := 20, ld := 0, addr := 2^28, dpa := 640, want := 0, start := 0, rd := 64, wr := 0, sent := true }
def vs (st n : Nat) (v : Vppb → Vppb) (c : Chip) : Chip := ((c.set F.VCS_VPPB_STS.STATE st n 0).wr .ACC_EPOCH_CUR 0 0 1).modVppb n 0 v
def free3 : Chip := foldl' [0,1] (fun v c => (c.wr .VCS_VPPB_BIND 3 v 0).set F.VCS_VPPB_STS.STATE 0 3 v) (chipA.modVppb 3 0 (fun x => { x with reach := false }))
def ty2 (c : Chip) : Chip := c.wr .VCS_VPPB_BIND 3 0 (w32 (2 ^ 31 + 20))
def cmt (c : Chip) : Chip := c.wr .ACC_EPOCH_CMT 0 0 1
def dr (n : Nat) (c : Chip) : Chip := { (vs 3 3 (fun x => { x with reach := false, drain := some (drn n) }) c) with opens := [opq, { opq with id := 10, vb := 1 }] }
def pq (a : Nat) (f : PortX →
    PortX) (c : Chip) : Chip := foldl' [20, 36] (fun p c => ((c.set F.VCS_PORT_ADM.STATE a p).set F.CEL_LINK_STS.LTSSM (if a = admLoop then ltLoopLead else 1) p).modPort p f) c
def rel (c : Chip) : Chip := { c with relay := some (1, 0, true) }
def mb (c : Chip) : Chip := c.setVsw 3 { c.vsw 3 with mbx := some ⟨0x5100, [], 77, 5⟩ }
def epc (c : Chip) : Chip := { c.wr .ACC_EPOCH_CUR 0 0 3 with epochs := [(1, 7), (2, 8), (3, 9)] }
def bnd (c : Chip) : Chip := (epc c).modVppb 3 0 (fun x => { x with reach := false, binding := some (3, some rqA) })
def mpuL (c : Chip) : Chip := ((c.set F.MPU_ATTR.EN 1 7).wr .MPU_ATTR 5 0 (w32 0xFFFFFFFF)).wr .MPU_ATTR 6 0 (w32 (0x80000000))
def chipN : Chip := ((chipA.set F.MPU_CFG.EN 1).wr .MPU_ATTR 0 0 0)

/-- The hypotheses of VirtualSwitchesAreConfiguredAndReset are met, clause by clause. -/
theorem test_hyps_VirtualSwitchesAreConfiguredAndReset :
    (let s : State := (stP (ty2 (vs 5 3 (fun x => { x with sbr := true, reach := false }) chipA))); let n : Nat := 3;
     let v : Nat := 0; let w : W := 0; let on : Bool := s.chip.is F.VCS_INST_CFG.EN n;
     s.chip.AtRest ∧ n < 64 ∧ v < 64 ∧ on = true ∧ (bitAt w.toNat 31 = true ∨ ∃ k < 64, s.chip.bridgeBusy n k = true)) ∧
    (let s : State := (stP (ty2 (vs 5 3 (fun x => { x with sbr := true, reach := false }) chipA))); let n : Nat := 4;
     let v : Nat := 0; let w : W := 0; let on : Bool := s.chip.is F.VCS_INST_CFG.EN n;
     s.chip.AtRest ∧ n < 64 ∧ v < 64 ∧ on = true ∧ bitAt w.toNat 31 = false ∧ (∀ k < 64, s.chip.bridgeBusy n k = false)) ∧
    (let s : State := (stP (ty2 (vs 5 3 (fun x => { x with sbr := true, reach := false }) chipA))); let n : Nat := 0;
     let v : Nat := 0; let w : W := 0; let on : Bool := s.chip.is F.VCS_INST_CFG.EN n;
     s.chip.AtRest ∧ n < 64 ∧ v < 64 ∧ on = false ∧ bitAt w.toNat 31 = false) ∧
    (let s : State := (stP (ty2 (vs 5 3 (fun x => { x with sbr := true, reach := false }) chipA))); let n : Nat := 0;
     let v : Nat := 0; let w : W := 0x80020010#32; let usp : Nat := bitsOf w.toNat 0 7; let cnt : Nat := bitsOf w.toNat 16 7;
     let on : Bool := s.chip.is F.VCS_INST_CFG.EN n;
     let bad : Prop := s.chip.role usp ≠ 1 ∨ s.chip.instOf usp ≠ none ∨ 64 < cnt ∨ 2048 < s.chip.vppbAlloc + cnt;
     s.chip.AtRest ∧ n < 64 ∧ v < 64 ∧ on = false ∧ bitAt w.toNat 31 = true ∧ bad) ∧
    (let s : State := (stP ((free3.set F.VCS_INST_CFG.EN 0 3).set F.VCS_PORT_ADM.STATE admIn 16)); let n : Nat := 0;
     let v : Nat := 0; let w : W := 0x80020010#32; let usp : Nat := bitsOf w.toNat 0 7; let cnt : Nat := bitsOf w.toNat 16 7;
     let on : Bool := s.chip.is F.VCS_INST_CFG.EN n;
     let bad : Prop := s.chip.role usp ≠ 1 ∨ s.chip.instOf usp ≠ none ∨ 64 < cnt ∨ 2048 < s.chip.vppbAlloc + cnt;
     s.chip.AtRest ∧ n < 64 ∧ v < 64 ∧ on = false ∧ bitAt w.toNat 31 = true ∧ ¬bad) ∧
    (let s : State := (stP (ty2 (vs 5 3 (fun x => { x with sbr := true, reach := false }) chipA))); let n : Nat := 0;
     let v : Nat := 0; let b : Vppb := s.chip.vppb n v;
     s.chip.AtRest ∧ n < 64 ∧ v < 64 ∧ (s.chip.vppbCount n ≤ v ∨ b.sbr = true ∨ s.chip.is F.VCS_INST_STS.ATTACHED n = false)) ∧
    (let s : State := (stP (ty2 (vs 5 3 (fun x => { x with sbr := true, reach := false }) chipA))); let n : Nat := 3;
     let v : Nat := 1; let b : Vppb := s.chip.vppb n v; let st : Nat := s.chip.fld F.VCS_VPPB_STS.STATE n v;
     s.chip.AtRest ∧ n < 64 ∧ v < 64 ∧ v < s.chip.vppbCount n ∧ b.sbr = false ∧ s.chip.is F.VCS_INST_STS.ATTACHED n = true ∧ st ≠ 2) ∧
    (let s : State := (stP chipA); let n : Nat := 3; let v : Nat := 0; let b : Vppb := s.chip.vppb n v;
     let st : Nat := s.chip.fld F.VCS_VPPB_STS.STATE n v;
     s.chip.AtRest ∧ n < 64 ∧ v < 64 ∧ v < s.chip.vppbCount n ∧ b.sbr = false ∧ s.chip.is F.VCS_INST_STS.ATTACHED n = true ∧ st = 2 ∧ s.chip.epFull = false) ∧
    (let s : State := (stP (ty2 (vs 5 3 (fun x => { x with sbr := true, reach := false }) chipA))); let n : Nat := 3;
     let v : Nat := 0; let b : Vppb := s.chip.vppb n v; let st : Nat := s.chip.fld F.VCS_VPPB_STS.STATE n v;
     s.chip.AtRest ∧ n < 64 ∧ v < 64 ∧ v < s.chip.vppbCount n ∧ b.sbr = true ∧ b.reach = false ∧ s.chip.is F.VCS_INST_STS.ATTACHED n = true ∧ st = 5 ∧ s.chip.epFull = false) ∧
    (let s : State := (stP (ty2 (vs 3 3 (fun x => { x with sbr := true, reach := false, drain := some (drn 5) }) chipA)));
     let n : Nat := 3; let v : Nat := 0; let b : Vppb := s.chip.vppb n v;
     let st : Nat := s.chip.fld F.VCS_VPPB_STS.STATE n v;
     let d : Drain := drn 5;
     s.chip.AtRest ∧ n < 64 ∧ v < 64 ∧ v < s.chip.vppbCount n ∧ b.sbr = true ∧ b.reach = false ∧ s.chip.is F.VCS_INST_STS.ATTACHED n = true ∧ st = 3 ∧ b.drain = some d ∧ d.next = 5) := by
  and_intros <;> decide +kernel

/-- The hypotheses of DrainsAndSquashesEnd are met, clause by clause. -/
theorem test_hyps_DrainsAndSquashesEnd :
    (let s : State := (stP (cmt (dr 0 chipA))); let n : Nat := 3; let v : Nat := 0;
     let d : Drain := drn 0;
     let b : Vppb := s.chip.vppb n v; let q : ReqId := rqA; let x : Sess := { sess1 with prog := [rqA], expect := 11 };
     s.chip.AtRest ∧ n < 64 ∧ v < 64 ∧ (s.chip.vsw n).reset = 0 ∧ s.chip.removals = [] ∧ b.drain = some d ∧ s.chip.isCommitted d.epoch = true ∧
     d.next = 0 ∧ q ∈ d.reqs ∧ s.Owes q x) ∧
    (let s : State := (stP (ty2 (cmt (dr 5 chipA)))); let n : Nat := 3; let v : Nat := 0;
     let d : Drain := drn 5;
     let b : Vppb := s.chip.vppb n v; let type : Nat := (s.chip.bound n v).type;
     s.chip.AtRest ∧ n < 64 ∧ v < 64 ∧ (s.chip.vsw n).reset = 0 ∧ s.chip.removals = [] ∧ b.drain = some d ∧ s.chip.isCommitted d.epoch = true ∧
     d.next = 5 ∧ type ≠ 1) ∧
    (let s : State := (stP { dr 5 chipA with time := 6, epochs := [(1, 0)] }); let n : Nat := 3; let v : Nat := 0;
     let d : Drain := drn 5;
     let b : Vppb := s.chip.vppb n v;
     s.chip.AtRest ∧ n < 64 ∧ v < 64 ∧ (s.chip.vsw n).reset = 0 ∧ s.chip.removals = [] ∧ b.drain = some d ∧
     s.chip.isCommitted d.epoch = false ∧ s.chip.targetDown n v = false) ∧
    (let s : State := (stP { dr 5 chipA with time := 6, epochs := [(1, 0)] }); let n : Nat := 3; let v : Nat := 0;
     let d : Drain := drn 5;
     let b : Vppb := s.chip.vppb n v;
     s.chip.AtRest ∧ n < 64 ∧ v < 64 ∧ (s.chip.vsw n).reset = 0 ∧ s.chip.removals = [] ∧ b.drain = some d ∧
     s.chip.isCommitted d.epoch = false ∧ s.chip.time < d.began + s.chip.drainTo) ∧
    (let s : State := (stP { dr 5 (ty2 chipA) with epochs := [(1, 0)] }); let n : Nat := 3; let v : Nat := 0;
     let d : Drain := drn 5;
     let b : Vppb := s.chip.vppb n v; let type : Nat := (s.chip.bound n v).type;
     s.chip.AtRest ∧ n < 64 ∧ v < 64 ∧ (s.chip.vsw n).reset = 0 ∧ s.chip.removals = [] ∧ b.drain = some d ∧
     s.chip.isCommitted d.epoch = false ∧ d.began + s.chip.drainTo ≤ s.chip.time ∧ d.next = 5 ∧ type ≠ 1) ∧
    (let s : State := (stP { vs 4 3 (fun x => { x with reach := false, squash := some (drn 0) }) chipA with opens := [opq, { opq with id := 10, vb := 1 }] });
     let n : Nat := 3; let v : Nat := 0;
     let d : Drain := drn 0;
     let b : Vppb := s.chip.vppb n v; let q : ReqId := rqA; let x : Sess := { sess1 with prog := [rqA], expect := 11 };
     s.chip.AtRest ∧ n < 64 ∧ v < 64 ∧ (s.chip.vsw n).reset = 0 ∧ s.chip.removals = [] ∧ b.squash = some d ∧ d.next = 0 ∧ q ∈ d.reqs ∧
     s.Owes q x) := by
  and_intros <;> decide +kernel

/-- The hypotheses of QuarantineAndMailboxRun are met, clause by clause. -/
theorem test_hyps_QuarantineAndMailboxRun :
    (let s : State := (stP (pq admDown (fun x => { x with downSince := some 0, up := false, step := 2 }) chipA));
     let p : Nat := 20; let x : PortX := s.chip.port p; let since : Nat := 0;
     s.chip.Still ∧ p < 128 ∧ x.downSince = some since ∧ s.chip.adm p = admDown ∧ since + s.chip.downLimit ≤ s.chip.time ∧
     (s.chip.role p = 1 ∨ s.chip.role p = 2)) ∧
    (let s : State := (stP chipA); let p : Nat := 0;
     s.chip.Still ∧ p < 128 ∧ s.chip.adm p ≠ admDown) ∧
    (let s : State := (stP (pq admLoop (fun x => { x with loopLead := true, loopStart := chipA.time }) (chipA.set F.VCS_QUAR_CFG.LOOP_MS 5)));
     let p : Nat := 20; let x : PortX := s.chip.port p; let loop : Prop := s.chip.adm p = admLoop;
     let passed : Nat := x.loopStart + max 1 (s.chip.fld F.VCS_QUAR_CFG.LOOP_MS) * msT;
     s.chip.Still ∧ p < 128 ∧ loop ∧ isIdle (s.chip.ltssm p) = false ∧ s.chip.time < passed) ∧
    (let s : State := (stP (pq admLoop (fun x => { x with loopLead := true, loopStart := 0 }) chipA)); let p : Nat := 20;
     let x : PortX := s.chip.port p; let loop : Prop := s.chip.adm p = admLoop;
     let passed : Nat := x.loopStart + max 1 (s.chip.fld F.VCS_QUAR_CFG.LOOP_MS) * msT;
     s.chip.Still ∧ p < 128 ∧ loop ∧ isIdle (s.chip.ltssm p) = false ∧ passed ≤ s.chip.time ∧
     ∀ k ∈ [true, false], [({ locked := k } : LoopLane)].all (fun l => lanePasses l (s.chip.fld F.CEL_PORT_STS.NEG_RATE p) s.chip.loopLen) = k) ∧
    (let s : State := (stP (pq admLoop (fun x => { x with loopLead := true, loopStart := 0 }) (chipA.set F.VCS_QUAR_CFG.REQUIRE_LOOP 1)));
     let p : Nat := 20; let x : PortX := s.chip.port p; let loop : Prop := s.chip.adm p = admLoop;
     s.chip.Still ∧ p < 128 ∧ loop ∧ isIdle (s.chip.ltssm p) = false ∧ x.loopStart + 24 * msT ≤ s.chip.time ∧
     s.chip.is F.VCS_QUAR_CFG.REQUIRE_LOOP = true) ∧
    (let s : State := (stP (pq admLoop (fun x => { x with loopLead := true, loopStart := 0 }) chipA)); let p : Nat := 20;
     let x : PortX := s.chip.port p; let loop : Prop := s.chip.adm p = admLoop;
     s.chip.Still ∧ p < 128 ∧ loop ∧ isIdle (s.chip.ltssm p) = false ∧ x.loopStart + 24 * msT ≤ s.chip.time ∧
     s.chip.is F.VCS_QUAR_CFG.REQUIRE_LOOP = false ∧ s.chip.imgBinds = [] ∧ s.chip.imgInsts = []) ∧
    (let s : State := (stP chipA); let n : Nat := 3; let opcode : Nat := 49152; let d : List Byte := [];
     let x : VcsX := s.chip.vsw n;
     let ready : Prop := s.chip.is F.VCS_INST_CFG.EN n = true ∧ (s.chip.port (s.chip.usp n)).up = true ∧ x.mbx = none ∧
       s.chip.pw.dormant = false ∧ opcode < 2 ^ 16 ∧ d.length ≤ 4096 ∧ s.chip.is F.VCS_INST_STS.ATTACHED n = true ∧
       s.chip.inQuarantine (s.chip.usp n) = false;
     s.chip.Still ∧ n < 64 ∧ ready ∧ opcode = 49152) ∧
    (let s : State := (stP chipA); let n : Nat := 3; let opcode : Nat := 0; let d : List Byte := [];
     let x : VcsX := s.chip.vsw n;
     let ready : Prop := s.chip.is F.VCS_INST_CFG.EN n = true ∧ (s.chip.port (s.chip.usp n)).up = true ∧ x.mbx = none ∧
       s.chip.pw.dormant = false ∧ opcode < 2 ^ 16 ∧ d.length ≤ 4096 ∧ s.chip.is F.VCS_INST_STS.ATTACHED n = true ∧
       s.chip.inQuarantine (s.chip.usp n) = false;
     s.chip.Still ∧ n < 64 ∧ ready ∧ s.chip.mbxLocal n opcode d = none ∧ s.chip.relay = none) ∧
    (let s : State := (stP (rel chipA)); let n : Nat := 3; let opcode : Nat := 0; let d : List Byte := [];
     let x : VcsX := s.chip.vsw n;
     let y : Mbx := { opcode := opcode, payload := d, tag := s.chip.nextId % 2 ^ 32, since := s.chip.time };
     let ready : Prop := s.chip.is F.VCS_INST_CFG.EN n = true ∧ (s.chip.port (s.chip.usp n)).up = true ∧ x.mbx = none ∧
       s.chip.pw.dormant = false ∧ opcode < 2 ^ 16 ∧ d.length ≤ 4096 ∧ s.chip.is F.VCS_INST_STS.ATTACHED n = true ∧
       s.chip.inQuarantine (s.chip.usp n) = false;
     let num : Nat := 1; let e : Nat := 0; let v6 : Bool := true;
     s.chip.Still ∧ n < 64 ∧ ready ∧ s.chip.mbxLocal n opcode d = none ∧ s.chip.relay = some (num, e, v6) ∧
     16 + 4 * (relayWords n y).length ≤ s.chip.kmpMax e v6) ∧
    (let s : State := (stP (mb (rel chipA))); let n : Nat := 3; let x : VcsX := s.chip.vsw n;
     let z : Mbx := { opcode := 20736, payload := [], tag := 77, since := 5 };
     s.chip.Still ∧ n < 64 ∧ x.mbx = some z ∧ z.since + s.chip.relayTo ≤ s.chip.time) ∧
    (let s : State := (stP chipA); let n : Nat := 0; let x : VcsX := s.chip.vsw n;
     s.chip.Still ∧ n < 64 ∧ x.mbx = none) := by
  and_intros <;> decide +kernel

/-- The hypotheses of WindowsAndEpochsCommit are met, clause by clause. -/
theorem test_hyps_WindowsAndEpochsCommit :
    (let s : State := (stP chipA); let r : Nat := 0; let x : W := 0x80030002#32;
     let c : Chip := s.fresh.wr RName.DEC_STG_CTRL r 0 (w32 (accessWrite RName.DEC_STG_CTRL false ((s.chip.rd RName.DEC_STG_CTRL r).toNat) x.toNat));
     let n : Nat := c.fld F.DEC_STG_CTRL.INST r; let w : Nat := c.fld F.DEC_STG_CTRL.WIN r;
     let win : Win := winOf (s.chip.rd RName.DEC_STG_BASE r) (s.chip.rd RName.DEC_STG_SIZE r) (s.chip.rd RName.DEC_STG_CFG r) (List.map (fun i => s.chip.rd RName.DEC_STG_TGT_A r i) (List.range 16)) (List.map (fun i => s.chip.rd RName.DEC_STG_TGT_B r i) (List.range 16));
     let code : Nat := s.chip.windowCode n w win false; let k : Nat := 0;
     s.chip.AtRest ∧ r < 8 ∧ bitAt x.toNat 31 = true ∧ s.chip.is F.DEC_STG_STS.BUSY r = false ∧ s.chip.epFull = false ∧ code = 0 ∧
     k ≠ 32 * n + w) ∧
    (let s : State := (stP chipA); let r : Nat := 0; let x : W := 0x80000000#32;
     let c : Chip := s.fresh.wr RName.DEC_STG_CTRL r 0 (w32 (accessWrite RName.DEC_STG_CTRL false ((s.chip.rd RName.DEC_STG_CTRL r).toNat) x.toNat));
     let n : Nat := c.fld F.DEC_STG_CTRL.INST r; let w : Nat := c.fld F.DEC_STG_CTRL.WIN r;
     let win : Win := winOf (s.chip.rd RName.DEC_STG_BASE r) (s.chip.rd RName.DEC_STG_SIZE r) (s.chip.rd RName.DEC_STG_CFG r) (List.map (fun i => s.chip.rd RName.DEC_STG_TGT_A r i) (List.range 16)) (List.map (fun i => s.chip.rd RName.DEC_STG_TGT_B r i) (List.range 16));
     let code : Nat := s.chip.windowCode n w win false;
     s.chip.AtRest ∧ r < 8 ∧ bitAt x.toNat 31 = true ∧ s.chip.is F.DEC_STG_STS.BUSY r = false ∧ s.chip.epFull = false ∧ code ≠ 0) ∧
    (let s : State := (stP chipA); let e : Nat := s.chip.epReady;
     s.chip.AtRest ∧ (∀ (n v : Nat), (s.chip.vppb n v).binding = none) ∧ (∀ (n : Nat), (s.chip.vsw n).attaching = none) ∧ s.chip.gjobs = [] ∧
     s.chip.settles = [] ∧ s.chip.epDist e = 0) ∧
    (let s : State := (stP (epc chipA)); let e : Nat := s.chip.epReady;
     s.chip.AtRest ∧ (∀ (n v : Nat), (s.chip.vppb n v).binding = none) ∧ (∀ (n : Nat), (s.chip.vsw n).attaching = none) ∧ s.chip.gjobs = [] ∧
     s.chip.settles = [] ∧ s.chip.epDist e ≠ 0) ∧
    (let s : State := (stP (bnd chipA)); let n : Nat := 3; let v : Nat := 0; let e : Nat := 3; let q : ReqId := rqA;
     let x : Sess := { sess1 with prog := [rqA], expect := 11 };
     s.chip.AtRest ∧ n < 64 ∧ v < s.chip.vppbCount n ∧ (s.chip.vppb n v).binding = some (e, some q) ∧ s.chip.opens = [] ∧ s.chip.inners = [] ∧
     s.chip.epDist s.chip.epCur ≠ 0 ∧ (∀ y ∈ s.chip.epochs, s.chip.epDist y.1 ≤ s.chip.epDist s.chip.epCur) ∧ s.chip.gjobs = [] ∧ s.Owes q x) ∧
    (let s : State := (stP { epc chipA with opens := [{opq with epoch := 1}], stalls := [1], time := 10 });
     let y : Nat × Nat := (1, 7); let o : OpenReq := { opq with epoch := 1 };
     s.chip.AtRest ∧ List.find? (fun z => decide (z.1 = y.1)) s.chip.epochs = some y ∧ s.chip.opens = [o] ∧
     (s.chip.time < y.2 + s.chip.commitTo ∨ y.1 ∈ s.chip.stalls)) ∧
    (let s : State := (stP { epc chipA with opens := [{opq with epoch := 1}] }); let y : Nat × Nat := (1, 7);
     let o : OpenReq := { opq with epoch := 1 };
     s.chip.AtRest ∧ List.find? (fun z => decide (z.1 = y.1)) s.chip.epochs = some y ∧ s.chip.opens = [o] ∧
     y.2 + s.chip.commitTo ≤ s.chip.time ∧ y.1 ∉ s.chip.stalls) ∧
    (let s : State := (stP (mpuL chipA)); let ini : Nat := 0; let e : Nat := 5; let old : MpuEntry := s.chip.mpu e;
     s.chip.AtRest ∧ ini < 256 ∧ e < 32 ∧ old.lock = true) ∧
    (let s : State := (stP chipA); let ini : Nat := 0; let e : Nat := 0; let v : W := 0x80000000#32;
     let old : MpuEntry := s.chip.mpu e;
     let new : MpuEntry := { base := old.base, attr := v.toNat &&& readMask RName.MPU_ATTR };
     s.chip.AtRest ∧ ini < 256 ∧ e < 32 ∧ old.lock = false ∧ s.chip.mpuBad e new = false) ∧
    (let s : State := (stP chipA); let ini : Nat := 0; let e : Nat := 0; let v : W := 0xffffffff#32;
     let old : MpuEntry := s.chip.mpu e;
     let new : MpuEntry := { base := old.base, attr := v.toNat &&& readMask RName.MPU_ATTR };
     s.chip.AtRest ∧ ini < 256 ∧ e < 32 ∧ old.lock = false ∧ s.chip.mpuBad e new = true) ∧
    (let s : State := (stP (mpuL chipA)); let ini : Nat := 0; let e : Nat := 7; let old : MpuEntry := s.chip.mpu e;
     s.chip.AtRest ∧ ini < 256 ∧ e < 32 ∧ old.lock = false ∧ old.en = true) ∧
    (let s : State := (stP chipA); let ini : Nat := 0; let e : Nat := 0; let old : MpuEntry := s.chip.mpu e;
     s.chip.AtRest ∧ ini < 256 ∧ e < 32 ∧ old.lock = false ∧ old.en = false) := by
  and_intros
  all_goals first
    | exact fun n v => tget_all (fun x : Vppb => x.binding = none) _ _ rfl (by decide +kernel) _
    | exact fun n => tget_all (fun x : VcsX => x.attaching = none) _ _ rfl (by decide +kernel) _
    | decide +kernel

/-- The hypotheses of RegisterWritesReachTheMap are met, clause by clause. -/
theorem test_hyps_RegisterWritesReachTheMap :
    (let s : State := stP chipA; let ini : Nat := 136; let level : Nat := 2; let a : Nat := 805306432;
     let may : Nat → Bool := fun n => s.chip.masAllows (masterOf ini level) 1 a n;
     let g : Reg := { name := RName.PWR_ENTRY_CFG, i := 0, j := 0 };
     s.chip.AtRest ∧ ini < 156 ∧ level < 3 ∧ a < 2 ^ 40 ∧ s.chip.Reaches a g 0 ∧ g.name.ordinary = true ∧ may 4 = true ∧ may 2 = true) ∧
    (let s : State := stP chipA; let ini : Nat := 136; let a : Nat := 4194304;
     s.chip.AtRest ∧ masAt a = MasAt.unmapped ∧ a % 4 = 0 ∧ s.chip.masAllows (masterOf ini 2) 1 a 4 = true) ∧
    (let s : State := stP chipN; let a : Nat := 4315939088;
     s.chip.AtRest ∧ s.chip.ert = [] ∧ s.chip.is F.MPU_STS.FAULT = false ∧
     ∀ ini ∈ [136, 151, 152, 153, 154], s.chip.masAllows (masterOf ini 2) 1 a 2 = false) ∧
    (let s : State := stP (chipA.set F.LCS_STATE.STATE 2); let a : Nat := 4315939088;
     s.chip.AtRest ∧ s.chip.ert = [] ∧ s.chip.masAllows (masterOf 155 2) 1 a 2 = false) ∧
    (let s : State := stP chipA; let ini : Nat := 136; let a : Nat := 0x3FFFF8;
     s.chip.AtRest ∧ a < 2 ^ 40 ∧ a < 0x00400000 ∧ a % 8 = 0 ∧ s.chip.masAllows (masterOf ini 2) 1 a 8 = true ∧ s.chip.merge = [] ∧
     s.chip.badWords = [] ∧ s.chip.domOn 176 = true ∧ s.chip.fld F.NOC_BND_STS.STATE 8 0 = 0) := by
  refine ⟨⟨by decide +kernel, by decide, by decide, by decide, reaches_of (by decide) (by decide +kernel) (by decide +kernel), ?_⟩, ?_⟩
  all_goals and_intros <;> decide +kernel
end Switches

namespace Fabric

def ga0 : Nat := 0x1000
def hm : Nat := homeOf ga0
def gm : Msg := { id := 5, kind := .memRd, src := 16, iport := some 16, region := 1, inst := 3, tag := 7, addr := ga0, dpa := ga0, dest := 36, sc := 4, opn := 9, loc := .home hm, toHome := true, grove := some (1, 0), mv := .i }
def gop : OpenReq := { id := 9, region := 1, epoch := 0, initiator := 16, inst := 3, vb := 0, kind := .memRd, tag := 7, rport := 16, dest := 36, ld := 0, addr := 2^28, dpa := ga0, want := 0, start := 0, rd := 64, wr := 0, grove := some (1, 0) }
def gs (m : Msg) (c : Chip := chipG) : State := { st { c with msgs := [m], opens := [gop, {gop with id := 10}], nextId := 100 } with kmp := {} }
def owned (k : Nat) (c : Chip) : Chip := { c with snf := c.snf.set {} (snfKey hm (snfSet ga0) 0) { tag := snfTag ga0, st := 2, pv := 2 ^ k } }
def tx0 : Txn := { id := 21, home := hm, ga := ga0, grove := 1, gw := 0, op := .req .memRd .a, inst := 3, port := 16, tag := 7, own := 9, opens := [9], sc := 4, initiator := 16, st := 2, pv := 16, snoops := [{ inst := 4, kind := .biSnpInv, since := 0 }], owes := true }
def bi (k : MsgKind) : Msg := { gm with kind := k, inst := 4, src := 32, iport := some 32, opn := 0 }
def txR : Txn := { tx0 with op := .req .memRd .i, st := 0, pv := 0, snoops := [], reading := true }
def inR : Inner := { id := 31, who := .home 21, node := hm, initiator := 16, kind := .memRd, dest := 36, ld := 0, dpa := ga0, start := 0 }
def dev : Msg := { gm with kind := .memData, len := 64, data := List.replicate 64 6, inn := 31, opn := 0, src := 36, iport := some 36 }
def rq : ReqId := ⟨1, 10, 0x0501⟩
def sx (c : Chip) : State := { chip := c, kmp := { sess := [{ sess1 with prog := [rq], expect := 11 }], nextUid := 2 } }
def gj : GroveJob := { grove := 1, inst := some 4, epoch := 0, walking := true, req := rq }
def ato : Msg := { gm with kind := .ioAtomic .fetchAdd 8, len := 8, data := [1,0,0,0,0,0,0,0], addr := ga0 + 8, dpa := ga0 + 8 }
def upT (c : Chip) : Chip := (c.set F.VCS_PORT_ADM.STATE admIn 36).set F.CEL_PORT_STS.CXL_ACTIVE 1 36
def b36 (c : Chip) : Chip := (c.wr .VCS_VPPB_BIND 4 1 (w32 (2^30+36))).set F.VCS_VPPB_STS.STATE 2 4 1
def x20 : Ext := extOf 0x1014 5
def x36 : Ext := extOf 0x1024 9
def er (k : Nat) : Ert := { key := x20, tgt := x36, st := k, chan := 2 }
def cx (l : List Ert) (c : Chip := chipV) : Chip := (({ c with ert := l }.set F.VCS_PORT_ADM.STATE admIn 20).set F.VCS_PORT_ADM.STATE admIn 36)
def mvI (k : MsgKind) : Inner := { id := 31, who := .move 2 3 7, node := 8, initiator := 0x92, kind := k, dest := 20, ld := 0, dpa := 5 * extBytes + 3 * 4096 + 7 * 64, start := 0, epoch := some 0 }
def mvM (k : MsgKind) (p : Bool) : Msg := { id := 41, kind := k, src := 20, iport := some 20, region := 1, tag := 31, toHome := true, inn := 31, len := if k = .memData then 64 else 0, data := if k = .memData then List.replicate 64 6 else [], poison := p, loc := .landing 8 1, toNode := 8, fromNode := 1, parts := [{ net := 3, node := 8, landed := true }], chan := none }
def e3c (n : Nat) (is : Bool) : Ert := { er 2 with chunks := [{ k := 3, issued := is, fwd := 64, acked := n }], next := 4 }
def mi0 : Mirror := { id := 51, key := x20, line := 3, opn := 9, inn := 0, src := false, tgt := false }
/-- The data of an atomic at a graft in transfer, with the bytes its swap writes. -/
def mAt : Mirror := { mi0 with tgt := true, atom := some (.swap, 8, 0x500008, List.replicate 8 1), data := List.replicate 8 9 }
def oW : OpenReq := { gop with kind := .memWr, grove := none, rport := 16, dest := 20 }

/-- The hypotheses of HomeSlicesServeMembers are met, clause by clause. -/
theorem test_hyps_HomeSlicesServeMembers :
    (let s : State := (gs gm); let m : Msg := gm; let h : Nat := 1; let g : Nat := 1; let gw : Nat := 0;
     let line : Nat := m.addr / 64 * 64; let mv : MetaV := MetaV.i;
     s.chip.AtRest ∧ s.chip.msgs = [m] ∧ s.chip.badWords = [] ∧ s.chip.ert = [] ∧ h < 8 ∧ g < 32 ∧ m.loc = Loc.home h ∧ m.toHome = true ∧
     m.grove = some (g, gw) ∧ s.chip.gFell g = false ∧ m.queued = false ∧ m.given = none ∧ m.kind = MsgKind.memRd ∧ m.mv = mv ∧ m.inn = 0 ∧ s.chip.txns = [] ∧
     s.chip.inners = [] ∧ s.chip.copies = [] ∧ mv = MetaV.i ∧ s.chip.homeState h line = (0, 0)) ∧
    (let s : State := (gs { gm with mv := .a } (owned 4 chipG)); let m : Msg := { gm with mv := .a }; let h : Nat := 1; let g : Nat := 1;
     let gw : Nat := 0; let line : Nat := m.addr / 64 * 64; let mv : MetaV := MetaV.a; let k : Nat := 4;
     s.chip.AtRest ∧ s.chip.msgs = [m] ∧ s.chip.badWords = [] ∧ s.chip.ert = [] ∧ h < 8 ∧ g < 32 ∧ m.loc = Loc.home h ∧ m.toHome = true ∧
     m.grove = some (g, gw) ∧ s.chip.gFell g = false ∧ m.queued = false ∧ m.given = none ∧ m.kind = MsgKind.memRd ∧ m.mv = mv ∧ m.inn = 0 ∧ s.chip.txns = [] ∧
     s.chip.inners = [] ∧ s.chip.copies = [] ∧ mv = MetaV.a ∧ k < 64 ∧ k ≠ m.inst ∧ s.chip.homeState h line = (2, 2 ^ k)) ∧
    (let s : State := (gs (bi .biRspI)); let m : Msg := bi .biRspI; let h : Nat := 1; let g : Nat := 1; let gw : Nat := 0;
     s.chip.AtRest ∧ s.chip.msgs = [m] ∧ s.chip.badWords = [] ∧ s.chip.ert = [] ∧ h < 8 ∧ g < 32 ∧ m.loc = Loc.home h ∧ m.toHome = true ∧
     m.grove = some (g, gw) ∧ s.chip.gFell g = false ∧ m.queued = false ∧ m.given = none ∧ mcOf m.kind = 5 ∧ s.chip.txns = []) ∧
    (let s : State := (gs (bi .biRspI) { chipG with txns := [tx0] }); let m : Msg := bi .biRspI; let h : Nat := 1;
     let g : Nat := 1; let gw : Nat := 0; let line : Nat := m.addr / 64 * 64; let x : Txn := tx0;
     let kind : MsgKind := MsgKind.biSnpInv; let since : Nat := 0;
     s.chip.AtRest ∧ s.chip.msgs = [m] ∧ s.chip.badWords = [] ∧ s.chip.ert = [] ∧ h < 8 ∧ g < 32 ∧ m.loc = Loc.home h ∧ m.toHome = true ∧
     m.grove = some (g, gw) ∧ s.chip.gFell g = false ∧ m.queued = false ∧ m.given = none ∧ mcOf m.kind = 5 ∧ s.chip.txns = [x] ∧ x.home = h ∧ x.ga = line ∧
     x.grove = g ∧ x.gw = gw ∧ s.chip.inners = [] ∧ x.snoops = [{ inst := m.inst, kind := kind, since := since, rsp := none }] ∧ x.st = 2 ∧
     x.owes = true ∧ x.reading = false ∧ x.waits = false ∧ x.given = none ∧ x.wb = none ∧
     x.op = TxnOp.req MsgKind.memRd MetaV.a) ∧
    (let s : State := (gs dev { chipG with txns := [txR], inners := [inR] }); let m : Msg := dev; let h : Nat := 1;
     let g : Nat := 1; let gw : Nat := 0; let x : Txn := txR; let i : Machine.Inner := inR;
     s.chip.AtRest ∧ s.chip.msgs = [m] ∧ s.chip.badWords = [] ∧ s.chip.ert = [] ∧ h < 8 ∧ g < 32 ∧ m.loc = Loc.home h ∧ m.toHome = true ∧
     m.grove = some (g, gw) ∧ s.chip.gFell g = false ∧ m.queued = false ∧ m.given = none ∧ s.chip.txns = [x] ∧ s.chip.inners = [i] ∧ i.id = m.inn ∧
     i.who = Who.home x.id ∧ i.kind = MsgKind.memRd ∧ x.home = h ∧ x.op = TxnOp.req MsgKind.memRd MetaV.i ∧ x.st = 0 ∧ x.snoops = [] ∧
     x.owes = true ∧ x.waits = false ∧ x.fin = false ∧ (s.chip.port x.port).up = true ∧ (s.chip.port x.port).flushing = false ∧ (s.chip.port x.port).noTraffic = false) ∧
    (let s : State := (gs { bi .biConflict with inst := 4 }); let m : Msg := bi .biConflict; let h : Nat := 1; let g : Nat := 1;
     let gw : Nat := 0;
     s.chip.AtRest ∧ s.chip.msgs = [m] ∧ s.chip.badWords = [] ∧ s.chip.ert = [] ∧ h < 8 ∧ g < 32 ∧ m.loc = Loc.home h ∧ m.toHome = true ∧
     m.grove = some (g, gw) ∧ s.chip.gFell g = false ∧ m.queued = false ∧ m.given = none ∧ m.kind = MsgKind.biConflict ∧
     (s.chip.port (s.chip.usp m.inst)).up = true ∧ (s.chip.port (s.chip.usp m.inst)).flushing = false ∧ (s.chip.port (s.chip.usp m.inst)).noTraffic = false) ∧
    (let s : State := (gs (bi .biRspI) { chipG with txns := [tx0] }); let m : Msg := bi .biRspI; let h : Nat := 1;
     let g : Nat := 1; let gw : Nat := 0; let x : Txn := tx0;
     let y : Snoop := { inst := 4, kind := MsgKind.biSnpInv, since := 0 }; let n : Nat := 4;
     s.chip.AtRest ∧ s.chip.msgs = [m] ∧ s.chip.badWords = [] ∧ s.chip.ert = [] ∧ h < 8 ∧ g < 32 ∧ m.loc = Loc.home h ∧ m.toHome = true ∧
     m.grove = some (g, gw) ∧ s.chip.gFell g = false ∧ m.queued = false ∧ m.given = none ∧ s.chip.txns = [x] ∧ x.grove = g ∧ x.home = h ∧
     s.chip.gst g = gStanding ∧ y ∈ x.snoops ∧ y.inst = n ∧ y.rsp = none ∧ n < 64 ∧ y.since + s.chip.birspTo ≤ s.chip.time) := by
  and_intros <;> decide +kernel

/-- The hypotheses of GrovesRiseAndFall are met, clause by clause. -/
theorem test_hyps_GrovesRiseAndFall :
    (let s : State := (sx { chipG.set F.GRV_STS.STATE gFelling 1 with gholds := [{ grove := 1, req := rq, writes := false }] });
     let g : Nat := 1; let q : ReqId := rq; let x : Sess := { sess1 with prog := [rq], expect := 11 };
     g < 32 ∧ ({ s.chip with gholds := [] }).AtRest ∧ s.chip.gst g = gFelling ∧ s.chip.gholds = [{ grove := g, req := q, writes := false }] ∧
     s.Owes q x) ∧
    (let s : State := (sx chipV); let g : Nat := 0; let p : Nat := 0;
     g < 32 ∧ s.chip.AtRest ∧ p < 128 ∧ (∀ k < 32, s.chip.gwins k = [])) ∧
    (let s : State := (sx (b36 chipG)); let g : Nat := 1; let p : Nat := 36;
     let hosts : List Nat := (List.map (fun x => s.chip.usp x.1) (s.chip.bindingsOf p)).eraseDups; let h : Nat := 32;
     g < 32 ∧ s.chip.AtRest ∧ p < 128 ∧ s.chip.msgs = [] ∧ s.chip.txns = [] ∧ s.chip.gst g = gStanding ∧ s.chip.groveUses g p = true ∧
     h ∈ hosts) ∧
    (let s : State := (sx (upT ((chipG.set F.GRV_STS.STATE gSeeding 1).setJoined 1 0))); let g : Nat := 1;
     g < 32 ∧ s.chip.AtRest ∧ s.chip.gst g = gSeeding ∧ s.chip.targetsUp g = true ∧ s.chip.epFull = false) ∧
    (let s : State := (sx { chipG with gjobs := [gj] }); let g : Nat := 1; let j : GroveJob := gj; let n : Nat := 4;
     let x : Sess := { sess1 with prog := [rq], expect := 11 }; let k : Nat := 0;
     g < 32 ∧ s.chip.AtRest ∧ s.chip.gjobs = [j] ∧ j.grove = g ∧ j.walking = true ∧ j.inst = some n ∧ n < 64 ∧
     s.chip.walkDone g (some n) = true ∧ s.chip.epFull = false ∧ s.Owes j.req x ∧ k < 64 ∧ k ≠ n) ∧
    (let s : State := (gs ato); let g : Nat := 1; let m : Msg := ato; let h : Nat := 1; let gw : Nat := 0;
     let op : AtomOp := AtomOp.fetchAdd; let size : Nat := 8; let line : Nat := m.addr / 64 * 64;
     g < 32 ∧ s.chip.AtRest ∧ s.chip.msgs = [m] ∧ s.chip.ert = [] ∧ m.loc = Loc.home h ∧ h < 8 ∧ m.toHome = true ∧
     m.kind = MsgKind.ioAtomic op size ∧ m.grove = some (g, gw) ∧ s.chip.gFell g = false ∧ m.queued = false ∧ m.given = none ∧ s.chip.txns = [] ∧
     s.chip.inners = [] ∧ s.chip.homeState h line = (0, 0) ∧ s.chip.copies = []) ∧
    (let s : State := (gs ato { chipG with copies := [{ home := hm, ga := ga0, data := List.replicate 64 5 }] });
     let g : Nat := 1; let m : Msg := ato; let h : Nat := 1; let gw : Nat := 0; let op : AtomOp := AtomOp.fetchAdd;
     let size : Nat := 8; let line : Nat := m.addr / 64 * 64; let d : List Byte := (List.replicate 64 5);
     g < 32 ∧ s.chip.AtRest ∧ s.chip.msgs = [m] ∧ s.chip.ert = [] ∧ m.loc = Loc.home h ∧ h < 8 ∧ m.toHome = true ∧
     m.kind = MsgKind.ioAtomic op size ∧ m.grove = some (g, gw) ∧ s.chip.gFell g = false ∧ m.queued = false ∧ m.given = none ∧ s.chip.txns = [] ∧
     s.chip.inners = [] ∧ s.chip.homeState h line = (0, 0) ∧ s.chip.copies = [{ home := h, ga := line, data := d }]) ∧
    (let s : State := (sx (b36 chipG)); let g : Nat := 0; let r : Nat := 0; let v : W := 0x80000001#32;
     let ga : Nat := (s.chip.rd RName.SNF_PROBE_ADDR_LO r).toNat / 64 * 64 + v.toNat % 2 ^ 14 * 2 ^ 32;
     g < 32 ∧ s.chip.AtRest ∧ r < 8 ∧ bitAt v.toNat 31 = true ∧ homeOf ga ≠ r) ∧
    (let s : State := (sx (b36 chipG)); let g : Nat := 0; let r : Nat := 0; let v : W := 0x80000000#32;
     let ga : Nat := (s.chip.rd RName.SNF_PROBE_ADDR_LO r).toNat / 64 * 64 + v.toNat % 2 ^ 14 * 2 ^ 32;
     g < 32 ∧ s.chip.AtRest ∧ r < 8 ∧ bitAt v.toNat 31 = true ∧ homeOf ga = r ∧ s.chip.snfWay r ga = none) ∧
    (let s : State := (sx (owned 4 chipG |>.wr .SNF_PROBE_ADDR_LO hm 0 (w32 ga0))); let g : Nat := 0; let r : Nat := 1;
     let v : W := 0x80000000#32;
     let ga : Nat := (s.chip.rd RName.SNF_PROBE_ADDR_LO r).toNat / 64 * 64 + v.toNat % 2 ^ 14 * 2 ^ 32; let w : Nat := 0;
     g < 32 ∧ s.chip.AtRest ∧ r < 8 ∧ bitAt v.toNat 31 = true ∧ homeOf ga = r ∧ s.chip.snfWay r ga = some w) := by
  and_intros <;> decide +kernel

/-- The hypotheses of GraftsCopyAndSwitch are met, clause by clause. -/
theorem test_hyps_GraftsCopyAndSwitch :
    (let e : Ert := { er 1 with before := [9, 12] }; let s : State := sx { cx [e] with opens := [{ oW with acked := true }] }; let c : Nat := 2;
     s.chip.AtRest ∧ c < 16 ∧ s.chip.ert = [e] ∧ e.chan = c ∧ e.key.port < 128 ∧ e.st = 1 ∧ (∀ b ∈ e.before, (∀ o ∈ s.chip.opens, o.id = b → o.acked = true) ∧ ∀ i ∈ s.chip.inners, i.id ≠ b)) ∧
    (let s : State := (sx (cx [e3c 0 false])); let c : Nat := 2; let e : Ert := e3c 0 false; let k : Nat := 3;
     let x : ChunkX := { k := 3, fwd := 64 };
     s.chip.AtRest ∧ c < 16 ∧ s.chip.ert = [e] ∧ e.chan = c ∧ e.key.port < 128 ∧ e.st = 2 ∧ e.chunks.find? (fun y => y.locked && !y.issued) = some x ∧ x.k = k ∧
     s.chip.mirrors = [] ∧ s.chip.movAt.get 0 c ≤ s.chip.time ∧ s.chip.movAt.get 0 16 ≤ s.chip.time ∧ s.chip.moverMay e e.source = true) ∧
    (let s : State := (sx { cx [e3c 0 true] with msgs := [mvM .memData false], inners := [mvI .memRd] }); let c : Nat := 2;
     let e : Ert := e3c 0 true; let m : Msg := mvM .memData false;
     let i : Machine.Inner := mvI .memRd;
     let k : Nat := 3; let l : Nat := 7;
     s.chip.AtRest ∧ c < 16 ∧ s.chip.ert = [e] ∧ e.chan = c ∧ e.key.port < 128 ∧ e.st = 2 ∧ s.chip.msgs = [m] ∧ s.chip.inners = [i] ∧
     i.id = m.inn ∧ s.chip.atHome m = some 8 ∧ i.who = Who.move c k l ∧ m.status = 0 ∧ s.chip.badWords = [] ∧ i.kind = MsgKind.memRd ∧
     m.poison = false ∧ e.prev = none ∧
     ∀ k ∈ [1, 0], (s.chip.set F.CEL_PORT_CFG.ROLE (2 * k) 36).moverMay e e.tgt = decide (k = 1)) ∧
    (let s : State := (sx { cx [e3c 0 true] with msgs := [mvM .memData true], inners := [mvI .memRd] }); let c : Nat := 2;
     let e : Ert := e3c 0 true; let m : Msg := mvM .memData true;
     let i : Machine.Inner := mvI .memRd;
     let k : Nat := 3; let l : Nat := 7;
     s.chip.AtRest ∧ c < 16 ∧ s.chip.ert = [e] ∧ e.chan = c ∧ e.key.port < 128 ∧ e.st = 2 ∧ s.chip.msgs = [m] ∧ s.chip.inners = [i] ∧
     i.id = m.inn ∧ s.chip.atHome m = some 8 ∧ i.who = Who.move c k l ∧ m.status = 0 ∧ s.chip.badWords = [] ∧ i.kind = MsgKind.memRd ∧
     m.poison = true ∧ e.prev = none) ∧
    (let s : State := (sx { cx [e3c 3 true] with msgs := [mvM .cmp false], inners := [mvI .memWr] }); let c : Nat := 2;
     let e : Ert := e3c 3 true; let m : Msg := mvM .cmp false;
     let i : Machine.Inner := mvI .memWr;
     let k : Nat := 3; let l : Nat := 7;
     let acked : List ChunkX := List.map (fun y => if y.k = k then { k := y.k, locked := y.locked, issued := y.issued, fwd := y.fwd, acked := y.acked + 1 } else y) e.chunks;
     let whole : Prop := ∃ y ∈ acked, y.k = k ∧ 64 ≤ y.acked;
     s.chip.AtRest ∧ c < 16 ∧ s.chip.ert = [e] ∧ e.chan = c ∧ e.key.port < 128 ∧ e.st = 2 ∧ s.chip.msgs = [m] ∧ s.chip.inners = [i] ∧
     i.id = m.inn ∧ s.chip.atHome m = some 8 ∧ i.who = Who.move c k l ∧ m.status = 0 ∧ s.chip.badWords = [] ∧ i.kind = MsgKind.memWr ∧ ¬whole) ∧
    (let s : State := (sx { cx [e3c 63 true] with msgs := [mvM .cmp false], inners := [mvI .memWr] }); let c : Nat := 2;
     let e : Ert := e3c 63 true; let m : Msg := mvM .cmp false;
     let i : Machine.Inner := mvI .memWr;
     let k : Nat := 3; let l : Nat := 7;
     let acked : List ChunkX := List.map (fun y => if y.k = k then { k := y.k, locked := y.locked, issued := y.issued, fwd := y.fwd, acked := y.acked + 1 } else y) e.chunks;
     let whole : Prop := ∃ y ∈ acked, y.k = k ∧ 64 ≤ y.acked;
     s.chip.AtRest ∧ c < 16 ∧ s.chip.ert = [e] ∧ e.chan = c ∧ e.key.port < 128 ∧ e.st = 2 ∧ s.chip.msgs = [m] ∧ s.chip.inners = [i] ∧
     i.id = m.inn ∧ s.chip.atHome m = some 8 ∧ i.who = Who.move c k l ∧ m.status = 0 ∧ s.chip.badWords = [] ∧ i.kind = MsgKind.memWr ∧ whole) ∧
    (let s : State := (sx ((cx [er 2]).set F.MOV_CH_STS.CHUNKS 512 2)); let c : Nat := 2; let e : Ert := er 2;
     s.chip.AtRest ∧ c < 16 ∧ s.chip.ert = [e] ∧ e.chan = c ∧ e.key.port < 128 ∧ e.st = 2 ∧ 512 ≤ s.chip.fld F.MOV_CH_STS.CHUNKS c) ∧
    (let s : State := (sx (cx [{ er 3 with chunks := [{ k := 3 }] }])); let c : Nat := 2; let e : Ert := { er 3 with chunks := [{ k := 3 }] };
     s.chip.AtRest ∧ c < 16 ∧ s.chip.ert = [e] ∧ e.chan = c ∧ e.key.port < 128 ∧ e.st = 3 ∧ s.chip.mirrors = [] ∧ s.chip.msgs = [] ∧
     s.chip.epFull = false ∧ s.chip.badWords = []) ∧
    (let s : State := (sx (cx [er 1])); let c : Nat := 2; let e : Ert := er 1;
     s.chip.AtRest ∧ c < 16 ∧ s.chip.ert = [e] ∧ e.chan = c ∧ e.key.port < 128 ∧ s.chip.msgs = [] ∧ e.prev = none ∧ s.chip.badWords = [] ∧
     e.st = 1 ∧ e.since + s.chip.xferTo ≤ s.chip.time) ∧
    (let s : State := (sx (cx [{ er 3 with chunks := [{ k := 3 }] }])); let c : Nat := 2; let e : Ert := { er 3 with chunks := [{ k := 3 }] };
     s.chip.AtRest ∧ c < 16 ∧ s.chip.ert = [e] ∧ e.chan = c ∧ e.key.port < 128 ∧ s.chip.msgs = [] ∧ e.prev = none ∧ s.chip.badWords = [] ∧
     e.st = 3 ∧ e.since + s.chip.flipTo ≤ s.chip.time) ∧
    (let s : State := (sx { chipV with mirrors := [mi0], opens := [oW] }); let c : Nat := 0; let m : Mirror := mi0;
     let o : OpenReq := oW;
     s.chip.AtRest ∧ c < 16 ∧ s.chip.mirrors = [m] ∧ m.src = false ∧ s.chip.msgs = [] ∧ s.chip.inners = [] ∧ m.tgt = false ∧ m.atom = none ∧
     m.posted = false ∧ s.chip.opens = [o] ∧ o.id = m.opn ∧ o.kind = MsgKind.memWr ∧ o.mute = false ∧ (s.chip.port o.rport).up = true ∧
     (s.chip.port o.rport).flushing = false) ∧
    (let s : State := (sx { cx [er 2] with opens := [oW], mirrors := [mAt], qOpen := (cx []).qOpen.set 0 36 4095 });
     let c : Nat := 0; let m : Mirror := mAt; let e : Ert := er 2; let op : AtomOp := AtomOp.swap; let size : Nat := 8;
     let dpa : Nat := 5242888;
     let args : List Byte := List.replicate 8 1;
     s.chip.AtRest ∧ c < 16 ∧ s.chip.mirrors = [m] ∧ m.src = false ∧ s.chip.msgs = [] ∧ s.chip.inners = [] ∧ m.tgt = true ∧
     m.atom = some (op, size, dpa, args) ∧ m.dead = false ∧ m.status = 0 ∧ s.chip.ertKey m.key = some e ∧ e.active = true ∧
     (s.chip.port e.tgt.port).up = true ∧ (s.chip.port e.tgt.port).noTraffic = false ∧ s.chip.atomMay m = true) ∧
    (let s : State := (sx (cx [er 1])); let c : Nat := 0; let r : Nat := 0; let v : W := 0x80001014#32;
     let x : Ext := extOf v.toNat ((s.chip.rd RName.ERT_PROBE_DPA r).toNat);
     s.chip.AtRest ∧ c < 16 ∧ r < 8 ∧ bitAt v.toNat 31 = true ∧ x.port / 16 ≠ r) ∧
    (let s : State := (sx (cx [er 1])); let c : Nat := 0; let r : Nat := 0; let v : W := 0x80000000#32;
     let x : Ext := extOf v.toNat ((s.chip.rd RName.ERT_PROBE_DPA r).toNat);
     s.chip.AtRest ∧ c < 16 ∧ r < 8 ∧ bitAt v.toNat 31 = true ∧ x.port / 16 = r ∧ s.chip.ertKey x = none) ∧
    (let s : State := (sx ((cx [er 2]).wr .ERT_PROBE_DPA 1 0 5)); let c : Nat := 0; let r : Nat := 1;
     let v : W := 0x80001014#32;
     let x : Ext := extOf v.toNat ((s.chip.rd RName.ERT_PROBE_DPA r).toNat); let e : Ert := er 2;
     s.chip.AtRest ∧ c < 16 ∧ r < 8 ∧ bitAt v.toNat 31 = true ∧ x.port / 16 = r ∧ s.chip.ertKey x = some e) := by
  and_intros <;> decide +kernel
end Fabric

namespace Controllers

def rq : ReqId := ⟨1, 10, 0x0601⟩
def sx (c : Chip) : State := { chip := c, kmp := { sess := [{ sess1 with prog := [rq], expect := 11 }], nextUid := 2 } }
def pwc (k : PwrCmd) (c : Chip := chip0) : Chip := { c with pw := { c.pw with cmd := some k } }
def cl (v : Nat) (c : Chip) : Chip := (c.set F.NOC_BND_STS.STATE v 3 0)
def k1 : PwrCmd := { src := .kmp rq 0, action := 1, named := [163], doms := [163, 171], left := [163, 171], phase := 1 }
def k3 : PwrCmd := { src := .kmp rq 0, action := 3, named := [163], doms := [163, 171], left := [171], phase := 1 }
def m8 : Msg := { id := 5, kind := .memWr, src := 16, iport := some 16, region := 1, inst := 3, tag := 7, addr := 2^28, dpa := 640, dest := 52, len := 64, data := List.replicate 64 9, sc := 4, opn := 9, loc := .mesh, toNode := 3, fromNode := 1, lcred := true, parts := [{ net := 0, node := 3 }, { net := 3, node := 3 }] }
def k2 (l : List Nat) : PwrCmd := { src := .reg, action := 1, named := [163], doms := [163, 171, 164, 172], left := l, phase := 2 }
def oo3 : OpenReq := { id := 9, region := 3, epoch := 0, initiator := 16, inst := 3, vb := 0, kind := .memWr, tag := 7, rport := 16, dest := 20, ld := 0, addr := 2^28, dpa := 640, want := 0, start := 0, rd := 0, wr := 64 }
def ml : List (Nat × Nat × Nat × Nat × Nat) := [(1, 3, 0, 0, 0), (1, 3, 3, 1, 1)]
def mo : Msg := { m8 with fromNode := 1, toNode := 3, rEpoch := 0, parts := [{ net := 0, node := 2 }] }
def ep1 (c : Chip) : Chip := c.set F.NOC_ROUTE_CTRL.EPOCH 1
def clean (c : Chip) : Chip := { c with mail := [], outbox := [] }
def kr (src : PwrSrc) : PwrCmd := { src := src, action := 4, op := 2, phase := 5 }
def rs (src : PwrSrc) : Chip := { chip0 with pw := { cmd := some (kr src), raise := some 0, ao := 64000 } }
def al (c : Chip) : Chip := (c.set F.TMB_CFG.ALARM_ARM 1).wr .TMB_ALARM_LO 0 0 500

/-- A power command under way, all else at rest. -/
def Busy (s : State) (k : PwrCmd) : Prop :=
  ({ s.chip with pw := { s.chip.pw with cmd := none } } : Chip).AtRest ∧ s.chip.pw.cmd = some k ∧ k.src ≠ .image ∧ k.src ≠ .test
def late (s : State) (k : PwrCmd) : Option (Nat × Nat) := s.chip.firstRefusal k.src (decide (k.action = 3)) k.doms
/-- The entry k1 with a link up in its region. -/
def linked (k : PwrCmd) : Chip := cl 1 (pwc k ((chip0.set F.CEL_PORT_CFG.ROLE 2 50).modPort 50 (fun x => { x with up := true })))
def grafted (k : PwrCmd) : Chip := { cl 1 (pwc k) with ert := [{ key := ⟨1, 50, 0, 0⟩, tgt := ⟨1, 51, 0, 0⟩, st := 1, chan := 1 }] }
/-- The message m8 with its header held at the boundary, or not yet there. -/
def m8b (b : Bool) : Msg := { m8 with parts := [{ net := 0, node := 3, atB := b }, { net := 3, node := 3 }] }

/-- The hypotheses of PowerEntriesRun are met, clause by clause: the answers of the domains. -/
theorem test_hyps_PowerEntriesRun_answers :
    (let s : State := sx (linked k1); Busy s k1 ∧ 163 ∈ k1.left ∧ s.chip.refusal k1.src (decide (k1.action = 3)) 163 ≠ 0 ∧
      bndOf 163 = some (3, 0) ∧ s.chip.fld F.NOC_BND_STS.STATE 3 0 = 1 ∧ s.Owes rq { sess1 with prog := [rq], expect := 11 }) ∧
    (let s : State := sx (linked k1);
     let why : Nat := s.chip.refusal k1.src (decide (k1.action = 3)) 171;
     Busy s k1 ∧ 171 ∈ k1.left ∧ why = 0 ∧ k1.left.filter (fun x => decide (x ≠ 171)) ≠ [] ∧ ∃ x ∈ late s k1, x.1 < 182) ∧
    (let s : State := sx { cl 1 (pwc k1) with opens := [oo3] };
     Busy s k1 ∧ 163 ∈ k1.left ∧ s.chip.refusal k1.src (decide (k1.action = 3)) 163 = 0 ∧ late s k1 = none ∧ s.chip.delays 163 = true) ∧
    (let s : State := sx (cl 1 (pwc k1));
     Busy s k1 ∧ 171 ∈ k1.left ∧ s.chip.refusal k1.src (decide (k1.action = 3)) 171 = 0 ∧ late s k1 = none ∧ s.chip.delays 171 = false ∧
      k1.left.filter (fun x => decide (x ≠ 171)) ≠ []) ∧
    (let k : PwrCmd := { k1 with left := [171] }; let s : State := sx (cl 1 (pwc k));
     Busy s k ∧ s.chip.refusal k.src (decide (k.action = 3)) 171 = 0 ∧ late s k = none ∧ s.chip.delays 171 = false ∧
      k.left.filter (fun x => decide (x ≠ 171)) = [] ∧ k.action ≠ 3 ∧ k.phase = 1 ∧ k.since + s.chip.entryLimit ≤ s.chip.time) ∧
    (let s : State := sx (pwc k3);
     Busy s k3 ∧ s.chip.refusal k3.src (decide (k3.action = 3)) 171 = 0 ∧ late s k3 = none ∧ s.chip.delays 171 = false ∧
      k3.left.filter (fun x => decide (x ≠ 171)) = [] ∧ k3.action = 3 ∧ k3.src = .kmp rq 0 ∧ s.Owes rq { sess1 with prog := [rq], expect := 11 }) := by
  unfold Busy; and_intros <;> decide +kernel

/-- The hypotheses of PowerEntriesRun are met, clause by clause: draining, saving, the boundaries. -/
theorem test_hyps_PowerEntriesRun :
    (let k : PwrCmd := { k2 [3] with src := .kmp rq 0 }; let s : State := sx (grafted k);
     Busy s k ∧ k.phase = 2 ∧ 3 ∈ k.left ∧ late s k = some (163, 4) ∧ s.Owes rq { sess1 with prog := [rq], expect := 11 }) ∧
    (let k : PwrCmd := { k2 [3] with doms := [163, 171, 176] }; let s : State := sx { cl 1 (pwc k) with msgs := [{ m8 with loc := .landing 3 1 }] };
     Busy s k ∧ k.phase = 2 ∧ 3 ∈ k.left ∧ late s k = none ∧ ∃ m ∈ s.chip.msgs, m.inside 3 = true) ∧
    (let k : PwrCmd := k2 [3, 4]; let s : State := sx { cl 1 (pwc k) with msgs := [m8] };
     Busy s k ∧ k.phase = 2 ∧ 3 ∈ k.left ∧ late s k = none ∧ (∀ m ∈ s.chip.msgs, m.inside 3 = false) ∧ k.left.filter (fun x => decide (x ≠ 3)) ≠ []) ∧
    (let k : PwrCmd := k2 [3]; let s : State := sx { cl 1 (pwc k) with msgs := [m8] };
     Busy s k ∧ k.phase = 2 ∧ late s k = none ∧ (∀ m ∈ s.chip.msgs, m.inside 3 = false) ∧ k.left.filter (fun x => decide (x ≠ 3)) = []) ∧
    (let k : PwrCmd := { k2 [] with phase := 3 }; let s : State := sx (cl 2 (pwc k));
     Busy s k ∧ k.src = .reg ∧ k.doms.Nodup ∧ bndOf 163 = some (3, 0) ∧ 163 ∈ k.doms) ∧
    (∀ b : Bool, let k : PwrCmd := { k2 [3] with src := .kmp rq 0 }; let s : State := sx { cl 1 (pwc k) with msgs := [m8b b] };
     let m : Msg := m8b b; let p : Part := { net := 0, node := 3 };
     Busy s k ∧ s.chip.fld F.NOC_BND_STS.STATE m.toNode m.boundary = 1 ∧ m.toNode < 9 ∧ s.chip.msg? 5 = some m ∧
      (b = true → ∃ p ∈ m.parts, p.net = 0 ∧ p.atB = true ∧ p.landed = false) ∧
      (b = false → (∀ q ∈ m.parts, q.net = 0 → q.atB = false) ∧ s.chip.meshPart 5 0 = some (m, p) ∧ p.node = m.toNode)) ∧
    (∀ v ∈ [0, 2, 3, 4], ∀ b : Bool, let s : State := sx { cl v chip0 with msgs := [m8b b] };
     let m : Msg := m8b b; let p : Part := { net := 0, node := 3 };
     s.chip.AtRest ∧ s.chip.pw.cmd = none ∧ s.chip.fld F.NOC_BND_STS.STATE m.toNode m.boundary = v ∧ s.chip.msg? 5 = some m ∧
      (b = true → ∃ p ∈ m.parts, p.net = 0 ∧ p.atB = true ∧ p.landed = false) ∧
      (b = false → (∀ q ∈ m.parts, q.net = 0 → q.atB = false) ∧ s.chip.meshPart 5 0 = some (m, p) ∧ p.node = m.toNode)) ∧
    (∀ x ∈ [(3, 0), (8, 2)], let s : State := sx (chip0.set F.NOC_BND_STS.STATE 4 x.1 x.2);
     s.chip.AtRest ∧ s.chip.pw.cmd = none ∧ s.chip.fld F.NOC_BND_STS.STATE x.1 x.2 = 4 ∧
      (x.1 < 8 → s.chip.pw.testing.contains (regionDom x.1) = false)) := by
  unfold Busy; and_intros <;> decide +kernel

/-- The hypotheses of RoutesFlipAndFiguresAreCopied are met, clause by clause. -/
theorem test_hyps_RoutesFlipAndFiguresAreCopied :
    (let s : State := (sx (chip0.set F.NOC_ROUTE_CTRL.DRAINED 0));
     s.chip.AtRest ∧ s.chip.is F.NOC_ROUTE_CTRL.DRAINED = false) ∧
    (let s : State := (sx (chip0.wr .NOC_ROUTE 2 5 (w32 0x07FFFFFF))); let e : Nat := s.chip.routeEpoch; let n : Nat := 1;
     let a : Nat := 0; let b : Nat := 2;
     s.chip.AtRest ∧ s.chip.is F.NOC_ROUTE_CTRL.DRAINED = true ∧ s.chip.badRoute (1 - e) = some (n, a, b)) ∧
    (let s : State := (sx chip0); let e : Nat := s.chip.routeEpoch;
     s.chip.AtRest ∧ s.chip.is F.NOC_ROUTE_CTRL.DRAINED = true ∧ s.chip.badRoute (1 - e) = none ∧ s.chip.badWords = []) ∧
    (let s : State := (sx { ep1 (chip0.set F.NOC_ROUTE_CTRL.DRAINED 0) with markers := [(1,3,0,0,0)], msgs := [mo] });
     let e : Nat := s.chip.routeEpoch; let src : Nat := 1; let dst : Nat := 3; let net : Nat := 0; let vc : Nat := 0;
     let plane : Nat := 0;
     let mine : Msg → Prop := fun m => m.fromNode = src ∧ m.toNode = dst ∧ vcOf m.kind = vc ∧ m.plane net = plane;
     let old : Msg → Prop := fun m => mine m ∧ m.rEpoch ≠ e ∧ ∃ p ∈ m.parts, p.net = net ∧ p.landed = false ∧ p.atB = false;
     s.chip.AtRest ∧ src < 9 ∧ dst < 9 ∧ net < 4 ∧ vc < 4 ∧ plane < 2 ∧ (src, dst, net, vc, plane) ∈ s.chip.markers ∧
     (∃ m ∈ s.chip.msgs, old m)) ∧
    (let s : State := (sx { ep1 chip0 with markers := ml }); let e : Nat := s.chip.routeEpoch; let src : Nat := 1;
     let dst : Nat := 3; let net : Nat := 0; let vc : Nat := 0; let plane : Nat := 0;
     let mine : Msg → Prop := fun m => m.fromNode = src ∧ m.toNode = dst ∧ vcOf m.kind = vc ∧ m.plane net = plane;
     let old : Msg → Prop := fun m => mine m ∧ m.rEpoch ≠ e ∧ ∃ p ∈ m.parts, p.net = net ∧ p.landed = false ∧ p.atB = false;
     s.chip.AtRest ∧ src < 9 ∧ dst < 9 ∧ net < 4 ∧ vc < 4 ∧ plane < 2 ∧ (src, dst, net, vc, plane) ∈ s.chip.markers ∧
     (∀ m ∈ s.chip.msgs, ¬old m)) ∧
    (let s : State := (sx { ep1 (chip0.set F.NOC_ROUTE_CTRL.DRAINED 0) with markers := [(1,3,0,0,0)], msgs := [{ mo with parts := [{ net := 0, node := 2, landed := true, held := true }] }] });
     let e : Nat := s.chip.routeEpoch; let src : Nat := 1; let dst : Nat := 3; let net : Nat := 0; let vc : Nat := 0;
     let plane : Nat := 0;
     let mine : Msg → Prop := fun m => m.fromNode = src ∧ m.toNode = dst ∧ vcOf m.kind = vc ∧ m.plane net = plane;
     let old : Msg → Prop := fun m => mine m ∧ m.rEpoch ≠ e ∧ ∃ p ∈ m.parts, p.net = net ∧ p.landed = false ∧ p.atB = false;
     s.chip.AtRest ∧ src < 9 ∧ dst < 9 ∧ net < 4 ∧ vc < 4 ∧ plane < 2 ∧ (src, dst, net, vc, plane) ∈ s.chip.markers ∧
     (∀ m ∈ s.chip.msgs, ¬old m)) ∧
    (let s : State := (sx chip0); let node : Nat := 0; let t : Nat := 0;
     s.chip.AtRest ∧ node < 9 ∧ t < 8) ∧
    (let s : State := (sx chip0); let i : Nat := 0;
     s.chip.AtRest ∧ i < 156) := by
  and_intros <;> decide +kernel

/-- The hypotheses of FaultsPassUpAndClear are met, clause by clause. -/
theorem test_hyps_FaultsPassUpAndClear :
    (let s : State := (sx (clean (chip0.raise 5 3 clsC))); let c : Nat := 5; let p : Nat := 129; let bit : Nat := 17;
     let k : Nat := 0; let n : RName := RName.FLT_REC_STS;
     s.chip.AtRest ∧ c < 169 ∧ c ∈ s.chip.unpassed ∧ parentOf c = some (p, bit) ∧ k ≠ p ∧ n ∈ recRegs) ∧
    (let s : State := (sx (clean (chip0.raise 5 3 clsC))); let c : Nat := 5; let p : Nat := 129; let bit : Nat := 17;
     s.chip.AtRest ∧ c < 169 ∧ c ∈ s.chip.unpassed ∧ parentOf c = some (p, bit) ∧ s.chip.is F.FLT_REC_STS.OPEN p = false) ∧
    (let s : State := (sx chip0); let c : Nat := 0;
     s.chip.AtRest ∧ c < 169 ∧ s.chip.is F.FLT_REC_STS.OPEN c = false) ∧
    (let s : State := (sx (clean ((((chip0.set F.PWR_DROOP_STS.SLOWED 1 3)).raise 163 9 clsC)))); let c : Nat := 163;
     s.chip.AtRest ∧ c < 169 ∧ s.chip.is F.FLT_REC_STS.OPEN c = true ∧ s.chip.liveBits c ≠ 0) ∧
    (let s : State := (sx ((clean (chip0.raise 5 3 clsC)).set F.FLT_LOG_PTR.NEXT 63)); let c : Nat := 5;
     let n : Nat := s.chip.fld F.FLT_LOG_PTR.NEXT;
     s.chip.AtRest ∧ c < 169 ∧ s.chip.is F.FLT_REC_STS.OPEN c = true ∧ s.chip.liveBits c = 0 ∧ n = 63) ∧
    (let s : State := (sx (clean (chip0.raise 5 3 clsC))); let c : Nat := 5; let p : Nat := 129; let bit : Nat := 17;
     s.chip.AtRest ∧ c < 169 ∧ s.chip.is F.FLT_REC_STS.OPEN c = true ∧ s.chip.liveBits c = 0 ∧ parentOf c = some (p, bit)) ∧
    (let s : State := (sx { chip0 with failTest := some 0 }); let a : Nat := 0;
     s.chip.AtRest ∧ s.chip.failTest = some a ∧ a + 10 * msT ≤ s.chip.time) ∧
    (let s : State := (sx chip0); let k : Nat := 0;
     s.chip.AtRest ∧ s.chip.beatLost = false ∧ s.chip.started = true ∧ s.chip.pw.dormant = false ∧ k < 32) ∧
    (let s : State := (sx { chip0 with beatLost := true, slots := [] });
     s.chip.AtRest ∧ s.chip.beatLost = true ∧ s.chip.is F.FLT_SAFE_STS.SAFE = false) := by
  and_intros <;> decide +kernel

/-- The hypotheses of SensorsAndDroopsAct are met, clause by clause. -/
theorem test_hyps_SensorsAndDroopsAct :
    (let s : State := (sx chip0); let l : List Nat := [0, 0, 2560]; let i : Nat := 0; let v : Nat := 0;
     s.chip.AtRest ∧ i < 10 ∧ l[i]? = some v) ∧
    (let s : State := (sx chip0);
     s.chip.AtRest ∧ s.chip.pw.warm = false) ∧
    (let s : State := (sx chip0); let rail : Nat := 0;
     s.chip.AtRest ∧ rail < 7 ∧ rail ∉ s.chip.pw.rails) ∧
    (let s : State := (sx chip0); let rail : Nat := 0; let r : Nat := 1;
     s.chip.AtRest ∧ rail < 7 ∧ r ≠ rail) ∧
    (∀ raise ∈ [none, some 0], ∀ slowed ∈ [0, 1],
     let s : State := sx ({ chip0.set F.PWR_DROOP_STS.SLOWED slowed 3 with pw := { raise := raise, oldMv := 720 } }.set F.PWR_OP_STS.SETPOINT_MV 800);
     let set : Nat := s.chip.fld F.PWR_OP_STS.SETPOINT_MV;
     let mv : Nat := if s.chip.pw.raise.isSome then min s.chip.pw.oldMv set else set;
     let below : Nat → Nat → Prop := fun uv k => 1000 * uv < (1000 - 5 * k) * (1000 * mv);
     s.chip.AtRest ∧ s.chip.badWords = [] ∧ s.chip.is F.PWR_DROOP_STS.SLOWED 3 = decide (slowed = 1) ∧
      ¬below 800000 (s.chip.fld F.PWR_DROOP_CFG.WARN) ∧ below (mv * 900) (s.chip.fld F.PWR_DROOP_CFG.WARN) ∧
      ¬below (mv * 999) (s.chip.fld F.PWR_DROOP_CFG.RST) ∧ below 500000 (s.chip.fld F.PWR_DROOP_CFG.RST)) ∧
    (let s : State := (sx (chip0.set F.PWR_DROOP_STS.SLOWED 1 3)); let r : Nat := 3;
     s.chip.AtRest ∧ r < 8 ∧ s.chip.is F.PWR_DROOP_STS.SLOWED r = true ∧ s.chip.badWords = []) ∧
    (let s : State := (sx chip0); let v : W := 0x00100408#32; let warn : Nat := bitsOf v.toNat 0 8;
     let rel : Nat := bitsOf v.toNat 8 8; let rst : Nat := bitsOf v.toNat 16 8;
     s.chip.AtRest ∧ 4 ≤ warn ∧ warn ≤ 20 ∧ 2 ≤ rel ∧ rel + 1 ≤ warn ∧ warn + 4 ≤ rst ∧ rst ≤ 30) ∧
    (let s : State := (sx chip0); let v : W := 0; let warn : Nat := bitsOf v.toNat 0 8; let rel : Nat := bitsOf v.toNat 8 8;
     let rst : Nat := bitsOf v.toNat 16 8;
     s.chip.AtRest ∧ (warn < 4 ∨ 20 < warn ∨ rel < 2 ∨ warn < rel + 1 ∨ rst < warn + 4 ∨ 30 < rst)) := by
  and_intros <;> decide +kernel

/-- The hypotheses of ClocksAndTimeRun are met, clause by clause. -/
theorem test_hyps_ClocksAndTimeRun :
    (let s : State := (sx (rs .reg)); let k : PwrCmd := kr .reg; let t0 : Nat := 0; let retries : Nat := 0;
     ({ s.chip with pw := { s.chip.pw with cmd := none } }).AtRest ∧ s.chip.pw.cmd = some k ∧ s.chip.pw.raise = some t0 ∧
     s.chip.pw.opNext = none ∧ k.action = 4 ∧ k.phase = 5 ∧ k.op < 4 ∧ retries ≤ 3 ∧ k.src = PwrSrc.reg) ∧
    (let s : State := (sx (rs (.kmp rq 0))); let k : PwrCmd := kr (.kmp rq 0); let t0 : Nat := 0; let retries : Nat := 0;
     let q : ReqId := rq; let e : Nat := 0; let x : Sess := { sess1 with prog := [rq], expect := 11 };
     ({ s.chip with pw := { s.chip.pw with cmd := none } }).AtRest ∧ s.chip.pw.cmd = some k ∧ s.chip.pw.raise = some t0 ∧
     s.chip.pw.opNext = none ∧ k.action = 4 ∧ k.phase = 5 ∧ k.op < 4 ∧ retries ≤ 3 ∧ k.src = PwrSrc.kmp q e ∧ s.Owes q x) ∧
    (let s : State := (sx (rs .reg)); let k : PwrCmd := kr .reg; let t0 : Nat := 0; let retries : Nat := 4;
     ({ s.chip with pw := { s.chip.pw with cmd := none } }).AtRest ∧ s.chip.pw.cmd = some k ∧ s.chip.pw.raise = some t0 ∧
     s.chip.pw.opNext = none ∧ k.action = 4 ∧ k.phase = 5 ∧ k.op < 4 ∧ 3 < retries) ∧
    (let s : State := (sx (rs .reg)); let k : PwrCmd := kr .reg; let t0 : Nat := 0;
     ({ s.chip with pw := { s.chip.pw with cmd := none } }).AtRest ∧ s.chip.pw.cmd = some k ∧ s.chip.pw.raise = some t0 ∧
     s.chip.pw.opNext = none ∧ k.action = 4 ∧ k.phase = 5 ∧ k.op < 4 ∧
     t0 + clampTo 10 1000 (s.chip.fld F.PWR_AVS_CFG.SETTLE_TO) * 10 * usT ≤ s.chip.time ∧ k.src = PwrSrc.reg) ∧
    (let s : State := (sx (rs (.kmp rq 0))); let k : PwrCmd := kr (.kmp rq 0); let t0 : Nat := 0; let q : ReqId := rq;
     let e : Nat := 0; let x : Sess := { sess1 with prog := [rq], expect := 11 };
     ({ s.chip with pw := { s.chip.pw with cmd := none } }).AtRest ∧ s.chip.pw.cmd = some k ∧ s.chip.pw.raise = some t0 ∧
     s.chip.pw.opNext = none ∧ k.action = 4 ∧ k.phase = 5 ∧ k.op < 4 ∧
     t0 + clampTo 10 1000 (s.chip.fld F.PWR_AVS_CFG.SETTLE_TO) * 10 * usT ≤ s.chip.time ∧ k.src = PwrSrc.kmp q e ∧ s.Owes q x) ∧
    (let s : State := (sx (al { chip0 with pw := { ao := 64000 } }));
     ({ s.chip with pw := { s.chip.pw with cmd := none } }).AtRest ∧ s.chip.pw.cmd = none ∧ s.chip.is F.TMB_CFG.ALARM_ARM = true ∧
     s.chip.alarmNs ≤ s.chip.pw.ao / 64 ∧ s.chip.pw.dormant = false) ∧
    (let s : State := (sx (al { chip0 with pw := { ao := 64000, dormant := true, off := List.range 182 } }));
     let r : Nat := 0;
     ({ s.chip with pw := { s.chip.pw with cmd := none } }).AtRest ∧ s.chip.pw.cmd = none ∧ s.chip.is F.TMB_CFG.ALARM_ARM = true ∧
     s.chip.alarmNs ≤ s.chip.pw.ao / 64 ∧ s.chip.pw.dormant = true ∧ r < 8) ∧
    (let s : State := (sx (al { chip0 with pw := { ao := 64000, dormant := true, off := List.range 182 } }));
     let h : Nat := 0;
     ({ s.chip with pw := { s.chip.pw with cmd := none } }).AtRest ∧ s.chip.pw.cmd = none ∧ s.chip.is F.TMB_CFG.ALARM_ARM = true ∧
     s.chip.alarmNs ≤ s.chip.pw.ao / 64 ∧ s.chip.pw.dormant = true ∧ h < 5) ∧
    (let s : State := (sx chip0); let w : Nat := 0;
     ({ s.chip with pw := { s.chip.pw with cmd := none } }).AtRest ∧ s.chip.pw.cmd = none ∧ w < 3) ∧
    (let s : State := (sx (chip0.set F.PWR_CLK_STS.XTAL 1));
     ({ s.chip with pw := { s.chip.pw with cmd := none } }).AtRest ∧ s.chip.pw.cmd = none ∧ s.chip.is F.PWR_CLK_STS.XTAL = true) ∧
    (let s : State := (sx chip0); let ini : Nat := 0;
     ({ s.chip with pw := { s.chip.pw with cmd := none } }).AtRest ∧ s.chip.pw.cmd = none ∧ ini < 256) := by
  and_intros <;> decide +kernel
end Controllers

namespace Slots

def sx (c : Chip) : State := { chip := c }
def me (dma : Bool) (w : Nat) (l : List (Option Byte)) : MergeEntry := ⟨dma, w, l⟩
def e7 : List (Option Byte) := [none, some 1, some 2, some 3, some 4, some 5, some 6, some 7]
def sc (b c n l : Nat) : Scrub := ⟨b, c, n, l, 5⟩
def sl (st : Nat) (f : SlotX →
    SlotX) (c : Chip := chip0) : Chip :=
  let c := foldl' [3,5] (fun k c => (((c.set F.SLT_CTRL.EN 1 k).set F.SLT_STS.STATE st k).set F.SLT_STS.PRESENT 1 k).set F.SLT_CFG.CLASS (k / 4) k) c
  { c with slots := [(3, f {}), (5, f {})] }
def np (c : Chip) : Chip := foldl' [3,5] (fun k c => c.set F.SLT_STS.PRESENT 0 k) c
def cla (c : Chip) : Chip := foldl' [3,5] (fun k c => c.set F.SLT_STS.CLA 1 k) c
def tm (c : Chip) : Chip := foldl' [3,5] (fun k c => (c.set F.SLT_CFG.TMODE 1 k).set F.SLT_CFG.CLASS 1 k) c
def vg (x : SlotX) : SlotX := { x with vinOk := true }
def r0 (c : Chip) : Chip := foldl' [3,5] (fun k c => c.set F.SLT_CTRL.RETRY_MAX 0 k) c
def edg (c : Chip) : Chip := foldl' (List.range 4) (fun k c => foldl' (List.range 31) (fun j c => c.wr .CNT_EDGE k j (w32 (j * 3 + 1))) c) c
def jd (c : Chip) : Chip := { c with jtag := .debug }
def smpC : Chip := { (chip0.set F.CNT_SAMP_CFG.EN 1 2) with samp := [(2, (5, 0))], cnt := [(5, 2^40), (130, 2^48 - 1)] }

/-- The hypotheses of StoredDataIsWrittenAndScrubbed are met, clause by clause. -/
theorem test_hyps_StoredDataIsWrittenAndScrubbed :
    (let s : State := (sx chip0); let dma : Bool := false; let a : Nat := 0;
     let data : List Byte := (List.range 8).map (BitVec.ofNat 8); let w : Nat := a / 8;
     let i : Nat := 0;
     s.chip.AtRest ∧ a < 2 ^ 22 ∧ data.length ∈ [1, 2, 4, 8] ∧ a % data.length = 0 ∧ s.chip.mergeOf dma w = none ∧ data.length = 8 ∧ i < 8) ∧
    (let s : State := (sx chip0); let dma : Bool := false; let a : Nat := 0;
     let data : List Byte := (List.range 8).map (BitVec.ofNat 8); let w : Nat := a / 8;
     let b : Nat := 8;
     s.chip.AtRest ∧ a < 2 ^ 22 ∧ data.length ∈ [1, 2, 4, 8] ∧ a % data.length = 0 ∧ s.chip.mergeOf dma w = none ∧ data.length = 8 ∧
     (b < a ∨ a + 8 ≤ b)) ∧
    (let s : State := (sx chip0); let dma : Bool := false; let a : Nat := 0; let data : List Byte := [9];
     let w : Nat := a / 8;
     let mine : List MergeEntry := List.filter (fun e => decide (e.dma = dma)) s.chip.merge;
     s.chip.AtRest ∧ a < 2 ^ 22 ∧ data.length ∈ [1, 2, 4, 8] ∧ a % data.length = 0 ∧ s.chip.mergeOf dma w = none ∧ data.length < 8 ∧
     mine.length < 8) ∧
    (let s : State := (sx { chip0 with merge := (List.range 8).map (fun i => me false (i + 5) e7) });
     let dma : Bool := false; let a : Nat := 0; let data : List Byte := [9]; let w : Nat := a / 8;
     let mine : List MergeEntry := List.filter (fun e => decide (e.dma = dma)) s.chip.merge; let e : MergeEntry := me false 5 e7;
     let l : List MergeEntry := (List.range 7).map (fun i => me false (i + 6) e7);
     s.chip.AtRest ∧ a < 2 ^ 22 ∧ data.length ∈ [1, 2, 4, 8] ∧ a % data.length = 0 ∧ s.chip.mergeOf dma w = none ∧ data.length < 8 ∧
     mine = e :: l ∧ 7 ≤ l.length) ∧
    (let s : State := (sx { chip0 with merge := [me false 0 e7] }); let dma : Bool := false; let a : Nat := 1;
     let data : List Byte := [9]; let w : Nat := a / 8; let e : MergeEntry := me false 0 e7;
     let all : List (Option Byte) := mergeBytes e.bytes (a % 8) data;
     s.chip.AtRest ∧ a < 2 ^ 22 ∧ data.length ∈ [1, 2, 4, 8] ∧ a % data.length = 0 ∧ s.chip.mergeOf dma w = some e ∧ none ∈ all) ∧
    (let s : State := (sx { chip0 with merge := [me false 0 e7] }); let dma : Bool := false; let a : Nat := 0;
     let data : List Byte := [9]; let w : Nat := a / 8; let e : MergeEntry := me false 0 e7;
     let all : List (Option Byte) := mergeBytes e.bytes (a % 8) data; let i : Nat := 0;
     s.chip.AtRest ∧ a < 2 ^ 22 ∧ data.length ∈ [1, 2, 4, 8] ∧ a % data.length = 0 ∧ s.chip.mergeOf dma w = some e ∧ none ∉ all ∧ i < 8) ∧
    (let s : State := (sx { chip0 with merge := [me false 0 e7] }); let dma : Bool := false; let a : Nat := 0;
     let data : List Byte := [9]; let w : Nat := a / 8; let e : MergeEntry := me false 0 e7;
     let all : List (Option Byte) := mergeBytes e.bytes (a % 8) data; let b : Nat := 8;
     s.chip.AtRest ∧ a < 2 ^ 22 ∧ data.length ∈ [1, 2, 4, 8] ∧ a % data.length = 0 ∧ s.chip.mergeOf dma w = some e ∧ none ∉ all ∧
     (b < 8 * w ∨ 8 * w + 8 ≤ b)) ∧
    (let s : State := (sx chip0); let dma : Bool := false; let w : Nat := 0;
     s.chip.AtRest ∧ w < 524288 ∧ s.chip.mergeOf dma w = none) ∧
    (let s : State := (sx { chip0 with merge := [me false 0 e7] }); let dma : Bool := false; let w : Nat := 0;
     let e : MergeEntry := me false 0 e7; let i : Nat := 0;
     s.chip.AtRest ∧ w < 524288 ∧ s.chip.mergeOf dma w = some e ∧ e.bytes.length = 8 ∧ s.chip.badWords = [] ∧ i < 8) ∧
    (let s : State := (sx { chip0 with merge := [me false 0 e7] }); let dma : Bool := false; let w : Nat := 0;
     let e : MergeEntry := me false 0 e7; let b : Nat := 8;
     s.chip.AtRest ∧ w < 524288 ∧ s.chip.mergeOf dma w = some e ∧ e.bytes.length = 8 ∧ s.chip.badWords = [] ∧ (b < 8 * w ∨ 8 * w + 8 ≤ b)) ∧
    (let s : State := (sx { chip0 with merge := [me false 0 e7] }); let dma : Bool := false; let w : Nat := 0;
     let bad : Bool := true; let e : MergeEntry := me false 0 e7;
     s.chip.AtRest ∧ w < 524288 ∧ s.chip.mergeOf dma w = some e ∧ e.bytes.length = 8 ∧ s.chip.badWords = [] ∧ bad = true) ∧
    (let s : State := (sx chip0); let blk : Nat := 0; let c : Nat := 0; let i : Nat := 16 * blk + c;
     let v : W := 0xffffffff#32; let first : Nat := v.toNat % 2 ^ 20;
     let last : Nat := min (s.chip.fld F.ECC_SCRUB_END.LAST i) (clusterWords blk c - 1);
     s.chip.AtRest ∧ blk < 9 ∧ c < 6 - blk / 8 ∧ (last < first ∨ (s.chip.scrubOf blk c).isSome = true)) ∧
    (let s : State := (sx chip0); let blk : Nat := 0; let c : Nat := 0; let i : Nat := 16 * blk + c; let v : W := 0;
     let first : Nat := v.toNat % 2 ^ 20;
     let last : Nat := min (s.chip.fld F.ECC_SCRUB_END.LAST i) (clusterWords blk c - 1);
     s.chip.AtRest ∧ blk < 9 ∧ c < 6 - blk / 8 ∧ first ≤ last ∧ s.chip.scrubOf blk c = none) ∧
    (let s : State := (sx { chip0 with scrubs := [sc 0 0 3 9] }); let blk : Nat := 0; let c : Nat := 0;
     let x : Scrub := { blk := 0, c := 0, next := 3, last := 9, since := 5 }; let err : Nat := 0;
     s.chip.AtRest ∧ blk < 9 ∧ c < 6 - blk / 8 ∧ s.chip.scrubs = [x] ∧ x.blk = blk ∧ x.c = c ∧ x.next ≤ x.last ∧ x.next < 2 ^ 20 ∧ err < 4 ∧
     err = 0) ∧
    (let s : State := (sx { chip0 with scrubs := [sc 0 0 3 9] }); let blk : Nat := 0; let c : Nat := 0;
     let x : Scrub := { blk := 0, c := 0, next := 3, last := 9, since := 5 }; let err : Nat := 1;
     s.chip.AtRest ∧ blk < 9 ∧ c < 6 - blk / 8 ∧ s.chip.scrubs = [x] ∧ x.blk = blk ∧ x.c = c ∧ x.next ≤ x.last ∧ x.next < 2 ^ 20 ∧ err < 4 ∧
     err = 1 ∧ blk < 8 ∧ c = 0) ∧
    (let s : State := (sx { chip0 with scrubs := [sc 0 0 3 9] }); let blk : Nat := 0; let c : Nat := 0;
     let x : Scrub := { blk := 0, c := 0, next := 3, last := 9, since := 5 }; let err : Nat := 2;
     s.chip.AtRest ∧ blk < 9 ∧ c < 6 - blk / 8 ∧ s.chip.scrubs = [x] ∧ x.blk = blk ∧ x.c = c ∧ x.next ≤ x.last ∧ x.next < 2 ^ 20 ∧ err < 4 ∧
     2 ≤ err ∧ blk < 8 ∧ c = 0) ∧
    (let s : State := (sx { chip0 with scrubs := [sc 2 1 35 99] }); let blk : Nat := 2; let c : Nat := 1;
     let x : Scrub := { blk := 2, c := 1, next := 35, last := 99, since := 5 }; let err : Nat := 2;
     s.chip.AtRest ∧ blk < 9 ∧ c < 6 - blk / 8 ∧ s.chip.scrubs = [x] ∧ x.blk = blk ∧ x.c = c ∧ x.next ≤ x.last ∧ x.next < 2 ^ 20 ∧ err < 4 ∧
     2 ≤ err ∧ blk < 8 ∧ c = 1 ∧ (∀ g < 32, s.chip.gst g ≠ gStanding ∧ s.chip.gst g ≠ gFelling) ∧ s.chip.fld F.SNF_RETIRE.COUNT blk < 256) ∧
    (let s : State := (sx { chip0 with scrubs := [sc 8 2 3 9] }); let blk : Nat := 8; let c : Nat := 2;
     let x : Scrub := { blk := 8, c := 2, next := 3, last := 9, since := 5 }; let err : Nat := 2;
     s.chip.AtRest ∧ blk < 9 ∧ c < 6 - blk / 8 ∧ s.chip.scrubs = [x] ∧ x.blk = blk ∧ x.c = c ∧ x.next ≤ x.last ∧ x.next < 2 ^ 20 ∧ err < 4 ∧
     2 ≤ err ∧ blk = 8) ∧
    (let s : State := (sx { chip0 with scrubs := [sc 8 2 10 9] }); let blk : Nat := 8; let c : Nat := 2;
     let x : Scrub := { blk := 8, c := 2, next := 10, last := 9, since := 5 };
     s.chip.AtRest ∧ blk < 9 ∧ c < 6 - blk / 8 ∧ s.chip.scrubs = [x] ∧ x.blk = blk ∧ x.c = c ∧ x.last < x.next) := by
  and_intros <;> decide +kernel

/-- The hypotheses of SlotsAreConfigured are met, clause by clause. -/
theorem test_hyps_SlotsAreConfigured :
    (let s : State := (sx ((chip0.set F.SLT_CFG.TMODE 1 3).set F.SLT_CFG.CLASS 0 3)); let k : Nat := 3;
     let bad : Nat →
       Bool := fun ilim => slotBad (s.chip.fld F.SLT_CFG.CLASS k) (s.chip.fld F.SLT_CFG.TMODE k) (s.chip.fld F.SLT_SHUNT.RSH k) ilim;
     let on : Bool := s.chip.slOn k; let v : W := 0;
     s.chip.AtRest ∧ k < 32 ∧ bitAt v.toNat 30 = false ∧ bitAt v.toNat 31 = false ∧ on = false ∧ bad (s.chip.fld F.SLT_LIMIT.ILIM k) = true) ∧
    (let s : State := (sx chip0); let k : Nat := 0;
     let bad : Nat →
       Bool := fun ilim => slotBad (s.chip.fld F.SLT_CFG.CLASS k) (s.chip.fld F.SLT_CFG.TMODE k) (s.chip.fld F.SLT_SHUNT.RSH k) ilim;
     let on : Bool := s.chip.slOn k; let v : W := 0;
     s.chip.AtRest ∧ k < 32 ∧ bitAt v.toNat 30 = false ∧ bitAt v.toNat 31 = false ∧ on = false ∧ bad (s.chip.fld F.SLT_LIMIT.ILIM k) = false) ∧
    (let s : State := (sx (r0 (tm (cla (sl slPowered vg))))); let k : Nat := 3; let on : Bool := s.chip.slOn k;
     let v : W := 0;
     s.chip.AtRest ∧ k < 32 ∧ bitAt v.toNat 30 = false ∧ bitAt v.toNat 31 = false ∧ on = true) ∧
    (let s : State := (sx chip0); let k : Nat := 0;
     let bad : Nat →
       Bool := fun ilim => slotBad (s.chip.fld F.SLT_CFG.CLASS k) (s.chip.fld F.SLT_CFG.TMODE k) (s.chip.fld F.SLT_SHUNT.RSH k) ilim;
     let v : W := 0x0000ffff#32;
     s.chip.AtRest ∧ k < 32 ∧ bad (v.toNat % 2 ^ 16) = true) ∧
    (let s : State := (sx chip0); let k : Nat := 0;
     let bad : Nat →
       Bool := fun ilim => slotBad (s.chip.fld F.SLT_CFG.CLASS k) (s.chip.fld F.SLT_CFG.TMODE k) (s.chip.fld F.SLT_SHUNT.RSH k) ilim;
     let v : W := 0;
     s.chip.AtRest ∧ k < 32 ∧ bad (v.toNat % 2 ^ 16) = false) ∧
    (let s : State := (sx (r0 (tm (cla (sl slPowered vg))))); let k : Nat := 3;
     s.chip.AtRest ∧ k < 32 ∧ s.chip.slSt k ≠ slDisabled) ∧
    (let s : State := (sx chip0); let k : Nat := 0; let b : Bool := true;
     s.chip.AtRest ∧ k < 32 ∧ s.chip.slSt k = slDisabled ∧ b = true) ∧
    (let s : State := (sx chip0); let k : Nat := 0; let b : Bool := false;
     s.chip.AtRest ∧ k < 32 ∧ s.chip.slSt k = slDisabled ∧ b = false) ∧
    (let s : State := (sx (sl slPass id)); let k : Nat := 3; let on : Bool := s.chip.slOn k; let high : Bool := true;
     s.chip.AtRest ∧ k < 32 ∧ on = true ∧ s.chip.slSt k = slPass ∧ high = true) ∧
    (let s : State := (sx (sl slLatched id)); let k : Nat := 3; let on : Bool := s.chip.slOn k; let high : Bool := false;
     s.chip.AtRest ∧ k < 32 ∧ on = true ∧ (s.chip.slSt k = slLatched ∨ s.chip.slSt k = slPass ∧ high = false)) ∧
    (let s : State := (sx (r0 (tm (cla (sl slPowered vg))))); let k : Nat := 3; let on : Bool := s.chip.slOn k;
     s.chip.AtRest ∧ k < 32 ∧ on = true ∧ s.chip.slSt k ≠ slLatched ∧ s.chip.slSt k ≠ slPass) ∧
    (let s : State := (sx chip0); let k : Nat := 0; let on : Bool := s.chip.slOn k; let ini : Nat := 0;
     s.chip.AtRest ∧ k < 32 ∧ ini < 256 ∧ on = false) ∧
    (let s : State := (sx (r0 (tm (cla (sl slPowered vg))))); let k : Nat := 3; let on : Bool := s.chip.slOn k;
     let ini : Nat := 0;
     s.chip.AtRest ∧ k < 32 ∧ ini < 256 ∧ on = true) := by
  and_intros <;> decide +kernel

/-- The hypotheses of SlotsRampToPowered are met, clause by clause. -/
theorem test_hyps_SlotsRampToPowered :
    (let s : State := (sx (np (sl slAbsent (fun x => { x with absentAt := some 0 })))); let k : Nat := 3;
     let x : SlotX := s.chip.slot k; let st : Nat := s.chip.slSt k; let now : Nat := s.chip.time; let a : Nat := 0;
     s.chip.AtRest ∧ k < 32 ∧ s.chip.slOn k = true ∧ s.chip.slPresent k = false ∧ x.onAt + 20 * usT ≤ now ∧ st = slAbsent ∧
     x.absentAt = some a ∧ a + 250 * msT ≤ now) ∧
    (let s : State := (sx (np (sl slAbsent id))); let k : Nat := 3; let x : SlotX := s.chip.slot k;
     let st : Nat := s.chip.slSt k; let now : Nat := s.chip.time;
     s.chip.AtRest ∧ k < 32 ∧ s.chip.slOn k = true ∧ s.chip.slPresent k = false ∧ x.onAt + 20 * usT ≤ now ∧ st = slAbsent ∧ x.absentAt = none) ∧
    (let s : State := (sx (np (sl slLatched id))); let k : Nat := 3; let x : SlotX := s.chip.slot k;
     let st : Nat := s.chip.slSt k; let now : Nat := s.chip.time;
     s.chip.AtRest ∧ k < 32 ∧ s.chip.slOn k = true ∧ s.chip.slPresent k = false ∧ x.onAt + 20 * usT ≤ now ∧ st ≠ slAbsent) ∧
    (let s : State := (sx (r0 (tm (cla (sl slPowered vg))))); let k : Nat := 3; let st : Nat := s.chip.slSt k;
     s.chip.AtRest ∧ k < 32 ∧ s.chip.slOn k = true ∧ s.chip.slPresent k = true ∧ 2 ≤ st ∧ st ≤ 6) ∧
    (let s : State := (sx (sl slAbsent id)); let k : Nat := 3; let st : Nat := s.chip.slSt k;
     s.chip.AtRest ∧ k < 32 ∧ s.chip.slOn k = true ∧ s.chip.slPresent k = true ∧ (st < 2 ∨ 6 < st)) ∧
    (let s : State := (sx (r0 (tm (cla (sl slPowered vg))))); let k : Nat := 3;
     let outside : Nat → Prop := fun mv => mv < s.chip.slUV k ∨ s.chip.slOV k < mv; let mv : Nat := 11999;
     s.chip.AtRest ∧ k < 32 ∧ s.chip.slOn k = true ∧ ¬outside mv) ∧
    (let s : State := (sx (r0 (tm (cla (sl slPowered vg))))); let k : Nat := 3; let st : Nat := s.chip.slSt k;
     let outside : Nat → Prop := fun mv => mv < s.chip.slUV k ∨ s.chip.slOV k < mv; let mv : Nat := 0;
     s.chip.AtRest ∧ k < 32 ∧ s.chip.slOn k = true ∧ outside mv ∧ 3 ≤ st ∧ st ≤ 5) ∧
    (let s : State := (sx (sl slQualify (fun x => { x with vinOk := true, insAt := some 0 }))); let k : Nat := 3;
     let st : Nat := s.chip.slSt k;
     let outside : Nat → Prop := fun mv => mv < s.chip.slUV k ∨ s.chip.slOV k < mv; let mv : Nat := 0;
     s.chip.AtRest ∧ k < 32 ∧ s.chip.slOn k = true ∧ outside mv ∧ st = slQualify) ∧
    (let s : State := (sx (sl slAbsent id)); let k : Nat := 3; let x : SlotX := s.chip.slot k;
     let inside : Nat → Prop := fun mv => s.chip.slUV k + 100 ≤ mv ∧ mv + 100 ≤ s.chip.slOV k; let mv : Nat := 11999;
     s.chip.AtRest ∧ k < 32 ∧ s.chip.slOn k = true ∧ inside mv ∧ x.vinOk = false) ∧
    (let s : State := (sx (sl slQualify id)); let k : Nat := 3; let x : SlotX := s.chip.slot k;
     let st : Nat := s.chip.slSt k;
     let inside : Nat → Prop := fun mv => s.chip.slUV k + 100 ≤ mv ∧ mv + 100 ≤ s.chip.slOV k; let mv : Nat := 11999;
     s.chip.AtRest ∧ k < 32 ∧ s.chip.slOn k = true ∧ inside mv ∧ x.vinOk = false ∧ st = slQualify ∧ s.chip.slPresent k = true ∧
     s.chip.vinSnsBad = false) ∧
    (let s : State := (sx (r0 (tm (cla (sl slPowered vg))))); let k : Nat := 3;
     let inside : Nat → Prop := fun mv => s.chip.slUV k + 100 ≤ mv ∧ mv + 100 ≤ s.chip.slOV k; let mv : Nat := 11999;
     s.chip.AtRest ∧ k < 32 ∧ s.chip.slOn k = true ∧ inside mv) ∧
    (let s : State := (sx (sl slQualify (fun x => { x with vinOk := true, insAt := some 0 }))); let k : Nat := 3;
     let x : SlotX := s.chip.slot k; let st : Nat := s.chip.slSt k; let now : Nat := s.chip.time;
     let held : Bool := s.chip.slotHold || x.hot; let a : Nat := 0;
     s.chip.AtRest ∧ k < 32 ∧ x.insAt = some a ∧ st = slQualify ∧ s.chip.slPresent k = true ∧ x.vinOk = true ∧ a + s.chip.slInsDelay k ≤ now ∧
     held = false) ∧
    (let s : State := (sx (sl slQualify (fun x => { x with vinOk := true, insAt := some 0, hot := true, ready := true })));
     let k : Nat := 3; let x : SlotX := s.chip.slot k; let st : Nat := s.chip.slSt k; let now : Nat := s.chip.time;
     let held : Bool := s.chip.slotHold || x.hot; let a : Nat := 0;
     s.chip.AtRest ∧ k < 32 ∧ x.insAt = some a ∧ st = slQualify ∧ s.chip.slPresent k = true ∧ x.vinOk = true ∧ a + s.chip.slInsDelay k ≤ now ∧
     held = true) ∧
    (let s : State := (sx (sl slRamp (fun x => { x with vinOk := true, rampAt := some 0 }))); let k : Nat := 3;
     let x : SlotX := s.chip.slot k; let st : Nat := s.chip.slSt k; let now : Nat := s.chip.time; let a : Nat := 0;
     s.chip.AtRest ∧ k < 32 ∧ x.rampAt = some a ∧ st = slRamp ∧ a + s.chip.slRampTo k ≤ now) ∧
    (let s : State := (sx (sl slCheck (fun x => { x with vinOk := true, pgAt := some 0 }))); let k : Nat := 3;
     let x : SlotX := s.chip.slot k; let st : Nat := s.chip.slSt k; let now : Nat := s.chip.time; let a : Nat := 0;
     s.chip.AtRest ∧ k < 32 ∧ x.pgAt = some a ∧ st = slCheck ∧ a + 1000 * usT ≤ now) := by
  and_intros <;> decide +kernel

/-- The hypotheses of SlotsTripAndRetry are met, clause by clause. -/
theorem test_hyps_SlotsTripAndRetry :
    (let s : State := (sx (r0 (tm (cla (sl slPowered vg))))); let k : Nat := 3; let j : Nat := 1;
     s.chip.AtRest ∧ k < 32 ∧ s.chip.gateOn k = true ∧ 0 < j) ∧
    (let s : State := (sx (cla (sl slCheck (fun x => { x with vinOk := true, ftAt := chip0.time, ft := 6000 }))));
     let k : Nat := 3; let n : Nat := s.chip.fld F.SLT_STS.RETRIES k;
     s.chip.AtRest ∧ k < 32 ∧ s.chip.gateOn k = true ∧ s.chip.is F.SLT_STS.CLA k = true ∧ s.chip.slFtimer k ≤ s.chip.ftNow k ∧
     n < s.chip.fld F.SLT_CTRL.RETRY_MAX k) ∧
    (let s : State := (sx (r0 (cla (sl slCheck (fun x => { x with vinOk := true, ftAt := chip0.time, ft := 6000 })))));
     let k : Nat := 3; let n : Nat := s.chip.fld F.SLT_STS.RETRIES k;
     s.chip.AtRest ∧ k < 32 ∧ s.chip.gateOn k = true ∧ s.chip.is F.SLT_STS.CLA k = true ∧ s.chip.slFtimer k ≤ s.chip.ftNow k ∧
     s.chip.fld F.SLT_CTRL.RETRY_MAX k ≤ n) ∧
    (let s : State := (sx (cla (sl slCheck vg))); let k : Nat := 3; let n : Nat := s.chip.fld F.SLT_STS.RETRIES k;
     s.chip.AtRest ∧ k < 32 ∧ s.chip.gateOn k = true ∧ n < s.chip.fld F.SLT_CTRL.RETRY_MAX k) ∧
    (let s : State := (sx (tm (cla (sl slPowered (fun x => { x with vinOk := true, ftAt := chip0.time, ft := 50000 })))));
     let k : Nat := 3; let n : Nat := s.chip.fld F.SLT_STS.RETRIES k;
     s.chip.AtRest ∧ k < 32 ∧ s.chip.gateOn k = true ∧ s.chip.slTemp k = true ∧ s.chip.slOn k = true ∧ n < s.chip.fld F.SLT_CTRL.RETRY_MAX k) ∧
    (let s : State := (sx (r0 (tm (cla (sl slPowered vg))))); let k : Nat := 3;
     let n : Nat := s.chip.fld F.SLT_STS.RETRIES k;
     s.chip.AtRest ∧ k < 32 ∧ s.chip.gateOn k = true ∧ s.chip.slTemp k = true ∧ s.chip.slOn k = true ∧ s.chip.fld F.SLT_CTRL.RETRY_MAX k ≤ n) ∧
    (let s : State := (sx (r0 (tm (cla (sl slPowered vg))))); let k : Nat := 3;
     s.chip.AtRest ∧ k < 32 ∧ s.chip.gateOn k = true ∧ s.chip.slTemp k = true ∧ s.chip.fld F.SLT_CFG.TMODE k % 2 = 1) ∧
    (let s : State := (sx (r0 (tm (cla (sl slPowered vg))))); let k : Nat := 3;
     s.chip.AtRest ∧ k < 32 ∧ s.chip.is F.SLT_STS.CLA k = true ∧ s.chip.ftNow k = 0) ∧
    (let s : State := (sx (cla (sl slCheck vg))); let k : Nat := 3; let st : Nat := s.chip.slSt k;
     s.chip.AtRest ∧ k < 32 ∧ s.chip.is F.SLT_STS.CLA k = true ∧ s.chip.ftNow k = 0 ∧ st = slCheck) ∧
    (let s : State := (sx (tm (sl slPowered (fun x => { x with vinOk := true, powAt := some 0 })))); let k : Nat := 3;
     let st : Nat := s.chip.slSt k; let n : Nat := s.chip.fld F.SLT_STS.RETRIES k;
     s.chip.AtRest ∧ k < 32 ∧ s.chip.is F.SLT_STS.CLA k = false ∧ st = slPowered ∧ n < s.chip.fld F.SLT_CTRL.RETRY_MAX k) ∧
    (let s : State := (sx (r0 (sl slPowered vg))); let k : Nat := 3; let st : Nat := s.chip.slSt k;
     let n : Nat := s.chip.fld F.SLT_STS.RETRIES k;
     s.chip.AtRest ∧ k < 32 ∧ s.chip.is F.SLT_STS.CLA k = false ∧ st = slPowered ∧ s.chip.fld F.SLT_CTRL.RETRY_MAX k ≤ n) ∧
    (let s : State := (sx (sl slCheck (fun x => { x with vinOk := true, pgAt := some 0 }))); let k : Nat := 3;
     let st : Nat := s.chip.slSt k;
     s.chip.AtRest ∧ k < 32 ∧ s.chip.is F.SLT_STS.CLA k = false ∧ st = slCheck) ∧
    (let s : State := (sx (sl slQualify (fun x => { x with vinOk := true, insAt := some 0, hot := true, ready := true })));
     let k : Nat := 3; let x : SlotX := s.chip.slot k; let st : Nat := s.chip.slSt k;
     s.chip.AtRest ∧ k < 32 ∧ x.ready = true ∧ (st = slQualify ∨ st = slRetry) ∧ x.vinOk = true ∧ s.chip.slPresent k = true ∧
     s.chip.slotHold = false) ∧
    (let s : State := (sx chip0); let k : Nat := 0; let x : SlotX := s.chip.slot k;
     s.chip.AtRest ∧ k < 32 ∧ x.ready = false) ∧
    (let s : State := (sx (sl slRetry (fun x => { x with vinOk := true, tripAt := some 0 }))); let k : Nat := 3;
     let x : SlotX := s.chip.slot k; let st : Nat := s.chip.slSt k; let now : Nat := s.chip.time;
     let held : Bool := s.chip.slotHold || x.hot; let a : Nat := 0;
     s.chip.AtRest ∧ k < 32 ∧ x.tripAt = some a ∧ st = slRetry ∧ a + secT ≤ now ∧ x.vinOk = true ∧ s.chip.vinSnsBad = false ∧ held = false) ∧
    (let s : State := (sx (sl slRetry (fun x => { x with vinOk := true, tripAt := some 0, hot := true }))); let k : Nat := 3;
     let x : SlotX := s.chip.slot k; let st : Nat := s.chip.slSt k; let now : Nat := s.chip.time;
     let held : Bool := s.chip.slotHold || x.hot; let a : Nat := 0;
     s.chip.AtRest ∧ k < 32 ∧ x.tripAt = some a ∧ st = slRetry ∧ a + secT ≤ now ∧ x.vinOk = true ∧ s.chip.vinSnsBad = false ∧ held = true) ∧
    (let s : State := (sx (sl slRetry (fun x => { x with tripAt := some 0 }))); let k : Nat := 3;
     let x : SlotX := s.chip.slot k; let st : Nat := s.chip.slSt k; let now : Nat := s.chip.time; let a : Nat := 0;
     s.chip.AtRest ∧ k < 32 ∧ x.tripAt = some a ∧ st = slRetry ∧ a + secT ≤ now ∧ (x.vinOk = false ∨ s.chip.vinSnsBad = true)) ∧
    (let s : State := (sx (tm (sl slPowered (fun x => { x with vinOk := true, powAt := some 0 })))); let k : Nat := 3;
     let x : SlotX := s.chip.slot k; let st : Nat := s.chip.slSt k; let now : Nat := s.chip.time; let a : Nat := 0;
     s.chip.AtRest ∧ k < 32 ∧ x.powAt = some a ∧ st = slPowered ∧ a + 60 * secT ≤ now) ∧
    (let s : State := (sx (sl slAbsent id)); let k : Nat := 3; let st : Nat := s.chip.slSt k;
     s.chip.AtRest ∧ k < 32 ∧ st ≠ slDisabled ∧ st ≠ slPass ∧ s.chip.gateOn k = false) ∧
    (let s : State := (sx (r0 (tm (cla (sl slPowered vg))))); let k : Nat := 3; let b : Bool := false; let r : Bool := true;
     s.chip.AtRest ∧ k < 32 ∧ s.chip.slOn k = true ∧ b = false ∧ r = true) ∧
    (let s : State := (sx (r0 (tm (cla (sl slPowered vg))))); let k : Nat := 3; let b : Bool := true; let r : Bool := true;
     s.chip.AtRest ∧ k < 32 ∧ s.chip.slOn k = true ∧ b = true ∧ r = true) ∧
    (let s : State := (sx chip0); let mv : Nat := 0; let n : RName := RName.FLT_REC_STS;
     s.chip.AtRest ∧ (mv < 8500 ∨ 14500 < mv) ∧ s.chip.vinSnsBad = false ∧ n ∈ recRegs) ∧
    (let s : State := (sx (r0 (tm (cla (sl slPowered vg))))); let mv : Nat := 0; let k : Nat := 3;
     s.chip.AtRest ∧ (mv < 8500 ∨ 14500 < mv) ∧ s.chip.vinSnsBad = false ∧ k < 32 ∧ s.chip.slOn k = true ∧ s.chip.gateOn k = true) ∧
    (let s : State := (sx (sl slQualify (fun x => { x with vinOk := true, insAt := some 0 }))); let mv : Nat := 0;
     let k : Nat := 3;
     s.chip.AtRest ∧ (mv < 8500 ∨ 14500 < mv) ∧ s.chip.vinSnsBad = false ∧ k < 32 ∧ s.chip.slOn k = true ∧ s.chip.slSt k = slQualify) ∧
    (let s : State := (sx ({ sl slQualify vg with vinSnsBad := true })); let mv : Nat := 9000;
     let n : RName := RName.FLT_REC_STS;
     s.chip.AtRest ∧ 9000 ≤ mv ∧ mv ≤ 14000 ∧ s.chip.vinSnsBad = true ∧ n ∈ recRegs) ∧
    (let s : State := (sx ({ sl slQualify vg with vinSnsBad := true })); let mv : Nat := 9000; let k : Nat := 3;
     s.chip.AtRest ∧ 9000 ≤ mv ∧ mv ≤ 14000 ∧ s.chip.vinSnsBad = true ∧ k < 32 ∧ s.chip.slOn k = true ∧ s.chip.slSt k = slQualify ∧
     s.chip.slPresent k = true ∧ (s.chip.slot k).vinOk = true) := by
  and_intros <;> decide +kernel

/-- The hypotheses of CountersAndDebugPortAct are met, clause by clause. -/
theorem test_hyps_CountersAndDebugPortAct :
    (let s : State := (sx chip0); let n : Nat := 31;
     s.chip.AtRest ∧ n < 4096 ∧ counterUsed n = false) ∧
    (let s : State := (sx chip0); let n : Nat := 0; let m : Nat := 1;
     s.chip.AtRest ∧ n < 4096 ∧ counterUsed n = true ∧ s.chip.badWords = [] ∧ m ≠ n) ∧
    (let s : State := (sx chip0); let n : Nat := 0; let k : Nat := 0;
     s.chip.AtRest ∧ n < 4096 ∧ counterUsed n = true ∧ s.chip.badWords = [] ∧ s.chip.counter n + k < 2 ^ 48) ∧
    (let s : State := (sx smpC); let n : Nat := 130; let k : Nat := 1;
     s.chip.AtRest ∧ n < 4096 ∧ counterUsed n = true ∧ s.chip.badWords = [] ∧ 2 ^ 48 ≤ s.chip.counter n + k) ∧
    (let s : State := (sx chip0); let ini : Nat := 0; let n : Nat := 0;
     s.chip.AtRest ∧ ini < 256 ∧ n < 4096 ∧ s.chip.badWords = []) ∧
    (let s : State := (sx chip0); let u : Nat := 0;
     s.chip.AtRest ∧ u < 4) ∧
    (let s : State := (sx smpC); let u : Nat := 2; let m : Nat := (Tab.get (0, 0) s.chip.samp u).1;
     let base : Nat := (Tab.get (0, 0) s.chip.samp u).2; let p : Nat := s.chip.sampPeriod u;
     s.chip.AtRest ∧ u < 4 ∧ s.chip.is F.CNT_SAMP_CFG.EN u = true ∧ p ≤ (s.chip.counter m + 2 ^ 48 - base) % 2 ^ 48 ∧
     s.chip.is F.CNT_SAMP_STS.FIRED u = false) ∧
    (let s : State := (sx (smpC.set F.CNT_SAMP_STS.FIRED 1 2)); let u : Nat := 2;
     let m : Nat := (Tab.get (0, 0) s.chip.samp u).1; let base : Nat := (Tab.get (0, 0) s.chip.samp u).2;
     let p : Nat := s.chip.sampPeriod u;
     s.chip.AtRest ∧ u < 4 ∧ s.chip.is F.CNT_SAMP_CFG.EN u = true ∧ p ≤ (s.chip.counter m + 2 ^ 48 - base) % 2 ^ 48 ∧
     s.chip.is F.CNT_SAMP_STS.FIRED u = true) ∧
    (let s : State := (sx { smpC with sampIrq := [1,2] }); let u : Nat := 1;
     s.chip.AtRest ∧ u < 4 ∧ u ∈ s.chip.sampIrq ∧ s.chip.badWords = []) ∧
    (let s : State := (sx chip0); let v : W := 0; let k : Nat := bitsOf v.toNat 24 2;
     let l : List Nat := List.map (fun j => (s.chip.rd RName.CNT_EDGE k j).toNat) (List.range 31); let i : Nat := 0;
     let b : Nat := 0;
     s.chip.AtRest ∧ ascending l = true ∧ i < 156 ∧ b < 32) ∧
    (let s : State := (sx ((edg chip0).wr .CNT_EDGE 1 3 0)); let v : W := 0x01000000#32; let k : Nat := bitsOf v.toNat 24 2;
     let l : List Nat := List.map (fun j => (s.chip.rd RName.CNT_EDGE k j).toNat) (List.range 31);
     s.chip.AtRest ∧ ascending l = false) ∧
    (let s : State := (sx chip0); let w : Nat := 0; let i : Nat := 0; let b : Nat := 0;
     s.chip.AtRest ∧ w < 10 ∧ i < 156 ∧ b < 32) ∧
    (let s : State := (sx chip0); let ini : Nat := 0; let i : Nat := 0; let b : Nat := 0;
     s.chip.AtRest ∧ ini < 256 ∧ i < 156 ∧ b < 32 ∧ s.chip.badWords = []) ∧
    (let s : State := (sx chip0); let i : JtagInstr := JtagInstr.extest;
     s.chip.AtRest ∧ scans i = true ∧ s.chip.scanLinks = []) ∧
    (let s : State := (sx chip0); let i : JtagInstr := JtagInstr.bypass;
     s.chip.AtRest ∧ scans i = false) ∧
    (let s : State := (sx { ((chipV.set F.CEL_LINK_STS.LTSSM 4 20).set F.CEL_LINK_STS.LTSSM 4 36) with scanLinks := [20, 36] });
     let i : JtagInstr := JtagInstr.bypass; let p : Nat := 20;
     s.chip.AtRest ∧ scans i = false ∧ p ∈ s.chip.scanLinks ∧ isIdle (s.chip.ltssm p) = false) ∧
    (let s : State := (sx chip0); let i : JtagInstr := JtagInstr.idcode;
     s.chip.AtRest ∧ scans i = false ∧ i = JtagInstr.idcode) ∧
    (let s : State := (sx chip0); let a : Nat := 0;
     s.chip.AtRest ∧ a < 2 ^ 40 ∧ (s.chip.jtag ≠ JtagInstr.debug ∨ s.chip.lc = 2)) ∧
    (let s : State := (sx (jd chip0)); let a : Nat := 1; let v : Option W := none;
     s.chip.AtRest ∧ a < 2 ^ 40 ∧ s.chip.jtag = JtagInstr.debug ∧ s.chip.lc ≠ 2 ∧ a % 4 ≠ 0 ∧
     s.chip.masAllows debugMaster (if v.isSome = true then 1 else 0) a 4 = true) ∧
    (let s : State := (sx (jd chip0)); let a : Nat := 805306432;
     let g : Reg := { name := RName.PWR_ENTRY_CFG, i := 0, j := 0 }; let inst : Nat := 0;
     s.chip.AtRest ∧ a < 2 ^ 40 ∧ s.chip.jtag = JtagInstr.debug ∧ s.chip.lc ≠ 2 ∧ s.chip.Reaches a g inst ∧ g.name.latches = false ∧
     s.chip.masAllows debugMaster 0 a 4 = true) ∧
    (let s : State := (sx (jd chip0)); let a : Nat := 805306432;
     let g : Reg := { name := RName.PWR_ENTRY_CFG, i := 0, j := 0 }; let inst : Nat := 0;
     s.chip.AtRest ∧ a < 2 ^ 40 ∧ s.chip.jtag = JtagInstr.debug ∧ s.chip.lc ≠ 2 ∧ s.chip.Reaches a g inst ∧ g.name.latches = false ∧
     s.chip.masAllows debugMaster 1 a 4 = true ∧ g.name.ordinary = true) := by
  and_intros
  all_goals first
    | decide +kernel
    | exact (reaches_of (c := chip0) (a := 805306432) (g := ⟨.PWR_ENTRY_CFG, 0, 0⟩) (i := 0) (by decide) (by decide +kernel) (by decide +kernel)).2.2
end Slots

end Sys2Proof.Tests
end

section
/-! SUPPORT. HELLO from a key that holds no session (R236 to R238), where the relay role is free: what it comes to, and the wrap of the
port's sent-datagram counter (R355), which refutes O10. What O10 says otherwise holds: `hello_sessionFull`, `hello_opens` and
`Kmp.freeNum_lowest`. -/

namespace Sys2Proof.Machine

/-! ## Counting past 2^48 - 1 -/

/-- A counter that passes 2^48 - 1 sets its bit in CNT_OVF (R355). -/
theorem Chip.rd_count_wrap (c : Chip) (n k : Nat) (hb : c.badWords.contains (3, n) = false) (hw : 2 ^ 48 ≤ c.counter n + k) :
    (c.count n k).rd .CNT_OVF (n / 32) 0 = w32 (setBit (c.rd .CNT_OVF (n / 32)).toNat (n % 32)) := by
  have hf : c.freshCount n = c := by
    unfold Chip.freshCount
    rw [hb]
    rfl
  unfold Chip.count
  simp only [hf, if_neg (Nat.not_lt.mpr hw)]
  exact Chip.rd_wr_self ..

/-- Counting changes no register but the word of CNT_OVF that holds the counter's bit (R355). -/
theorem Chip.regsBut_count (c : Chip) (n k : Nat) : c.RegsBut [⟨.CNT_OVF, n / 32, 0⟩] (c.count n k) := by
  intro m i j hm
  have hsticky : ∀ d : Chip, (d.sticky n).rd m i j = d.rd m i j := fun d =>
    d.rd_wr_ne _ fun he => hm (he ▸ List.mem_singleton_self _)
  have hfresh : (c.freshCount n).rd m i j = c.rd m i j := by
    unfold Chip.freshCount
    split
    · exact hsticky _
    · rfl
  unfold Chip.count
  simp only
  split
  · exact hfresh
  · exact (hsticky _).trans hfresh

/-! ## A reply outside a session -/

/-- The datagram of a reply outside a session (Table 12.2). -/
def Chip.bareReply (c : Chip) (r : KmpReq) (opcode session status : Nat) (ws : List Nat) : KmpOut :=
  { eth := r.eth, mac := r.mac, ip := r.ip, udp := r.udp, sport := c.kmpPort, major := 1, minor := 0, opcode := opcode
    flags := flagReply + status % 256, seq := r.seq, session := session, words := ws.map w32 }

/-- A reply outside a session goes out at the port of its request and is counted there. -/
theorem Chip.replyBare_eq (c : Chip) {r : KmpReq} (opcode session status : Nat) (ws : List Nat) (hc : c.ethCarries r.eth = true) :
    c.replyBare r opcode session status ws = (c.out (.kmp (c.bareReply r opcode session status ws))).count (cntEth r.eth 1) :=
  if_pos hc

/-- Sending leaves a chip at rest. -/
theorem Chip.SentFrom.atRest {c d : Chip} (h : c.SentFrom d) (hr : c.AtRest) : d.AtRest := by
  obtain ⟨hf, hm, hi⟩ := hr
  obtain ⟨hf', hi'⟩ := h.idle ⟨hf, hi⟩
  exact ⟨hf', h.mail.trans hm, hi'⟩

/-! ## The lowest free number -/

/-- While fewer than eight sessions are held, the new number is from 1 to 8, free, and every lower one is taken (R238). -/
theorem Kmp.freeNum_lowest {k : Kmp} (h : k.sess.length < maxSessions) :
    1 ≤ k.freeNum ∧ k.freeNum ≤ maxSessions ∧ (∀ y ∈ k.sess, y.num ≠ k.freeNum) ∧
      ∀ n, 1 ≤ n → n < k.freeNum → ∃ y ∈ k.sess, y.num = n := by
  have hmem : ∀ n, n ∈ rangeFrom 1 maxSessions ↔ 1 ≤ n ∧ n ≤ maxSessions := fun n => by
    rw [rangeFrom, ← List.range'_eq_map_range, List.mem_range'_1]
    omega
  have htaken : ∀ n, (k.numbered n).isNone = false → ∃ y ∈ k.sess, y.num = n := fun n hn => by
    simpa [Kmp.numbered] using hn
  cases hfind : (rangeFrom 1 maxSessions).find? (fun n => (k.numbered n).isNone) with
  | none =>
    have hall : rangeFrom 1 maxSessions ⊆ k.sess.map (·.num) := fun n hn =>
      List.mem_map.mpr (htaken n (Bool.not_eq_true _ ▸ List.find?_eq_none.mp hfind n hn))
    have hnodup : (rangeFrom 1 maxSessions).Nodup := by decide
    have hle := (hnodup.subperm hall).length_le
    rw [List.length_map] at hle
    exact absurd h (Nat.not_lt.mpr hle)
  | some m =>
    have hm : k.freeNum = m := by rw [Kmp.freeNum, hfind]; rfl
    rw [hm]
    obtain ⟨hfree, l, r, hsplit, hl⟩ := List.find?_eq_some_iff_append.mp hfind
    obtain ⟨hlo, hhi⟩ := (hmem m).mp (List.mem_of_find?_eq_some hfind)
    refine ⟨hlo, hhi, by simpa [Kmp.numbered] using hfree, fun n hn hnm => htaken n ?_⟩
    have hsorted : (rangeFrom 1 maxSessions).Pairwise (· < ·) := by decide
    have hin : n ∈ l ++ m :: r := hsplit ▸ (hmem n).mpr ⟨hn, by omega⟩
    rw [hsplit, List.pairwise_append, List.pairwise_cons] at hsorted
    obtain ⟨-, ⟨hr, -⟩, -⟩ := hsorted
    rcases List.mem_append.mp hin with hnl | hnr
    · simpa using hl n hnl
    · rcases List.mem_cons.mp hnr with rfl | hnr
      · omega
      · exact absurd (hr n hnr) (by omega)

/-! ## HELLO from a new key -/

/-- Where no session has the property, none ends. -/
theorem State.endWhere_none {s : State} {f : Sess → Bool} (h : ∀ y ∈ s.kmp.sess, f y = false) : s.endWhere f = s := by
  have hnil : s.kmp.sess.filter f = [] := List.filter_eq_nil_iff.mpr fun y hy => by simp [h y hy]
  unfold State.endWhere
  rw [hnil]
  rfl

/-- A key that differs from a session's in its port, address or UDP port is not that session's (R238). -/
theorem Sess.keyed_eq_false {y : Sess} {q : KmpReq} (h : ¬ (y.eth = q.eth ∧ y.ip = q.ip ∧ y.udp = q.udp)) : y.keyed q = false := by
  simpa [Sess.keyed, and_assoc] using h

/-- The relay role is taken from nobody. -/
theorem Chip.relayTake_free {c : Chip} (h : c.relay = none) (num e : Nat) (ipv6 : Bool) :
    c.relayTake num e ipv6 = { c with relay := some (num, e, ipv6) } := by
  simp [Chip.relayTake, h]

/-- The opening of a session leaves the chip at rest where the relay role is free. -/
theorem State.openSess_atRest {s : State} (q : KmpReq) (hr : s.chip.AtRest) (hf : s.chip.relay = none) : (s.openSess q).chip.AtRest := by
  unfold State.openSess
  refine ((Chip.SentFrom.refl _).sendParts ..).atRest ?_
  split
  · rw [Chip.relayTake_free hf]
    exact hr
  · exact hr

/-- The session that HELLO opens (R238): the lowest free number, the next identity, the request's key, its keepalive held between 100 ms
and 60 s, and its sequence number behind it. -/
def State.helloSess (s : State) (q : KmpReq) (w0 : W) : Sess :=
  { num := s.kmp.freeNum, uid := s.kmp.nextUid, eth := q.eth, mac := q.mac, ip := q.ip, udp := q.udp, ipv6 := q.ipv6, major := 1
    keepalive := clampTo 100 60000 (w0.toNat % 2 ^ 16), heard := s.chip.time, expect := (q.seq + 1) % 2 ^ 32 }

/-- The state in which HELLO has opened its session: the relay role is taken where it is asked for, the reply tells of the chip, and the
session joins the others. -/
def State.helloOpened (s : State) (q : KmpReq) (w0 w1 : W) : State :=
  let x := s.helloSess q w0
  let relay := bitAt w1.toNat 0
  { chip := ({ s.fresh with relay := if relay then some (x.num, q.eth, q.ipv6) else none } : Chip).kmpSend x 0x0001 flagReply q.seq x.num
      ((s.chip.helloWords x.keepalive relay).map w32)
    kmp := { sess := s.kmp.sess ++ [x], nextUid := s.kmp.nextUid + 1 }
    pending := s.pending }

/-- Where the relay role is free, the model's opening of a session comes to `State.helloOpened`. -/
theorem State.openSess_eq {s : State} {q : KmpReq} {w0 w1 : W} (hw : q.words = [w0, w1]) (hf : s.chip.relay = none) :
    (s.withChip s.fresh).openSess q = s.helloOpened q w0 w1 := by
  have hw0 : wordAt q.words 0 = w0.toNat := by rw [hw]; rfl
  have hw1 : wordAt q.words 1 = w1.toNat := by rw [hw]; rfl
  unfold State.openSess State.helloOpened
  simp only [hw0, hw1]
  cases bitAt w1.toNat 0 with
  | false =>
    have hkept : ({ s.fresh with relay := none } : Chip) = s.fresh := by rw [← hf]; rfl
    simp only [Bool.false_eq_true, if_false, hkept]
    rfl
  | true =>
    have hfree : (s.withChip s.fresh).chip.relay = none := hf
    simp only [if_true, Chip.relayTake_free hfree]
    rfl

section
variable {s : State} {q : KmpReq} {w0 w1 : W} (hw : q.words = [w0, w1]) (h0 : w0.toNat / 2 ^ 24 ≤ 1) (h1 : 1 ≤ w0.toNat / 2 ^ 16 % 256)
  (hk : ∀ y ∈ s.kmp.sess, ¬ (y.eth = q.eth ∧ y.ip = q.ip ∧ y.udp = q.udp))
include hw h0 h1 hk

/-- HELLO of a version that the chip speaks, from a new key: SESSION_FULL where eight sessions are held, else a session opens. -/
theorem State.hello_newKey :
    s.hello q = if maxSessions ≤ s.kmp.sess.length then s.withChip (s.chip.replyBare q 0x0001 0 0x0E []) else s.openSess q := by
  have hend : s.endWhere (fun y => y.keyed q) = s := State.endWhere_none fun y hy => Sess.keyed_eq_false (hk y hy)
  have hlen : q.words.length = 2 := by rw [hw]; rfl
  have hword : wordAt q.words 0 = w0.toNat := by rw [hw]; rfl
  unfold State.hello
  simp only [hlen, hword, h0, h1, hend, ne_eq, not_true, and_self, if_false]

variable (hr : s.chip.AtRest) (hq : q.wf = true) (hc : s.chip.ethCarries q.eth = true) (ho : s.chip.kmpOver q.ipv6 = true)
  (hf : s.chip.relay = none)
include hr hq hc ho hf

/-- The command HELLO, from a new key with the relay role free. -/
theorem exec_hello_newKey :
    exec (.hello q) s = .next
      (if maxSessions ≤ s.kmp.sess.length then s.withChip (s.fresh.replyBare q 0x0001 0 0x0E []) else (s.withChip s.fresh).openSess q) := by
  have hreq : (s.withChip s.fresh).request 0x0001 q = (s.withChip s.fresh).hello q := by
    have hc' : (s.withChip s.fresh).chip.ethCarries q.eth = true := hc
    have ho' : (s.withChip s.fresh).chip.kmpOver q.ipv6 = true := ho
    simp [State.request, hc', ho']
  have hhello := State.hello_newKey (s := s.withChip s.fresh) hw h0 h1 hk
  have hrest : ((s.withChip s.fresh).hello q).chip.AtRest := by
    rw [hhello]
    split
    · exact ((Chip.SentFrom.refl _).sendParts ..).atRest hr
    · exact State.openSess_atRest q hr hf
  calc exec (.hello q) s = .next ((s.withChip s.fresh).request 0x0001 q).settle := if_pos hq
    _ = .next ((s.withChip s.fresh).hello q) := by rw [hreq, State.settle_rest hrest]
    _ = _ := by rw [hhello]; rfl

/-- HELLO where eight sessions are held: no session opens, and no register changes but the wrap bit of the port's sent datagrams. -/
theorem hello_sessionFull (hfull : maxSessions ≤ s.kmp.sess.length) :
    ∃ t, exec (.hello q) s = .next t ∧ t.kmp = s.kmp ∧ t.pending = s.pending ∧
      s.chip.RegsBut [⟨.CNT_OVF, cntEth q.eth 1 / 32, 0⟩] t.chip := by
  refine ⟨s.withChip (s.fresh.replyBare q 0x0001 0 0x0E []), ?_, rfl, rfl, ?_⟩
  · rw [exec_hello_newKey hw h0 h1 hk hr hq hc ho hf, if_pos hfull]
  · intro n i j hn
    have hcount := Chip.regsBut_count (s.fresh.out (.kmp (s.fresh.bareReply q 0x0001 0 0x0E []))) (cntEth q.eth 1) 1 n i j hn
    have hreply := s.fresh.replyBare_eq 0x0001 0 0x0E [] hc
    exact (congrArg (Chip.rd · n i j) hreply).trans hcount

/-- HELLO where fewer than eight sessions are held opens one. -/
theorem hello_opens (hroom : s.kmp.sess.length < maxSessions) :
    exec (.hello q) s = .next (s.helloOpened q w0 w1) := by
  rw [exec_hello_newKey hw h0 h1 hk hr hq hc ho hf, if_neg (Nat.not_le.mpr hroom)]
  exact congrArg _ (State.openSess_eq hw hf)

end

/-! ## HELLO where eight sessions are held and the counter of sent datagrams wraps -/

/-- Port A is up, eight sessions are held, and the port has sent 2^48 - 1 datagrams. -/
def State.fullAtWrap : State :=
  { chip := { ({} : Chip).set F.ETH_PORT_STS.LINK_UP 1 0 with cnt := [(cntEth 0 1, 2 ^ 48 - 1)] }
    kmp := { sess := (List.range 8).map fun i =>
               { num := i + 1, uid := i + 1, eth := 0, mac := 5, ip := 20 + i, udp := 100, ipv6 := true, major := 1, keepalive := 1000
                 heard := 0, expect := 10 }
             nextUid := 9 } }

/-- HELLO of version 1 from an address that holds no session. -/
def ninthHello : KmpReq := { ip := 9, udp := 100, mac := 5, seq := 10, words := [0x01010064, 1] }

/-- The reply SESSION_FULL wraps the counter of sent datagrams, so CNT_OVF changes. -/
theorem ninthHello_sets_wrap :
    (State.fullAtWrap.fresh.replyBare ninthHello 0x0001 0 0x0E []).rd .CNT_OVF (cntEth 0 1 / 32) 0 ≠
      State.fullAtWrap.chip.rd .CNT_OVF (cntEth 0 1 / 32) 0 := by
  rw [Chip.replyBare_eq _ _ _ _ _ (by decide), show cntEth ninthHello.eth 1 = cntEth 0 1 from rfl,
    Chip.rd_count_wrap _ _ _ (by decide) (by decide)]
  decide

/-- Refutes O10: with eight sessions held, the reply to HELLO is counted in the port's sent datagrams (event 1). Where that counter stands
at 2^48 - 1 it wraps and sets its bit in CNT_OVF (R355), while the statement has every register unchanged. -/
theorem not_helloOpensSession : ¬ Obligations.HelloOpensSession := by
  unfold Obligations.HelloOpensSession
  intro h
  have hk : ∀ y ∈ State.fullAtWrap.kmp.sess, ¬ (y.eth = ninthHello.eth ∧ y.ip = ninthHello.ip ∧ y.udp = ninthHello.udp) := by decide
  have hrest : State.fullAtWrap.chip.AtRest := by decide
  obtain ⟨t, ht, -, -, hregs⟩ := (h State.fullAtWrap ninthHello 0x01010064 1 hrest (by decide) rfl (by decide) (by decide) (by decide)
    (by decide) hk rfl).1 (by decide)
  rw [exec_hello_newKey rfl (by decide) (by decide) hk hrest (by decide) (by decide) (by decide) rfl, if_pos (by decide)] at ht
  cases ht
  exact ninthHello_sets_wrap (hregs _ _ _ List.not_mem_nil)

end Sys2Proof.Machine
end

section
/-! SUPPORT. The fault log (R290): what a clear of a record writes to it, what leaves it as it was, and FAULT_CLEAR and FLT_REC_CLEAR as
clears of records. -/

namespace Sys2Proof.Machine

/-! ## The registers of the log -/

/-- The registers of the fault log. -/
def logRegs : List RName := [.FLT_LOG, .FLT_LOG_PTR]

/-- The fault log has not changed. -/
def Chip.LogKept (a b : Chip) : Prop := ∀ n ∈ logRegs, ∀ i j, b.rd n i j = a.rd n i j

/-- The record of collector `c` in `a` is the entry of the log in `b` that was next in `a`: class, merge count and collector, sources, and
time. The other entries have not changed, and the pointer has gone on (R290). -/
def Chip.FillsLog (a b : Chip) (c : Nat) : Prop :=
  let n := a.fld F.FLT_LOG_PTR.NEXT
  b.rd .FLT_LOG n 0 = w32 (a.fld F.FLT_REC_STS.CLASS c * 2 ^ 30 + a.fld F.FLT_REC_STS.MERGED c * 2 ^ 16 + c) ∧
    b.rd .FLT_LOG n 1 = a.rd .FLT_REC_SRC c ∧ b.rd .FLT_LOG n 2 = a.rd .FLT_REC_TIME_HI c ∧ b.rd .FLT_LOG n 3 = a.rd .FLT_REC_TIME_LO c ∧
    (∀ m j, m ≠ n → b.rd .FLT_LOG m j = a.rd .FLT_LOG m j) ∧ b.fld F.FLT_LOG_PTR.NEXT = (n + 1) % 64 ∧
    b.is F.FLT_LOG_PTR.WRAPPED = (a.is F.FLT_LOG_PTR.WRAPPED || decide (n = 63))

/-- A write leaves the registers of other names as they were. -/
theorem Chip.rd_wr_name (s : Chip) {n n' : RName} (h : n ≠ n') (i j i' j' : Nat) (v : W) : (s.wr n i j v).rd n' i' j' = s.rd n' i' j' :=
  s.rd_wr_ne v fun he => h (congrArg Reg.name he)

theorem Chip.LogKept.refl (s : Chip) : s.LogKept s := fun _ _ _ _ => rfl

theorem Chip.LogKept.wr {s t : Chip} (h : s.LogKept t) (n : RName) (i j : Nat) (v : W) (hn : n ∉ logRegs := by decide) :
    s.LogKept (t.wr n i j v) := fun m hm i' j' =>
  (t.rd_wr_name (fun he : n = m => hn (he ▸ hm)) i j i' j' v).trans (h m hm i' j')

theorem Chip.LogKept.set {s t : Chip} (h : s.LogKept t) (f : Fld) (v i j : Nat) (hf : f.reg ∉ logRegs := by decide) :
    s.LogKept (t.set f v i j) := h.wr f.reg i j _ hf

theorem Chip.LogKept.unpassed {s t : Chip} (h : s.LogKept t) (l : List Nat) : s.LogKept { t with unpassed := l } := h

theorem Chip.AtRest.wr {s : Chip} (h : s.AtRest) (n : RName) (i j : Nat) (v : W) : (s.wr n i j v).AtRest := h

theorem Chip.AtRest.set {s : Chip} (h : s.AtRest) (f : Fld) (v i j : Nat) : (s.set f v i j).AtRest := h

theorem Chip.AtRest.unpassed {s : Chip} (h : s.AtRest) (l : List Nat) : Chip.AtRest { s with unpassed := l } := h

/-- Sending leaves the log as it was. -/
theorem Chip.SentFrom.logKept {s t : Chip} (h : s.SentFrom t) : s.LogKept t := fun n hn i j =>
  h.2 n i j fun he => absurd (he ▸ hn) (by decide)

theorem Chip.LogKept.count {s t : Chip} (h : s.LogKept t) (n k : Nat) : s.LogKept (t.count n k) := fun m hm i j =>
  (((SentFrom.refl t).count n k).logKept m hm i j).trans (h m hm i j)

/-- An entry that has been filled stays while the log does. -/
theorem Chip.FillsLog.kept {a b d : Chip} {c : Nat} (h : a.FillsLog b c) (hk : b.LogKept d) : a.FillsLog d c := by
  have hlog : ∀ m j, d.rd .FLT_LOG m j = b.rd .FLT_LOG m j := hk .FLT_LOG (by decide)
  have hptr : d.rd .FLT_LOG_PTR = b.rd .FLT_LOG_PTR := hk .FLT_LOG_PTR (by decide) 0 0
  have hfld : ∀ f : Fld, f.reg = .FLT_LOG_PTR → d.fld f = b.fld f := fun f hf => by rw [Chip.fld, Chip.fld, hf, hptr]
  unfold Chip.FillsLog Chip.is at h ⊢
  simpa only [hlog, hfld F.FLT_LOG_PTR.NEXT rfl, hfld F.FLT_LOG_PTR.WRAPPED rfl] using h

/-! ## A record is written to the log -/

/-- The four words of entry `n`. -/
def Chip.writeLogEntry (s : Chip) (n c : Nat) : Chip :=
  let w0 := s.fld F.FLT_REC_STS.CLASS c * 2 ^ 30 + s.fld F.FLT_REC_STS.MERGED c * 2 ^ 16 + c
  let s := ((s.wr .FLT_LOG n 0 (w32 w0)).wr .FLT_LOG n 1 (s.rd .FLT_REC_SRC c))
  (s.wr .FLT_LOG n 2 (s.rd .FLT_REC_TIME_HI c)).wr .FLT_LOG n 3 (s.rd .FLT_REC_TIME_LO c)

/-- No word of entry `n` is marked as uncorrectable any more. -/
def Chip.unmarkLogEntry (s : Chip) (n : Nat) : Chip :=
  { s with badWords := s.badWords.filter (fun x => !(decide (x.1 = 4) && decide (x.2 / 4 = n))) }

/-- The pointer goes on past entry `n`. -/
def Chip.advanceLog (s : Chip) (n : Nat) : Chip :=
  let s := s.set F.FLT_LOG_PTR.NEXT ((n + 1) % 64)
  if n = 63 then s.set F.FLT_LOG_PTR.WRAPPED 1 else s

theorem Chip.logRecord_eq (s : Chip) (c : Nat) :
    s.logRecord c =
      let n := s.fld F.FLT_LOG_PTR.NEXT
      ((s.writeLogEntry n c).unmarkLogEntry n).advanceLog n := by
  unfold Chip.logRecord Chip.advanceLog Chip.unmarkLogEntry Chip.writeLogEntry
  rfl

/-- The marks stand beside the registers. -/
theorem Chip.rd_unmarkLogEntry (s : Chip) (n : Nat) (m : RName) (i j : Nat) : (s.unmarkLogEntry n).rd m i j = s.rd m i j := rfl

/-- Every register after an entry is written: the record's words in the entry, the others as they were. -/
theorem Chip.rd_writeLogEntry (s : Chip) (n c : Nat) (m : RName) (i j : Nat) :
    (s.writeLogEntry n c).rd m i j =
      if (⟨.FLT_LOG, n, 3⟩ : Reg) = ⟨m, i, j⟩ then s.rd .FLT_REC_TIME_LO c
      else if (⟨.FLT_LOG, n, 2⟩ : Reg) = ⟨m, i, j⟩ then s.rd .FLT_REC_TIME_HI c
      else if (⟨.FLT_LOG, n, 1⟩ : Reg) = ⟨m, i, j⟩ then s.rd .FLT_REC_SRC c
      else if (⟨.FLT_LOG, n, 0⟩ : Reg) = ⟨m, i, j⟩ then
        w32 (s.fld F.FLT_REC_STS.CLASS c * 2 ^ 30 + s.fld F.FLT_REC_STS.MERGED c * 2 ^ 16 + c)
      else s.rd m i j := by
  have hhi : ∀ v v' : W, ((s.wr .FLT_LOG n 0 v).wr .FLT_LOG n 1 v').rd .FLT_REC_TIME_HI c = s.rd .FLT_REC_TIME_HI c := fun v v' => by
    rw [Chip.rd_wr_name _ (by decide), Chip.rd_wr_name _ (by decide)]
  have hlo : ∀ v v' : W, ((s.wr .FLT_LOG n 0 v).wr .FLT_LOG n 1 v').rd .FLT_REC_TIME_LO c = s.rd .FLT_REC_TIME_LO c := fun v v' => by
    rw [Chip.rd_wr_name _ (by decide), Chip.rd_wr_name _ (by decide)]
  unfold Chip.writeLogEntry
  simp only [Chip.rd_wr, hhi, hlo]

/-- Only entry `n` of the log has changed. -/
theorem Chip.rd_writeLogEntry_ne (s : Chip) {n c : Nat} {m : RName} {i : Nat} (j : Nat) (h : m = .FLT_LOG → i ≠ n) :
    (s.writeLogEntry n c).rd m i j = s.rd m i j := by
  have hne : ∀ k, (⟨.FLT_LOG, n, k⟩ : Reg) ≠ ⟨m, i, j⟩ := fun k he => by
    cases he
    exact h rfl rfl
  rw [Chip.rd_writeLogEntry, if_neg (hne 3), if_neg (hne 2), if_neg (hne 1), if_neg (hne 0)]

theorem Chip.fld_ptr_writeLogEntry (s : Chip) (n c : Nat) {f : Fld} (hf : f.reg = .FLT_LOG_PTR) :
    ((s.writeLogEntry n c).unmarkLogEntry n).fld f = s.fld f := by
  unfold Chip.fld
  rw [Chip.rd_unmarkLogEntry, s.rd_writeLogEntry_ne 0 fun h => absurd (hf.symm.trans h) (by decide)]

/-- The pointer alone has changed. -/
theorem Chip.rd_advanceLog (s : Chip) (n : Nat) {m : RName} (hm : .FLT_LOG_PTR ≠ m) (i j : Nat) : (s.advanceLog n).rd m i j = s.rd m i j := by
  unfold Chip.advanceLog
  split
  · exact (Chip.rd_wr_name _ hm ..).trans (s.rd_wr_name hm ..)
  · exact s.rd_wr_name hm ..

theorem Chip.fld_next_advanceLog (s : Chip) (n : Nat) : (s.advanceLog n).fld F.FLT_LOG_PTR.NEXT = (n + 1) % 64 := by
  have hset : (s.set F.FLT_LOG_PTR.NEXT ((n + 1) % 64)).fld F.FLT_LOG_PTR.NEXT = (n + 1) % 64 :=
    (s.fld_set_self _ _ 0 0 (by decide)).trans (Nat.mod_mod _ 64)
  unfold Chip.advanceLog
  split
  · rw [Chip.fld_set_ne (f := F.FLT_LOG_PTR.WRAPPED) (g := F.FLT_LOG_PTR.NEXT) _ 1 0 0 rfl (by decide) (by decide), hset]
  · exact hset

/-- WRAPPED is set with the last entry, and is kept. -/
theorem Chip.is_wrapped_advanceLog (s : Chip) (n : Nat) :
    (s.advanceLog n).is F.FLT_LOG_PTR.WRAPPED = (s.is F.FLT_LOG_PTR.WRAPPED || decide (n = 63)) := by
  have hnext : (s.set F.FLT_LOG_PTR.NEXT ((n + 1) % 64)).fld F.FLT_LOG_PTR.WRAPPED = s.fld F.FLT_LOG_PTR.WRAPPED :=
    s.fld_set_ne _ 0 0 rfl (by decide) (by decide)
  unfold Chip.advanceLog Chip.is
  split
  next h => simp [h, Chip.fld_set_self, F.FLT_LOG_PTR.WRAPPED]
  next h => simp [h, hnext]

/-- A record that is written to the log fills its next entry. -/
theorem Chip.logRecord_fills (s : Chip) (c : Nat) : s.FillsLog (s.logRecord c) c := by
  have hlog : ∀ m j, (s.logRecord c).rd .FLT_LOG m j = (s.writeLogEntry (s.fld F.FLT_LOG_PTR.NEXT) c).rd .FLT_LOG m j := fun m j =>
    (Chip.rd_advanceLog _ _ (by decide) m j).trans (Chip.rd_unmarkLogEntry _ _ _ m j)
  refine ⟨?_, ?_, ?_, ?_, fun m j hm => ?_, Chip.fld_next_advanceLog _ _, ?_⟩
  · simp [hlog, Chip.rd_writeLogEntry]
  · simp [hlog, Chip.rd_writeLogEntry]
  · simp [hlog, Chip.rd_writeLogEntry]
  · simp [hlog, Chip.rd_writeLogEntry]
  · rw [hlog, s.rd_writeLogEntry_ne j fun _ => hm]
  · rw [Chip.logRecord_eq, Chip.is_wrapped_advanceLog, Chip.is, Chip.fld_ptr_writeLogEntry _ _ _ rfl, Chip.is]

theorem Chip.AtRest.writeLogEntry {s : Chip} (h : s.AtRest) (n c : Nat) : (s.writeLogEntry n c).AtRest :=
  (((h.wr ..).wr ..).wr ..).wr ..

theorem Chip.AtRest.unmarkLogEntry {s : Chip} (h : s.AtRest) (n : Nat) : (s.unmarkLogEntry n).AtRest := h

theorem Chip.AtRest.advanceLog {s : Chip} (h : s.AtRest) (n : Nat) : (s.advanceLog n).AtRest := by
  unfold Chip.advanceLog
  split
  · exact (h.set ..).set ..
  · exact h.set ..

theorem Chip.AtRest.logRecord {s : Chip} (h : s.AtRest) (c : Nat) : (s.logRecord c).AtRest :=
  s.logRecord_eq c ▸ ((h.writeLogEntry _ c).unmarkLogEntry _).advanceLog _

/-! ## A record is closed -/

/-- The record of collector `c` reads its reset values, and nothing of it waits to be passed upward. -/
def Chip.resetRecord (s : Chip) (c : Nat) : Chip :=
  let s := ((s.set F.FLT_REC_STS.OPEN 0 c).set F.FLT_REC_STS.CLASS 0 c).set F.FLT_REC_STS.MERGED 0 c
  let s := s.wr .FLT_REC_SRC c 0 0
  let s := (s.wr .FLT_REC_TIME_LO c 0 0).wr .FLT_REC_TIME_HI c 0 0
  { s with unpassed := s.unpassed.filter (fun x => decide (x ≠ c)) }

/-- The slots that the chip's record names go with it. -/
def Chip.resetSlotSrc (s : Chip) (c : Nat) : Chip := if c = chipCollector then s.wr .FLT_SLOT_SRC 0 0 0 else s

/-- The child bit of collector `c` is cleared in its parent. -/
def Chip.clearChildBit (s : Chip) (c : Nat) : Chip :=
  match parentOf c with
  | some (p, bit) => s.wr .FLT_REC_SRC p 0 (w32 (clrBit (s.rd .FLT_REC_SRC p).toNat bit))
  | none => s

theorem Chip.closeRecord_eq (s : Chip) (c : Nat) : s.closeRecord c = ((s.resetRecord c).resetSlotSrc c).clearChildBit c := rfl

theorem Chip.LogKept.resetRecord {s t : Chip} (h : s.LogKept t) (c : Nat) : s.LogKept (t.resetRecord c) :=
  (((((((h.set F.FLT_REC_STS.OPEN 0 c 0).set F.FLT_REC_STS.CLASS 0 c 0).set F.FLT_REC_STS.MERGED 0 c 0).wr .FLT_REC_SRC c 0 0).wr
    .FLT_REC_TIME_LO c 0 0).wr .FLT_REC_TIME_HI c 0 0).unpassed _)

theorem Chip.LogKept.resetSlotSrc {s t : Chip} (h : s.LogKept t) (c : Nat) : s.LogKept (t.resetSlotSrc c) := by
  unfold Chip.resetSlotSrc
  split
  · exact h.wr .FLT_SLOT_SRC 0 0 0
  · exact h

theorem Chip.LogKept.clearChildBit {s t : Chip} (h : s.LogKept t) (c : Nat) : s.LogKept (t.clearChildBit c) := by
  unfold Chip.clearChildBit
  split
  · exact h.wr .FLT_REC_SRC _ 0 _
  · exact h

/-- Closing a record leaves the log as it was. -/
theorem Chip.closeRecord_logKept (s : Chip) (c : Nat) : s.LogKept (s.closeRecord c) :=
  s.closeRecord_eq c ▸ (((LogKept.refl s).resetRecord c).resetSlotSrc c).clearChildBit c

theorem Chip.AtRest.resetRecord {s : Chip} (h : s.AtRest) (c : Nat) : (s.resetRecord c).AtRest :=
  ((((((h.set ..).set ..).set ..).wr ..).wr ..).wr ..).unpassed _

theorem Chip.AtRest.resetSlotSrc {s : Chip} (h : s.AtRest) (c : Nat) : (s.resetSlotSrc c).AtRest := by
  unfold Chip.resetSlotSrc
  split
  · exact h.wr ..
  · exact h

theorem Chip.AtRest.clearChildBit {s : Chip} (h : s.AtRest) (c : Nat) : (s.clearChildBit c).AtRest := by
  unfold Chip.clearChildBit
  split
  · exact h.wr ..
  · exact h

theorem Chip.AtRest.closeRecord {s : Chip} (h : s.AtRest) (c : Nat) : (s.closeRecord c).AtRest :=
  s.closeRecord_eq c ▸ ((h.resetRecord c).resetSlotSrc c).clearChildBit c

/-! ## Clears -/

section
variable {s : Chip} {c : Nat}

/-- A clear of a collector that has no open record finds nothing. -/
theorem Chip.clearRecord_none (ho : ¬ s.is F.FLT_REC_STS.OPEN c = true) : s.clearRecord c = (s, 2) := by
  simp [Chip.clearRecord, ho]

/-- A clear of an open record with a live source is refused and counted (R287). -/
theorem Chip.clearRecord_refused (ho : s.is F.FLT_REC_STS.OPEN c = true) (hl : s.liveBits c ≠ 0) :
    s.clearRecord c = ((s.set F.FLT_REC_STS.REFUSED 1 c).count (cntChip 5), 1) := by
  simp [Chip.clearRecord, ho, hl]

/-- A clear of an open record with no live source is accepted (R287). -/
theorem Chip.clearRecord_accepted (ho : s.is F.FLT_REC_STS.OPEN c = true) (hl : s.liveBits c = 0) :
    s.clearRecord c = ((s.logRecord c).closeRecord c, 0) := by
  simp [Chip.clearRecord, ho, hl]

/-- An accepted clear fills the next entry of the log. -/
theorem Chip.clearRecord_fills (ho : s.is F.FLT_REC_STS.OPEN c = true) (hl : s.liveBits c = 0) :
    s.FillsLog (s.clearRecord c).1 c := by
  rw [Chip.clearRecord_accepted ho hl]
  exact (s.logRecord_fills c).kept (Chip.closeRecord_logKept _ c)

/-- A clear that is not accepted leaves the log as it was. -/
theorem Chip.clearRecord_logKept (h : (s.clearRecord c).2 ≠ 0) : s.LogKept (s.clearRecord c).1 := by
  by_cases ho : s.is F.FLT_REC_STS.OPEN c = true
  · by_cases hl : s.liveBits c = 0
    · exact absurd (congrArg Prod.snd (clearRecord_accepted ho hl)) h
    · rw [clearRecord_refused ho hl]
      exact ((LogKept.refl s).set F.FLT_REC_STS.REFUSED 1 c 0).count (cntChip 5) 1
  · rw [clearRecord_none ho]
    exact LogKept.refl s

theorem Chip.AtRest.clearRecord (h : s.AtRest) (c : Nat) : (s.clearRecord c).1.AtRest := by
  by_cases ho : s.is F.FLT_REC_STS.OPEN c = true
  · by_cases hl : s.liveBits c = 0
    · rw [clearRecord_accepted ho hl]
      exact (h.logRecord c).closeRecord c
    · rw [clearRecord_refused ho hl]
      exact ((SentFrom.refl _).count (cntChip 5) 1).atRest (h.set F.FLT_REC_STS.REFUSED 1 c 0)
  · rw [clearRecord_none ho]
    exact h

end

/-- The clear of every collector clears them one after the other, cells first (R292). -/
theorem Chip.clearAll_eq_foldl (s : Chip) : s.clearAll.1 = (List.range 169).foldl (fun u k => (u.clearRecord k).1) s := by
  unfold Chip.clearAll
  refine (List.foldl_hom Prod.fst fun u k => ?_).symm
  rcases u.1.clearRecord k with ⟨t, _ | _ | r⟩ <;> rfl

theorem Chip.AtRest.clearAll {s : Chip} (h : s.AtRest) : s.clearAll.1.AtRest := by
  rw [Chip.clearAll_eq_foldl]
  exact List.foldlRecOn _ _ h fun u hu k _ => hu.clearRecord k

/-- FAULT_CLEAR of one collector clears its record. -/
theorem Chip.faultClear_one (s : Chip) {c : Nat} (hc : c < 169) : (s.faultClear c).1 = (s.clearRecord c).1 := by
  unfold Chip.faultClear
  rw [if_neg (by omega), if_neg (by omega)]
  simp only
  rcases s.clearRecord c with ⟨t, _ | r⟩ <;> rfl

/-- FAULT_CLEAR of 255 clears every record. -/
theorem Chip.faultClear_all (s : Chip) : (s.faultClear 255).1 = s.clearAll.1 := rfl

theorem Chip.AtRest.faultClear {s : Chip} (h : s.AtRest) (c : Nat) : (s.faultClear c).1.AtRest := by
  by_cases hc : c < 169
  · rw [s.faultClear_one hc]
    exact h.clearRecord c
  · by_cases hall : c = 255
    · rw [hall, Chip.faultClear_all]
      exact h.clearAll
    · rw [Chip.faultClear, if_neg hall, if_pos (by omega)]
      exact h

/-! ## The commands -/

/-- The command FLT_REC_CLEAR clears the record of its collector. -/
theorem exec_fltRecClear {s : State} {c : Nat} (hr : s.chip.AtRest) (hc : c < 169) :
    exec (.fltRecClear c) s = .next (s.withChip (s.fresh.clearRecord c).1) :=
  onChip_rest (decide_eq_true hc) (Chip.AtRest.clearRecord (s := s.fresh) hr c)

/-- The command FAULT_CLEAR leaves the log as the clear of the collector that its word names does: its reply changes nothing of it. -/
theorem exec_faultClear_log {s : State} {q : KmpReq} {x : Sess} (hr : s.chip.AtRest) (hq : q.wf = true) (hh : s.Hears 0x0610 q x)
    (hlen : q.words.length = 1) :
    s.Does (.faultClear q) fun t => ((s.begun 0x0610 q x).chip.faultClear ((q.words.getD 0 0).toNat % 256)).1.LogKept t.chip := by
  obtain ⟨hidle, hmail⟩ := s.begun_idle 0x0610 q x hr
  obtain ⟨hf, hrest⟩ := hidle
  have hcollector : bitsOf (wordAt q.words 0) 0 8 = (q.words.getD 0 0).toNat % 256 := by simp [bitsOf, wordAt]
  generalize hu : (s.begun 0x0610 q x).chip.faultClear ((q.words.getD 0 0).toNat % 256) = u
  have hserved : s.served 0x0610 q x = u.1.reply (x.req 0x0610) 0 u.2 := by
    rw [State.served_eq hh, ← hu, ← hcollector]
    exact if_pos hlen
  obtain ⟨hf', hm', hi'⟩ : u.1.AtRest := hu ▸ Chip.AtRest.faultClear ⟨hf, hmail, hrest⟩ _
  have hidle' : (u.1.reply (x.req 0x0610) 0 u.2).Idle := ⟨hf', hi'⟩
  have htidy : (s.served 0x0610 q x).tidy = u.1.reply (x.req 0x0610) 0 u.2 := by rw [hserved, Chip.tidy_idle hidle']
  have hexec : exec (.faultClear q) s = _ := kmp_answers (ok := q.wf) hq (by decide) hh htidy hidle' (congrArg (· ++ _) hm')
  refine ⟨_, hexec, State.deliver_pending _ _ rfl, ?_⟩
  exact (State.deliver_sent (m := .reply ..) rfl).logKept

/-- Settles O51: an accepted clear writes the record to the log before it closes it, and neither the closing nor the reply changes the log. -/
theorem acceptedClearsFillTheLog : Obligations.AcceptedClearsFillTheLog := by
  unfold Obligations.AcceptedClearsFillTheLog
  refine ⟨fun s c hr hc ho hl => ?_, fun s q x hr hq hh hlen => ⟨fun hc ho hl => ?_, fun hall => ?_⟩, fun a c _ => ⟨fun ho hl => ?_, ?_⟩⟩
  · exact ⟨_, exec_fltRecClear hr hc, rfl, Chip.clearRecord_fills (s := s.fresh) ho hl⟩
  · obtain ⟨t, ht, hp, hlog⟩ := exec_faultClear_log hr hq hh hlen
    rw [Chip.faultClear_one _ hc] at hlog
    exact ⟨t, ht, hp, (Chip.clearRecord_fills ho hl).kept hlog⟩
  · obtain ⟨t, ht, hp, hlog⟩ := exec_faultClear_log hr hq hh hlen
    rw [hall, Chip.faultClear_all, Chip.clearAll_eq_foldl] at hlog
    exact ⟨t, ht, hp, hlog⟩
  · exact ⟨congrArg Prod.snd (Chip.clearRecord_accepted ho hl), Chip.clearRecord_fills ho hl⟩
  · exact Chip.clearRecord_logKept

end Sys2Proof.Machine
end

section
/-! SUPPORT. The latching reads of the time base (R334) and of a counter (R358): what each latches for its initiator (R386), what a read
of the latched registers then returns, and the commands TIME_BASE_READ and COUNTER_READ as such reads. -/

namespace Sys2Proof.Machine

/-! ## Latches -/

@[simp] theorem Chip.latch_setLatch_self (c : Chip) (ini k : Nat) (l : List Nat) : (c.setLatch ini k l).latch ini k = l :=
  Tab.get_set_self _ _ _ _

/-- A read of an initiator is answered with one value. -/
@[simp] theorem Chip.value_outbox (c : Chip) (ini v : Nat) : (c.value ini v).outbox = c.outbox ++ [.value ini v] := rfl

theorem Chip.AtRest.setLatch {c : Chip} (h : c.AtRest) (ini k : Nat) (l : List Nat) : (c.setLatch ini k l).AtRest := h

theorem Chip.AtRest.value {c : Chip} (h : c.AtRest) (ini v : Nat) : (c.value ini v).AtRest := h

/-- A change of the chip leaves the queue of commands as it was. -/
theorem State.withChip_pending (s : State) (c : Chip) : (s.withChip c).pending = s.pending := rfl

/-! ## Reads of the latched registers -/

theorem Chip.regRead_nowHi (c : Chip) (v : List (Nat × Nat)) (ini i j : Nat) :
    c.regRead v ini ⟨.TMB_NOW_HI, i, j⟩ = (c, (c.latch ini latTmb).getD 0 0 % 2 ^ 32) := rfl

theorem Chip.regRead_nowFrac (c : Chip) (v : List (Nat × Nat)) (ini i j : Nat) :
    c.regRead v ini ⟨.TMB_NOW_FRAC, i, j⟩ = (c, (c.latch ini latTmb).getD 1 0 % 2 ^ 32) := rfl

theorem Chip.regRead_cntValHi (c : Chip) (v : List (Nat × Nat)) (ini n j : Nat) :
    c.regRead v ini ⟨.CNT_VAL_HI, n, j⟩ = (c, (c.latch ini (latCnt n)).getD 0 0 % 2 ^ 32) := rfl

/-! ## The time base -/

/-- Of every chip that still holds what `u` latched for `ini`, reads of HI and FRAC form with `lo` the time `now`, of 64 bits of
nanoseconds and four of their sixteenths (R331, R334). -/
def Chip.FormsTime (u : Chip) (ini lo now : Nat) : Prop :=
  ∀ c : Chip, c.latch ini latTmb = u.latch ini latTmb → ∃ hi frac, frac < 16 ∧ (hi * 2 ^ 32 + lo) * 16 + frac = now % 2 ^ 68 ∧
    ∀ v, c.regRead v ini ⟨.TMB_NOW_HI, 0, 0⟩ = (c, hi) ∧ c.regRead v ini ⟨.TMB_NOW_FRAC, 0, 0⟩ = (c, frac)

/-- The low word of nanoseconds, the high word and the sixteenths make up the time. -/
theorem time_parts (t : Nat) : (t / 16 / 2 ^ 32 % 2 ^ 32 * 2 ^ 32 + t / 16 % 2 ^ 32) * 16 + t % 16 = t % 2 ^ 68 := by omega

theorem Chip.formsTime_of_latch {u : Chip} {ini now : Nat} (h : u.latch ini latTmb = [now / 16 / 2 ^ 32 % 2 ^ 32, now % 16]) :
    u.FormsTime ini (now / 16 % 2 ^ 32) now := by
  intro c hc
  rw [h] at hc
  have hfrac : now % 16 % 2 ^ 32 = now % 16 := Nat.mod_eq_of_lt (by omega)
  refine ⟨now / 16 / 2 ^ 32 % 2 ^ 32, now % 16, Nat.mod_lt _ (by decide), time_parts now, fun v => ⟨?_, ?_⟩⟩
  · rw [Chip.regRead_nowHi, hc, List.getD_cons_zero, Nat.mod_mod]
  · rw [Chip.regRead_nowFrac, hc, List.getD_cons_succ, List.getD_cons_zero, hfrac]

theorem Chip.FormsTime.value {u : Chip} {ini lo now : Nat} (h : u.FormsTime ini lo now) (i v : Nat) : (u.value i v).FormsTime ini lo now := h

theorem Chip.readTime_latch (c : Chip) (ini : Nat) : (c.readTime ini).1.latch ini latTmb = [c.time / 16 / 2 ^ 32 % 2 ^ 32, c.time % 16] :=
  c.latch_setLatch_self _ _ _

/-- A read of TMB_NOW_LO returns the word that the registers it latches complete. -/
theorem Chip.readTime_formsTime (c : Chip) (ini : Nat) : (c.readTime ini).1.FormsTime ini (c.readTime ini).2 c.time :=
  Chip.formsTime_of_latch (c.readTime_latch ini)

theorem Chip.AtRest.readTime {c : Chip} (h : c.AtRest) (ini : Nat) : (c.readTime ini).1.AtRest := h.setLatch _ _ _

/-- The command TIME_BASE_READ gives its initiator what a read of TMB_NOW_LO returns. -/
theorem exec_timeBaseRead {s : State} {ini : Nat} (hr : s.chip.AtRest) (hi : ini < 256) :
    exec (.timeBaseRead ini) s = .next (s.withChip ((s.fresh.readTime ini).1.value ini (s.fresh.readTime ini).2)) :=
  onChip_rest (decide_eq_true hi) ((Chip.AtRest.readTime (c := s.fresh) hr ini).value _ _)

/-! ## A counter -/

/-- Of every chip that still holds what `u` latched for `ini` of counter `n`, a read of HI forms with `lo` the value `now` (R358). -/
def Chip.FormsCount (u : Chip) (ini n lo now : Nat) : Prop :=
  ∀ c : Chip, c.latch ini (latCnt n) = u.latch ini (latCnt n) → ∃ hi, hi * 2 ^ 32 + lo = now ∧
    ∀ v, c.regRead v ini ⟨.CNT_VAL_HI, n, 0⟩ = (c, hi)

/-- A counter has 48 bits, so that the bits above its low word are within the latched register. -/
theorem Chip.formsCount_of_latch {u : Chip} {ini n now : Nat} (h : u.latch ini (latCnt n) = [now / 2 ^ 32]) (hnow : now < 2 ^ 48) :
    u.FormsCount ini n (now % 2 ^ 32) now := by
  intro c hc
  rw [h] at hc
  have hhi : now / 2 ^ 32 % 2 ^ 32 = now / 2 ^ 32 := Nat.mod_eq_of_lt (by omega)
  refine ⟨now / 2 ^ 32, Nat.div_add_mod' now (2 ^ 32), fun v => ?_⟩
  rw [Chip.regRead_cntValHi, hc, List.getD_cons_zero, hhi]

theorem Chip.FormsCount.value {u : Chip} {ini n lo now : Nat} (h : u.FormsCount ini n lo now) (i v : Nat) :
    (u.value i v).FormsCount ini n lo now := h

theorem Chip.readCounter_latch (c : Chip) (ini n : Nat) :
    (c.readCounter ini n).1.latch ini (latCnt n) = [(c.freshCount n).counter n / 2 ^ 32] := (c.freshCount n).latch_setLatch_self _ _ _

/-- A read of CNT_VAL_LO returns the word that the register it latches completes, of the value after the check of the counter's word. -/
theorem Chip.readCounter_formsCount {c : Chip} {n : Nat} (ini : Nat) (h : (c.freshCount n).counter n < 2 ^ 48) :
    (c.readCounter ini n).1.FormsCount ini n (c.readCounter ini n).2 ((c.freshCount n).counter n) :=
  Chip.formsCount_of_latch (c.readCounter_latch ini n) h

/-- A chip with no uncorrectable word keeps its counters as they are (R354). -/
theorem Chip.freshCount_of_noBadWords {c : Chip} (h : c.badWords = []) (n : Nat) : c.freshCount n = c :=
  if_neg (by simp [h])

theorem Chip.freshCount_outbox (c : Chip) (n : Nat) : (c.freshCount n).outbox = c.outbox := by
  unfold Chip.freshCount
  split <;> rfl

theorem Chip.AtRest.freshCount {c : Chip} (h : c.AtRest) (n : Nat) : (c.freshCount n).AtRest := by
  unfold Chip.freshCount
  split <;> exact h

theorem Chip.AtRest.readCounter {c : Chip} (h : c.AtRest) (ini n : Nat) : (c.readCounter ini n).1.AtRest := (h.freshCount n).setLatch _ _ _

theorem Chip.readCounter_outbox (c : Chip) (ini n : Nat) : (c.readCounter ini n).1.outbox = c.outbox := c.freshCount_outbox n

/-- The command COUNTER_READ gives its initiator what a read of CNT_VAL_LO returns. -/
theorem exec_counterRead {s : State} {ini n : Nat} (hr : s.chip.AtRest) (hi : ini < 256) (hn : n < 4096) :
    exec (.counterRead ini n) s = .next (s.withChip ((s.fresh.readCounter ini n).1.value ini (s.fresh.readCounter ini n).2)) :=
  onChip_rest (by simp [Instr.wf, hi, hn]) ((Chip.AtRest.readCounter (c := s.fresh) hr ini n).value _ _)

/-! ## The values formed -/

theorem timeBaseRead_formsTime {s : State} {ini : Nat} (hr : s.chip.AtRest) (hi : ini < 256) :
    s.Does (.timeBaseRead ini) fun t => ∃ lo, t.chip.outbox = [.value ini lo] ∧ t.chip.FormsTime ini lo s.chip.time := by
  refine ⟨_, exec_timeBaseRead hr hi, s.withChip_pending _, (s.fresh.readTime ini).2, ?_, ?_⟩
  · exact (s.fresh.readTime ini).1.value_outbox ini _
  · exact (s.fresh.readTime_formsTime ini).value ini _

theorem counterRead_formsCount {s : State} {ini n : Nat} (hr : s.chip.AtRest) (hi : ini < 256) (hn : n < 4096) (hb : s.chip.badWords = [])
    (hc : s.chip.counter n < 2 ^ 48) :
    s.Does (.counterRead ini n) fun t => ∃ lo, t.chip.outbox = [.value ini lo] ∧ t.chip.FormsCount ini n lo (s.chip.counter n) := by
  have hfresh : s.fresh.freshCount n = s.fresh := Chip.freshCount_of_noBadWords (c := s.fresh) hb n
  have hval : (s.fresh.freshCount n).counter n = s.chip.counter n := by rw [hfresh]; rfl
  have hforms := Chip.readCounter_formsCount (c := s.fresh) (n := n) ini (hval ▸ hc)
  rw [hval] at hforms
  refine ⟨_, exec_counterRead hr hi hn, s.withChip_pending _, (s.fresh.readCounter ini n).2, ?_, ?_⟩
  · exact congrArg (· ++ _) (s.fresh.readCounter_outbox ini n)
  · exact hforms.value ini _

/-- Settles O54: each latching read stores the upper part of the value whose low word it returns, and a read of a latched register
depends on nothing but the latch of its initiator. -/
theorem latchingReadsFormOneValue : Obligations.LatchingReadsFormOneValue := by
  unfold Obligations.LatchingReadsFormOneValue
  refine ⟨fun s ini hr hi => ⟨?_, fun n hn hb hc => ?_⟩, fun a ini v => ⟨?_, fun n hn hc => ?_⟩⟩
  · exact timeBaseRead_formsTime hr hi
  · exact counterRead_formsCount hr hi hn hb hc
  · exact a.readTime_formsTime ini
  · exact Chip.readCounter_formsCount ini hc

end Sys2Proof.Machine
end

section
/-! SUPPORT. What keeps the slot channels as they are: registers by name, the records of faults, and the operations that every part of the
chip is changed by. -/

namespace Sys2Proof.Machine

/-! ## Registers of the names listed -/

/-- The registers of the names listed have not changed. -/
def Chip.RegsKept (l : List RName) (s t : Chip) : Prop := ∀ n ∈ l, ∀ i j, t.rd n i j = s.rd n i j

section
variable {l : List RName} {s t : Chip}

theorem Chip.RegsKept.refl (l : List RName) (s : Chip) : s.RegsKept l s := fun _ _ _ _ => rfl

theorem Chip.RegsKept.trans {u : Chip} (h : Chip.RegsKept l s t) (h' : Chip.RegsKept l t u) : Chip.RegsKept l s u :=
  fun n hn i j => (h' n hn i j).trans (h n hn i j)

theorem Chip.RegsKept.wr (h : Chip.RegsKept l s t) {n : RName} {i j : Nat} {v : W} (hn : n ∉ l) :
    Chip.RegsKept l s (t.wr n i j v) := fun m hm i' j' =>
  (t.rd_wr_name (fun he : n = m => hn (he ▸ hm)) i j i' j' v).trans (h m hm i' j')

theorem Chip.RegsKept.set (h : Chip.RegsKept l s t) {f : Fld} {v i j : Nat} (hf : f.reg ∉ l) :
    Chip.RegsKept l s (t.set f v i j) := h.wr hf

theorem Chip.RegsKept.count (h : Chip.RegsKept l s t) {n k : Nat} (hl : RName.CNT_OVF ∉ l) :
    Chip.RegsKept l s (t.count n k) := fun m hm i j =>
  (t.rd_count n k m i j fun he => hl (he ▸ hm)).trans (h m hm i j)

/-- A field of a register that has not changed reads as before. -/
theorem Chip.RegsKept.fld (h : Chip.RegsKept l s t) {f : Fld} (i j : Nat) (hf : f.reg ∈ l) : t.fld f i j = s.fld f i j := by
  rw [Chip.fld, Chip.fld, h _ hf]

theorem Chip.RegsKept.is (h : Chip.RegsKept l s t) {f : Fld} (i j : Nat) (hf : f.reg ∈ l) : t.is f i j = s.is f i j := by
  rw [Chip.is, Chip.is, h.fld i j hf]

end

/-! ## Fields of a word -/

/-- A field of a register of another name reads as before. -/
theorem Chip.fld_set_name (s : Chip) {f g : Fld} (v i j i' j' : Nat) (h : f.reg ≠ g.reg) : (s.set f v i j).fld g i' j' = s.fld g i' j' :=
  s.fld_set_reg v i j i' j' fun he => h (congrArg Reg.name he)

/-- A bit of a word is the bit of the number that it is made from. -/
theorem bitAt_w32 (v : Nat) {b : Nat} (h : b < 32) : bitAt (w32 v).toNat b = bitAt v b := by
  rw [bitAt_testBit, bitAt_testBit, w32, BitVec.toNat_ofNat, Nat.testBit_mod_two_pow, decide_eq_true h, Bool.true_and]

theorem bitAt_or (v w b : Nat) : bitAt (v ||| w) b = (bitAt v b || bitAt w b) := by
  simp [bitAt_testBit]

theorem bitAt_two_pow_self (b : Nat) : bitAt (2 ^ b) b = true := by
  simp [bitAt_testBit]

theorem bitAt_setBit_self (v b : Nat) : bitAt (setBit v b) b = true := by
  unfold setBit
  split
  · assumption
  · rename_i h
    rw [bitAt_testBit] at h ⊢
    rw [Nat.add_comm, Nat.testBit_two_pow_add_eq]
    simpa using h

/-! ## An error at a collector (R273, R274) -/

/-- An error merges into the open record of collector `c`. -/
def Chip.mergeRecord (s : Chip) (c srcs cls errs : Nat) : Chip :=
  let oldC := s.fld F.FLT_REC_STS.CLASS c
  let oldS := (s.rd .FLT_REC_SRC c).toNat
  let s := s.set F.FLT_REC_STS.MERGED (min (s.fld F.FLT_REC_STS.MERGED c + errs) 255) c
  (s.set F.FLT_REC_STS.CLASS (max oldC cls) c).wr .FLT_REC_SRC c 0 (w32 (oldS ||| srcs))

/-- An error opens the record of collector `c`. -/
def Chip.openRecord (s : Chip) (c srcs cls errs : Nat) : Chip :=
  let s := s.set F.FLT_REC_STS.OPEN 1 c
  let s := s.set F.FLT_REC_STS.CLASS cls c
  let s := s.set F.FLT_REC_STS.MERGED (min (errs - 1) 255) c
  let s := s.wr .FLT_REC_SRC c 0 (w32 srcs)
  let s := s.wr .FLT_REC_TIME_LO c 0 (w32 s.ns)
  s.wr .FLT_REC_TIME_HI c 0 (w32 (s.ns / 2 ^ 32))

/-- An error that is not of class F merges into the record or opens it; a record that has changed is told of (R291). -/
theorem Chip.raiseBits_eq (s : Chip) {c srcs cls errs : Nat} (hc : cls ≠ clsF) :
    s.raiseBits c srcs cls errs =
      if s.is F.FLT_REC_STS.OPEN c then
        if max (s.fld F.FLT_REC_STS.CLASS c) cls ≠ s.fld F.FLT_REC_STS.CLASS c ||
            ((s.rd .FLT_REC_SRC c).toNat ||| srcs) ≠ (s.rd .FLT_REC_SRC c).toNat then
          ((s.mergeRecord c srcs cls errs).unpass c).faultEvent c
        else s.mergeRecord c srcs cls errs
      else (((s.openRecord c srcs cls errs).count (cntChip cls)).unpass c).faultEvent c := by
  unfold Chip.raiseBits
  rw [if_neg (c := cls = clsF ∧ s.fatal = none) fun h => hc h.1]
  rfl

/-- What is told of a record changes no register. -/
theorem Chip.rd_noticed (s : Chip) (c : Nat) (n : RName) (i j : Nat) : ((s.unpass c).faultEvent c).rd n i j = s.rd n i j := by
  unfold Chip.faultEvent Chip.unpass
  split <;> split <;> rfl

/-- What changes no register of a record leaves it raised. -/
theorem Chip.Raised.kept {s t : Chip} {c bit cls : Nat} (h : s.Raised c bit cls) (hk : Chip.RegsKept recRegs s t) : t.Raised c bit cls := by
  obtain ⟨ho, hb, hcls⟩ := h
  have hsrc : t.rd .FLT_REC_SRC c = s.rd .FLT_REC_SRC c := hk _ (by decide) _ _
  exact ⟨(hk.is (f := F.FLT_REC_STS.OPEN) c 0 (by decide)).trans ho, hsrc ▸ hb, hk.fld (f := F.FLT_REC_STS.CLASS) c 0 (by decide) ▸ hcls⟩

/-- The record of another collector stays as it is. -/
theorem Chip.Raised.other {s t : Chip} {c c' bit cls : Nat} (h : s.Raised c bit cls) (hne : c ≠ c')
    (hk : ∀ n i j, i ≠ c' → t.rd n i j = s.rd n i j) : t.Raised c bit cls := by
  unfold Chip.Raised Chip.is Chip.fld at h ⊢
  simpa only [hk _ c _ hne] using h

/-- A register that belongs to another part of the chip is not written. -/
theorem Chip.rd_wr_inst (s : Chip) {i i' : Nat} (h : i' ≠ i) (n n' : RName) (j j' : Nat) (v : W) :
    (s.wr n i j v).rd n' i' j' = s.rd n' i' j' :=
  s.rd_wr_ne v fun he => h (congrArg Reg.i he).symm

theorem Chip.rd_mergeRecord_inst (s : Chip) (c srcs cls errs : Nat) (n : RName) (i j : Nat) (h : i ≠ c) :
    (s.mergeRecord c srcs cls errs).rd n i j = s.rd n i j := by
  simp only [Chip.mergeRecord, Chip.set, Chip.rd_wr_inst _ h]

theorem Chip.rd_openRecord_inst (s : Chip) (c srcs cls errs : Nat) (n : RName) (i j : Nat) (h : i ≠ c) :
    (s.openRecord c srcs cls errs).rd n i j = s.rd n i j := by
  simp only [Chip.openRecord, Chip.set, Chip.rd_wr_inst _ h]

/-- The record of a chip's collector has the class that is the graver of its own and the error's. -/
theorem Chip.fld_class_mergeRecord (s : Chip) {c srcs cls errs : Nat} (hc : cls < 4) :
    (s.mergeRecord c srcs cls errs).fld F.FLT_REC_STS.CLASS c = max (s.fld F.FLT_REC_STS.CLASS c) cls := by
  have hold : s.fld F.FLT_REC_STS.CLASS c < 4 := bitsOf_lt _ _ 2
  have hmax : max (s.fld F.FLT_REC_STS.CLASS c) cls < 4 := by omega
  unfold Chip.mergeRecord
  rw [Chip.fld, Chip.rd_wr_name _ (by decide), ← Chip.fld, Chip.fld_set_self _ _ _ _ _ (by decide)]
  exact Nat.mod_eq_of_lt hmax

theorem Chip.is_open_mergeRecord (s : Chip) (c srcs cls errs : Nat) :
    (s.mergeRecord c srcs cls errs).is F.FLT_REC_STS.OPEN c = s.is F.FLT_REC_STS.OPEN c := by
  unfold Chip.mergeRecord
  unfold Chip.is
  rw [Chip.fld, Chip.rd_wr_name _ (by decide), ← Chip.fld]
  simp (disch := decide) only [Chip.fld_set_ne]

theorem Chip.rd_src_mergeRecord (s : Chip) (c srcs cls errs : Nat) :
    (s.mergeRecord c srcs cls errs).rd .FLT_REC_SRC c = w32 ((s.rd .FLT_REC_SRC c).toNat ||| srcs) := Chip.rd_wr_self ..

/-- An error that merges is in the record, which loses nothing by it. -/
theorem Chip.mergeRecord_raised (s : Chip) {c bit cls errs : Nat} (ho : s.is F.FLT_REC_STS.OPEN c = true) (hb : bit < 32) (hc : cls < 4) :
    (s.mergeRecord c (2 ^ bit) cls errs).Raised c bit cls := by
  refine ⟨(s.is_open_mergeRecord ..).trans ho, ?_, ?_⟩
  · rw [Chip.rd_src_mergeRecord, bitAt_w32 _ hb, bitAt_or, bitAt_two_pow_self, Bool.or_true]
  · rw [s.fld_class_mergeRecord hc]
    exact Nat.le_max_right _ _

/-- The source bits of a record are those of a word. -/
theorem bitAt_lt {w : W} {b : Nat} (h : bitAt w.toNat b = true) : b < 32 := by
  rw [bitAt_testBit] at h
  by_contra hb
  have hw : w.toNat < 2 ^ b := lt_of_lt_of_le w.isLt (Nat.pow_le_pow_right (by decide) (by omega))
  rw [Nat.testBit_lt_two_pow hw] at h
  cases h

theorem Chip.Raised.mergeRecord {s : Chip} {c c' bit cls srcs cls' errs : Nat} (h : s.Raised c bit cls) (hc : cls' < 4) :
    (s.mergeRecord c' srcs cls' errs).Raised c bit cls := by
  by_cases hcc : c = c'
  · subst hcc
    obtain ⟨ho, hb, hcls⟩ := h
    refine ⟨(s.is_open_mergeRecord ..).trans ho, ?_, ?_⟩
    · rw [Chip.rd_src_mergeRecord, bitAt_w32 _ (bitAt_lt hb), bitAt_or, hb, Bool.true_or]
    · rw [s.fld_class_mergeRecord hc]
      exact le_trans hcls (Nat.le_max_left _ _)
  · exact h.other hcc fun n i j hi => s.rd_mergeRecord_inst c' srcs cls' errs n i j hi

/-- An error that opens the record is in it. -/
theorem Chip.openRecord_raised (s : Chip) {c bit cls errs : Nat} (hb : bit < 32) (hc : cls < 4) :
    (s.openRecord c (2 ^ bit) cls errs).Raised c bit cls := by
  have hsts : ∀ f : Fld, f.reg = .FLT_REC_STS → (s.openRecord c (2 ^ bit) cls errs).fld f c =
      (((s.set F.FLT_REC_STS.OPEN 1 c).set F.FLT_REC_STS.CLASS cls c).set F.FLT_REC_STS.MERGED (min (errs - 1) 255) c).fld f c := by
    intro f hf
    unfold Chip.openRecord Chip.fld
    rw [hf, Chip.rd_wr_name _ (by decide), Chip.rd_wr_name _ (by decide), Chip.rd_wr_name _ (by decide)]
  refine ⟨?_, ?_, ?_⟩
  · rw [Chip.is, hsts _ rfl]
    simp (disch := decide) only [Chip.fld_set_ne, Chip.fld_set_self]
    rfl
  · have hsrc : (s.openRecord c (2 ^ bit) cls errs).rd .FLT_REC_SRC c = w32 (2 ^ bit) := by
      unfold Chip.openRecord
      rw [Chip.rd_wr_name _ (by decide), Chip.rd_wr_name _ (by decide), Chip.rd_wr_self]
    rw [hsrc, bitAt_w32 _ hb, bitAt_two_pow_self]
  · rw [hsts _ rfl]
    simp (disch := decide) only [Chip.fld_set_ne, Chip.fld_set_self]
    exact le_of_eq (Nat.mod_eq_of_lt hc).symm

/-- The record of another collector stays as it is; the collector's own was closed. -/
theorem Chip.Raised.openRecord {s : Chip} {c c' bit cls srcs cls' errs : Nat} (h : s.Raised c bit cls)
    (ho : ¬ s.is F.FLT_REC_STS.OPEN c' = true) : (s.openRecord c' srcs cls' errs).Raised c bit cls :=
  h.other (fun he : c = c' => ho (he ▸ h.1)) fun n i j hi => s.rd_openRecord_inst c' srcs cls' errs n i j hi

theorem Chip.RegsKept.mergeRecord {l : List RName} {s t : Chip} (h : Chip.RegsKept l s t) {c srcs cls errs : Nat}
    (hl : RName.FLT_REC_STS ∉ l ∧ RName.FLT_REC_SRC ∉ l) : Chip.RegsKept l s (t.mergeRecord c srcs cls errs) :=
  .wr (.set (.set h (hf := hl.1)) (hf := hl.1)) hl.2

theorem Chip.RegsKept.openRecord {l : List RName} {s t : Chip} (h : Chip.RegsKept l s t) {c srcs cls errs : Nat}
    (hl : ∀ n ∈ recRegs, n ∉ l) : Chip.RegsKept l s (t.openRecord c srcs cls errs) :=
  have hsts := hl .FLT_REC_STS (by decide)
  .wr (.wr (.wr (.set (.set (.set h (hf := hsts)) (hf := hsts)) (hf := hsts)) (hl _ (by decide))) (hl _ (by decide))) (hl _ (by decide))

theorem Chip.RegsKept.noticed {l : List RName} {s t : Chip} (h : Chip.RegsKept l s t) {c : Nat} :
    Chip.RegsKept l s ((t.unpass c).faultEvent c) := fun n hn i j => (t.rd_noticed c n i j).trans (h n hn i j)

/-- An error is in the record of its collector. -/
theorem Chip.raise_raised (s : Chip) {c bit cls : Nat} (hb : bit < 32) (hc : cls < 3) : (s.raise c bit cls).Raised c bit cls := by
  unfold Chip.raise
  rw [Chip.raiseBits_eq s (show cls ≠ 3 by omega)]
  split
  · rename_i ho
    have hm : (s.mergeRecord c (2 ^ bit) cls 1).Raised c bit cls := s.mergeRecord_raised ho hb (by omega)
    split
    · exact hm.kept (RegsKept.refl _ _).noticed
    · exact hm
  · exact (s.openRecord_raised hb (by omega)).kept ((RegsKept.refl _ _).count (by decide)).noticed

end Sys2Proof.Machine
end

section
/-! SUPPORT. Nothing that follows a trip by itself acts on a slot channel (R118, Table 6.8): ports go out of service, messages are flushed,
groves fall, grafts abort, bindings are squashed, and the slot registers, the slot channels and the sources recorded stay. -/

namespace Sys2Proof.Machine

/-- The registers that tell of slot channels. -/
def slotRegs : List RName := [.SLT_STS, .SLT_EVT, .FLT_SLOT_SRC]

/-- What a chip holds beside its registers of slot channels, class F errors, tests, power commands and commands for the binding engine. -/
def Chip.slotParts (c : Chip) : Tab SlotX × Option Nat × Option TestX × PowerX × List EngOp :=
  (c.slots, c.fatal, c.test, c.pw, c.engCmd)

theorem Chip.slotParts_wr (s : Chip) (n : RName) (i j : Nat) (v : W) : (s.wr n i j v).slotParts = s.slotParts := rfl

theorem Chip.slotParts_set (s : Chip) (f : Fld) (v i j : Nat) : (s.set f v i j).slotParts = s.slotParts := rfl

theorem Chip.slotParts_mergeRecord (s : Chip) (c srcs cls errs : Nat) : (s.mergeRecord c srcs cls errs).slotParts = s.slotParts := by
  rw [Chip.mergeRecord, Chip.slotParts_wr, Chip.slotParts_set, Chip.slotParts_set]

theorem Chip.slotParts_openRecord (s : Chip) (c srcs cls errs : Nat) : (s.openRecord c srcs cls errs).slotParts = s.slotParts := by
  rw [Chip.openRecord, Chip.slotParts_wr, Chip.slotParts_wr, Chip.slotParts_wr, Chip.slotParts_set, Chip.slotParts_set,
    Chip.slotParts_set]

theorem Chip.mail_mergeRecord (s : Chip) (c srcs cls errs : Nat) : (s.mergeRecord c srcs cls errs).mail = s.mail := by
  rw [Chip.mergeRecord, Chip.wr_mail, Chip.set_mail, Chip.set_mail]

theorem Chip.mail_openRecord (s : Chip) (c srcs cls errs : Nat) : (s.openRecord c srcs cls errs).mail = s.mail := by
  rw [Chip.openRecord, Chip.wr_mail, Chip.wr_mail, Chip.wr_mail, Chip.set_mail, Chip.set_mail, Chip.set_mail]

/-- From `s` to `t` no slot channel has changed and no record has lost a source; no error of class F, no test, no power command and no
command for the engine has come up; and what has been posted is only to be sent. -/
def Chip.SlotsKept (s t : Chip) : Prop :=
  Chip.RegsKept slotRegs s t ∧ (∀ c bit cls, s.Raised c bit cls → t.Raised c bit cls) ∧ t.slotParts = s.slotParts ∧
    ((∀ m ∈ s.mail, m.plain = true) → ∀ m ∈ t.mail, m.plain = true)

section
variable {s t u : Chip}

theorem Chip.SlotsKept.refl (s : Chip) : s.SlotsKept s := ⟨.refl _ _, fun _ _ _ h => h, rfl, fun h => h⟩

theorem Chip.SlotsKept.trans (h : s.SlotsKept t) (h' : t.SlotsKept u) : s.SlotsKept u := by
  obtain ⟨hr, hf, hp, hm⟩ := h
  obtain ⟨hr', hf', hp', hm'⟩ := h'
  exact ⟨hr.trans hr', fun c bit cls hs => hf' c bit cls (hf c bit cls hs), hp'.trans hp, fun hs => hm' (hm hs)⟩

/-! ## Registers, counters and tables -/

theorem Chip.SlotsKept.wr (h : s.SlotsKept t) {n : RName} {i j : Nat} {v : W} (hn : n ∉ slotRegs ++ recRegs) :
    s.SlotsKept (t.wr n i j v) := by
  obtain ⟨hr, hf, hp, hm⟩ := h
  obtain ⟨hslot, hrec⟩ := not_or.mp (mt List.mem_append.mpr hn)
  exact ⟨hr.wr hslot, fun c bit cls hs => (hf c bit cls hs).kept ((RegsKept.refl _ _).wr hrec), hp, hm⟩

theorem Chip.SlotsKept.set (h : s.SlotsKept t) {f : Fld} {v i j : Nat} (hf : f.reg ∉ slotRegs ++ recRegs) :
    s.SlotsKept (t.set f v i j) := h.wr hf

theorem Chip.SlotsKept.bump (h : s.SlotsKept t) {f : Fld} {n i j : Nat} (hf : f.reg ∉ slotRegs ++ recRegs) :
    s.SlotsKept (t.bump f n i j) := h.set hf

/-- Sending and counting keep the slots. -/
theorem Chip.SentFrom.slotsKept (h : s.SentFrom t) : s.SlotsKept t := by
  have hregs : ∀ n, n ≠ .CNT_OVF → ∀ i j, t.rd n i j = s.rd n i j := fun n hn i j => h.2 n i j hn
  refine ⟨fun n hn => hregs n fun he => absurd (he ▸ hn) (by decide), fun c bit cls hs => hs.kept fun n hn => hregs n fun he =>
    absurd (he ▸ hn) (by decide), (congrArg Chip.slotParts h.1 :), fun hs => h.mail.symm ▸ hs⟩

theorem Chip.SlotsKept.count (h : s.SlotsKept t) {n k : Nat} : s.SlotsKept (t.count n k) := h.trans ((SentFrom.refl t).count n k).slotsKept

theorem Chip.SlotsKept.modPort (h : s.SlotsKept t) {p : Nat} {f : PortX → PortX} : s.SlotsKept (t.modPort p f) := h
theorem Chip.SlotsKept.modVppb (h : s.SlotsKept t) {n v : Nat} {f : Vppb → Vppb} : s.SlotsKept (t.modVppb n v f) := h
theorem Chip.SlotsKept.setVsw (h : s.SlotsKept t) {n : Nat} {x : VcsX} : s.SlotsKept (t.setVsw n x) := h

/-- What holds of every update of a list holds of the list's. -/
theorem Chip.SlotsKept.foldl' {α : Type} {l : List α} {f : α → Chip → Chip} (h : s.SlotsKept t)
    (hf : ∀ a ∈ l, ∀ u, s.SlotsKept u → s.SlotsKept (f a u)) : s.SlotsKept (Machine.foldl' l f t) := by
  induction l generalizing t with
  | nil => exact h
  | cons a l ih => exact ih (hf a List.mem_cons_self t h) fun b hb => hf b (List.mem_cons_of_mem _ hb)

theorem Chip.SlotsKept.ite {p : Prop} [Decidable p] (ht : s.SlotsKept t) (hu : s.SlotsKept u) : s.SlotsKept (if p then t else u) := by
  split
  · exact ht
  · exact hu

/-! ## What is sent and posted -/

theorem Chip.SlotsKept.out (h : s.SlotsKept t) {o : Output} : s.SlotsKept (t.out o) := h

theorem Chip.SlotsKept.post (h : s.SlotsKept t) {m : Mail} (hm : m.plain = true) : s.SlotsKept (t.post m) := by
  obtain ⟨hr, hf, hp, hmail⟩ := h
  refine ⟨hr, hf, hp, fun hs m' hm' => ?_⟩
  rcases List.mem_append.mp hm' with hm' | hm'
  · exact hmail hs m' hm'
  · exact List.mem_singleton.mp hm' ▸ hm

theorem Chip.SlotsKept.event (h : s.SlotsKept t) {code : Nat} {ws : List Nat} : s.SlotsKept (t.event code ws) := h.post rfl
theorem Chip.SlotsKept.reply (h : s.SlotsKept t) {q : ReqId} {status : Nat} {ws : List Nat} : s.SlotsKept (t.reply q status ws) := h.post rfl

theorem Chip.SlotsKept.replyTo (h : s.SlotsKept t) {q : Option ReqId} {status : Nat} {ws : List Nat} : s.SlotsKept (t.replyTo q status ws) := by
  cases q with
  | none => exact h
  | some q => exact h.reply

theorem Chip.SlotsKept.result (h : s.SlotsKept t) {q : Option ReqId} {code chan : Nat} {epoch : Option Nat} :
    s.SlotsKept (t.result q code epoch chan) := by
  cases epoch with
  | none => exact h.replyTo
  | some e => exact h.replyTo

theorem Chip.SlotsKept.fresh (h : s.SlotsKept t) : s.SlotsKept t.fresh := h
theorem Chip.SlotsKept.useFree (h : s.SlotsKept t) : s.SlotsKept t.useFree := h

/-! ## Errors -/

theorem Chip.SlotsKept.faultEvent (h : s.SlotsKept t) {c : Nat} : s.SlotsKept (t.faultEvent c) := by
  unfold Chip.faultEvent
  exact h.ite h.event

theorem Chip.SlotsKept.unpass (h : s.SlotsKept t) {c : Nat} : s.SlotsKept (t.unpass c) := by
  unfold Chip.unpass
  exact h.ite h

theorem Chip.SlotsKept.mergeRecord (h : s.SlotsKept t) {c srcs cls errs : Nat} (hc : cls < 4) :
    s.SlotsKept (t.mergeRecord c srcs cls errs) :=
  h.trans ⟨(RegsKept.refl _ _).mergeRecord (by decide), fun _ _ _ hs => hs.mergeRecord hc, t.slotParts_mergeRecord .., fun hs =>
    (t.mail_mergeRecord c srcs cls errs).symm ▸ hs⟩

theorem Chip.SlotsKept.openRecord (h : s.SlotsKept t) {c srcs cls errs : Nat} (ho : ¬ t.is F.FLT_REC_STS.OPEN c = true) :
    s.SlotsKept (t.openRecord c srcs cls errs) :=
  h.trans ⟨(RegsKept.refl _ _).openRecord (by decide), fun _ _ _ hs => hs.openRecord ho, t.slotParts_openRecord .., fun hs =>
    (t.mail_openRecord c srcs cls errs).symm ▸ hs⟩

/-- An error that is not of class F keeps the slots. -/
theorem Chip.SlotsKept.raise (h : s.SlotsKept t) {c bit cls : Nat} (hc : cls < 3) : s.SlotsKept (t.raise c bit cls) := by
  unfold Chip.raise
  rw [Chip.raiseBits_eq t (show cls ≠ 3 by omega)]
  split
  · have hm : s.SlotsKept (t.mergeRecord c (2 ^ bit) cls 1) := h.mergeRecord (by omega)
    exact hm.unpass.faultEvent.ite hm
  · rename_i ho
    exact (h.openRecord ho).count.unpass.faultEvent

theorem Chip.SlotsKept.regionFault (h : s.SlotsKept t) {r bit cls : Nat} (hc : cls < 3) :
    s.SlotsKept (t.regionFault r bit cls) := h.raise hc

theorem Chip.SlotsKept.chipFault (h : s.SlotsKept t) {bit cls : Nat} (hc : cls < 3) : s.SlotsKept (t.chipFault bit cls) :=
  h.raise hc

end

end Sys2Proof.Machine
end

section
/-! SUPPORT. Messages, completions, windows under a graft and the aborts of grafts keep the slots. -/

namespace Sys2Proof.Machine

section
variable {s t : Chip}

/-! ## Epochs, pools and messages -/

theorem Chip.SlotsKept.newEpoch (h : s.SlotsKept t) : s.SlotsKept t.newEpoch := by
  have hwr : s.SlotsKept (t.wr .ACC_EPOCH_CUR 0 0 (w32 ((t.epCur + 1) % 2 ^ 32))) := h.wr (by decide)
  unfold Chip.newEpoch
  exact .foldl' hwr fun _ _ _ hu => hu.count

theorem Chip.SlotsKept.notePool (h : s.SlotsKept t) {r : Nat} : s.SlotsKept (t.notePool r) := (h.set (by decide)).ite h

theorem Chip.SlotsKept.notePeak (h : s.SlotsKept t) {p sc : Nat} : s.SlotsKept (t.notePeak p sc) := (h.notePool.set (by decide)).ite h.notePool

theorem Chip.SlotsKept.delMsg (h : s.SlotsKept t) {id : Nat} : s.SlotsKept (t.delMsg id) := h
theorem Chip.SlotsKept.modMsg (h : s.SlotsKept t) {id : Nat} {f : Msg → Msg} : s.SlotsKept (t.modMsg id f) := h
theorem Chip.SlotsKept.moveMsg (h : s.SlotsKept t) {m : Msg} : s.SlotsKept (t.moveMsg m) := h
theorem Chip.SlotsKept.delOpen (h : s.SlotsKept t) {id : Nat} : s.SlotsKept (t.delOpen id) := h
theorem Chip.SlotsKept.modOpen (h : s.SlotsKept t) {id : Nat} {f : OpenReq → OpenReq} : s.SlotsKept (t.modOpen id f) := h
theorem Chip.SlotsKept.endStat (h : s.SlotsKept t) {id ini start rd wr : Nat} : s.SlotsKept (t.endStat id ini start rd wr) := h

theorem Chip.SlotsKept.handed (h : s.SlotsKept t) {m : Msg} : s.SlotsKept (t.handed m) := by
  unfold Chip.handed
  refine h.ite ?_
  split
  · exact h.endStat
  · split
    · exact h
    · exact h.endStat.ite h

theorem Chip.SlotsKept.toEgress (h : s.SlotsKept t) {m : Msg} {p sc : Nat} : s.SlotsKept (t.toEgress m p sc) :=
  h.delMsg.moveMsg.handed.notePeak

theorem Chip.SlotsKept.send (h : s.SlotsKept t) {r : Nat} {m : Msg} : s.SlotsKept (t.send r m) := h.fresh.toEgress.ite h.fresh.moveMsg

theorem Chip.SlotsKept.sendHome (h : s.SlotsKept t) {r n : Nat} {m : Msg} : s.SlotsKept (t.sendHome r n m) :=
  h.fresh.moveMsg.ite h.fresh.moveMsg

theorem Chip.SlotsKept.returnCredit (h : s.SlotsKept t) {m : Msg} : s.SlotsKept (t.returnCredit m) := by
  unfold Chip.returnCredit
  split
  · exact h.out
  · exact h

theorem Chip.SlotsKept.freeIngress (h : s.SlotsKept t) {m : Msg} : s.SlotsKept (t.freeIngress m) := by
  unfold Chip.freeIngress
  refine .delMsg ?_
  split
  · exact h.returnCredit.ite h
  · exact h

theorem Chip.SlotsKept.storeCopy (h : s.SlotsKept t) {d : Nat} {m : Msg} : s.SlotsKept (t.storeCopy d m) := by
  unfold Chip.storeCopy
  split
  · exact h.moveMsg
  · exact h.delMsg.count.count.ite h.delMsg.count.count.moveMsg.notePool

/-! ## Completions (Table 4.6) -/

theorem Chip.SlotsKept.aerLog (h : s.SlotsKept t) {n v : Nat} {e : AerErr} : s.SlotsKept (t.aerLog n v e) := h.ite h.modVppb.out

theorem Chip.SlotsKept.surpriseDown (h : s.SlotsKept t) {n v : Nat} : s.SlotsKept (t.surpriseDown n v) := h.aerLog

theorem Chip.SlotsKept.respond (h : s.SlotsKept t) {r : Nat} {o : OpenReq} {k : MsgKind} {data : List Byte} {poison : Bool} {status : Nat}
    {killed : Bool} : s.SlotsKept (t.respond r o k data poison status killed) := by
  have hopen : s.SlotsKept (if killed then t.delOpen o.id else t) := h.delOpen.ite h
  exact (hopen.ite hopen.delOpen).ite hopen.send

theorem Chip.SlotsKept.discard (h : s.SlotsKept t) {o : OpenReq} : s.SlotsKept (t.discard o) := h

theorem Chip.SlotsKept.complete46 (h : s.SlotsKept t) {r : Nat} {o : OpenReq} : s.SlotsKept (t.complete46 r o) := by
  unfold Chip.complete46
  generalize o.kind = kind
  cases kind <;>
    simp only [h.surpriseDown.discard, h.respond, h.surpriseDown.respond, h.respond.respond.ite h.respond, h.aerLog.respond, h.discard]

/-! ## The chip's own requests -/

theorem Chip.SlotsKept.setErt (h : s.SlotsKept t) {e : Ert} : s.SlotsKept (t.setErt e) := h
theorem Chip.SlotsKept.graftEvent (h : s.SlotsKept t) {k : Ext} {st cause chan epoch : Nat} :
    s.SlotsKept (t.graftEvent k st cause chan epoch) := h.event
theorem Chip.SlotsKept.delInner (h : s.SlotsKept t) {id : Nat} : s.SlotsKept (t.delInner id) := h
theorem Chip.SlotsKept.modInner (h : s.SlotsKept t) {id : Nat} {f : Inner → Inner} : s.SlotsKept (t.modInner id f) := h
theorem Chip.SlotsKept.modMirror (h : s.SlotsKept t) {id : Nat} {f : Mirror → Mirror} : s.SlotsKept (t.modMirror id f) := h

theorem Chip.SlotsKept.innerAnswer (h : s.SlotsKept t) {r : Nat} {i : Inner} {k : MsgKind} {data : List Byte} {poison : Bool}
    {status : Nat} : s.SlotsKept (t.innerAnswer r i k data poison status) := by
  unfold Chip.innerAnswer
  dsimp only
  split
  · exact h.sendHome
  · exact h.sendHome
  · exact h.sendHome
  · exact h.delInner
  · exact h.delInner.modMirror

theorem Chip.SlotsKept.innerDown (h : s.SlotsKept t) {r : Nat} {i : Inner} : s.SlotsKept (t.innerDown r i) := by
  unfold Chip.innerDown
  generalize i.kind = kind
  cases kind <;> exact h.innerAnswer

theorem Chip.SlotsKept.meetsDown (h : s.SlotsKept t) {r : Nat} {m : Msg} : s.SlotsKept (t.meetsDown r m) := by
  have hdel := h.delMsg (id := m.id)
  unfold Chip.meetsDown
  refine .ite ?_ ?_
  · split
    · exact hdel.innerDown
    · exact hdel
  · split
    · exact hdel
    · exact hdel.complete46.ite (hdel.ite hdel.delOpen)

theorem Chip.SlotsKept.enter (h : s.SlotsKept t) {r : Nat} {m : Msg} : s.SlotsKept (t.enter r m) := h.meetsDown.ite h.toEgress

/-- The chip's own request that a reference carries is answered. -/
theorem Chip.SlotsKept.refsDown (h : s.SlotsKept t) {l : List McRef} {r : Nat} :
    s.SlotsKept (Machine.foldl' l (fun x s => match s.inner? x.inn with
      | some i => s.innerDown r i
      | none => s) t) := by
  refine h.foldl' fun x _ u hu => ?_
  split
  · exact hu.innerDown
  · exact hu

theorem Chip.SlotsKept.liveRefs (h : s.SlotsKept t) {r : Nat} {m : Msg} : s.SlotsKept (t.liveRefs r m).1 := h.refsDown

theorem Chip.SlotsKept.landCopy (h : s.SlotsKept t) {d : Nat} {m : Msg} : s.SlotsKept (t.landCopy d m) := by
  have hlive := h.liveRefs (r := d) (m := m)
  exact hlive.delMsg.ite hlive.storeCopy

theorem Chip.SlotsKept.place (h : s.SlotsKept t) {r : Nat} {m : Msg} : s.SlotsKept (t.place r m) := h.enter.ite h.delMsg.moveMsg

theorem Chip.SlotsKept.newInner (h : s.SlotsKept t) {i : Inner} : s.SlotsKept (t.newInner i) := h

theorem Chip.SlotsKept.copyInner (h : s.SlotsKept t) {r : Nat} {m : Msg} {who : Who} {x : Ext} : s.SlotsKept (t.copyInner r m who x) :=
  h.newInner

theorem Chip.SlotsKept.sendCopy (h : s.SlotsKept t) {r : Nat} {m : Msg} {who : Who} {x : Ext} {sc : Nat} :
    s.SlotsKept (t.sendCopy r m who x sc) := h.copyInner.place

theorem Chip.SlotsKept.spread (h : s.SlotsKept t) {r d : Nat} {m : Msg} : s.SlotsKept (t.spread r d m) :=
  h.landCopy.ite h.delMsg.moveMsg

/-! ## Accesses to an extent under a graft -/

theorem Chip.SlotsKept.withMirrors (h : s.SlotsKept t) (l : List Mirror) : s.SlotsKept { t with mirrors := l } := h

theorem Chip.SlotsKept.mirrorWrite (h : s.SlotsKept t) {r : Nat} {e : Ert} {m : Msg} : s.SlotsKept (t.mirrorWrite r e m) := by
  have hopen := fun l => (h.fresh.withMirrors l).count (n := cntRegion r 22) (k := 1)
  exact (hopen _).copyInner.copyInner.spread.ite (hopen _).copyInner.copyInner.spread.fresh.spread

theorem Chip.SlotsKept.atomAtSource (h : s.SlotsKept t) {r : Nat} {e : Ert} {m : Msg} {op : AtomOp} {size : Nat} :
    s.SlotsKept (t.atomAtSource r e m op size) := (h.fresh.withMirrors _).sendCopy

theorem Chip.SlotsKept.hold (h : s.SlotsKept t) {r : Nat} {m : Msg} {e : Ert} {lock : Bool} : s.SlotsKept (t.hold r m e lock) :=
  h.ite ((h.moveMsg.count.bump (by decide)).ite h.moveMsg)

theorem Chip.SlotsKept.redirect (h : s.SlotsKept t) {m : Msg} {x : Ext} : s.SlotsKept (t.redirect m x) := h.modOpen.modInner

theorem Chip.SlotsKept.deliverAccess (h : s.SlotsKept t) {r : Nat} {m : Msg} {e : Ert} : s.SlotsKept (t.deliverAccess r m e) := by
  unfold Chip.deliverAccess
  split
  · exact h.hold
  · exact (h.count.ite h).redirect.place
  · exact h.mirrorWrite
  · exact h.atomAtSource

theorem Chip.SlotsKept.releaseOne (h : s.SlotsKept t) {r : Nat} {m : Msg} : s.SlotsKept (t.releaseOne r m) := by
  unfold Chip.releaseOne
  split
  · exact h.place.ite h
  · exact h.deliverAccess.ite h

theorem Chip.SlotsKept.releaseHeld (h : s.SlotsKept t) {k : Ext} : s.SlotsKept (t.releaseHeld k) :=
  h.foldl' fun _ _ _ hu => hu.releaseOne

theorem Chip.SlotsKept.channelPass (h : s.SlotsKept t) {r : Nat} {m : Msg} : s.SlotsKept (t.channelPass r m) := by
  have hplace := h.place (r := r) (m := m)
  unfold Chip.channelPass
  dsimp only
  split
  · split
    · refine .ite ?_ hplace
      split
      · exact hplace
      · exact hplace.setErt.releaseHeld
    · exact hplace
  · exact hplace

theorem Chip.SlotsKept.deliver (h : s.SlotsKept t) {r : Nat} {m : Msg} : s.SlotsKept (t.deliver r m) := by
  unfold Chip.deliver
  refine h.channelPass.ite ?_
  split
  · exact h.enter
  · exact h.deliverAccess

theorem Chip.SlotsKept.sendInner (h : s.SlotsKept t) {r via : Nat} {i : Inner} {m : Msg} : s.SlotsKept (t.sendInner r via i m) :=
  h.newInner.fresh.deliver.ite h.newInner.fresh.moveMsg

/-! ## The abort of a graft (Table 10.4) -/

theorem Chip.SlotsKept.graftAbort (h : s.SlotsKept t) {e : Ert} {cause : Nat} : s.SlotsKept (t.graftAbort e cause) := by
  have htold : ∀ {u : Chip}, s.SlotsKept u → s.SlotsKept ((((if cause = 4 then
      (u.set F.MOV_CH_STS.HALTED 1 e.chan).chipFault 8 clsC else u).set F.MOV_CH_STS.CAUSE cause e.chan).chipFault 9 clsC).count
        (cntChan e.chan 3)) := fun hu =>
    ((((hu.set (by decide)).chipFault (by decide)).ite hu).set (by decide) |>.chipFault (by decide)).count
  unfold Chip.graftAbort
  refine h.ite ?_
  dsimp only
  split
  · refine .graftEvent (htold (.set (.releaseHeld ?_) (by decide)))
    exact h
  · refine .graftEvent (htold (.set (.releaseHeld ?_) (by decide)))
    exact h

theorem Chip.SlotsKept.abortWhere (h : s.SlotsKept t) {p : Ert → Bool} {cause : Ert → Nat} : s.SlotsKept (t.abortWhere p cause) :=
  h.foldl' fun _ _ _ hu => hu.graftAbort

theorem Chip.SlotsKept.abortPort (h : s.SlotsKept t) {p : Nat} {removal : Bool} : s.SlotsKept (t.abortPort p removal) := h.abortWhere

end

end Sys2Proof.Machine
end

section
/-! SUPPORT. The transactions of a home slice and the fell of a grove keep the slots (R159, R182). -/

namespace Sys2Proof.Machine

section
variable {s t u : Chip}

/-! ## The home slice -/

theorem Chip.SlotsKept.setMembers (h : s.SlotsKept t) {g v : Nat} : s.SlotsKept (t.setMembers g v) :=
  (h.wr (n := .GRV_MEMBER_LO) (by decide)).wr (by decide)
theorem Chip.SlotsKept.setJoined (h : s.SlotsKept t) {g v : Nat} : s.SlotsKept (t.setJoined g v) :=
  (h.wr (n := .GRV_JOINED_LO) (by decide)).wr (by decide)
theorem Chip.SlotsKept.groveEvent (h : s.SlotsKept t) {g cause : Nat} : s.SlotsKept (t.groveEvent g cause) := h.event
theorem Chip.SlotsKept.setSnf (h : s.SlotsKept t) {n set way : Nat} {e : Snf} : s.SlotsKept (t.setSnf n set way e) := h
theorem Chip.SlotsKept.touchWay (h : s.SlotsKept t) {n set way : Nat} : s.SlotsKept (t.touchWay n set way) := h

theorem Chip.SlotsKept.setHome (h : s.SlotsKept t) {n ga st pv : Nat} : s.SlotsKept (t.setHome n ga st pv) := by
  unfold Chip.setHome
  split
  · exact h.setSnf
  · exact h

theorem Chip.SlotsKept.modTxn (h : s.SlotsKept t) {id : Nat} {f : Txn → Txn} : s.SlotsKept (t.modTxn id f) := h
theorem Chip.SlotsKept.delTxn (h : s.SlotsKept t) {id : Nat} : s.SlotsKept (t.delTxn id) := h
theorem Chip.SlotsKept.withTxns (h : s.SlotsKept t) (l : List Txn) : s.SlotsKept { t with txns := l } := h

theorem Chip.SlotsKept.newTxn (h : s.SlotsKept t) {x : Txn} : s.SlotsKept (t.newTxn x) :=
  ((h.withTxns _).fresh.set (by decide)).ite (h.withTxns _).fresh

theorem Chip.SlotsKept.homeMem (h : s.SlotsKept t) {x : Txn} {k : MsgKind} {data : List Byte} {poison : Bool} :
    s.SlotsKept (t.homeMem x k data poison) := h.sendInner

theorem Chip.SlotsKept.toMember (h : s.SlotsKept t) {n p : Nat} {k : MsgKind} {tag addr : Nat} {data : List Byte} {poison : Bool}
    {status : Nat} {killed : Bool} {stat : Option (Nat × Nat × Nat × Nat × Nat)} :
    s.SlotsKept (t.toMember n p k tag addr data poison status killed stat) := h.ite h.send

theorem Chip.SlotsKept.sendSnoops (h : s.SlotsKept t) {x : Txn} {k : MsgKind} {mask : Nat} : s.SlotsKept (t.sendSnoops x k mask) := by
  refine h.modTxn.count.foldl' fun r _ u hu => ?_
  dsimp only
  split
  · exact hu
  · exact hu

theorem Chip.SlotsKept.dropCopy (h : s.SlotsKept t) {n ga : Nat} : s.SlotsKept (t.dropCopy n ga) := h

theorem Chip.SlotsKept.keepCopy (h : s.SlotsKept t) {n ga : Nat} {data : List Byte} : s.SlotsKept (t.keepCopy n ga data) := by
  unfold Chip.keepCopy
  dsimp only
  split
  · exact h
  · split
    · exact h
    · exact h

theorem Chip.SlotsKept.touchCopy (h : s.SlotsKept t) {n ga : Nat} : s.SlotsKept (t.touchCopy n ga) := by
  unfold Chip.touchCopy
  split
  · exact h.keepCopy
  · exact h

theorem Chip.SlotsKept.sendData (h : s.SlotsKept t) {x : Txn} {data : List Byte} {poison : Bool} : s.SlotsKept (t.sendData x data poison) :=
  h.toMember.modTxn

theorem Chip.SlotsKept.performAtomic (h : s.SlotsKept t) {x : Txn} {op : AtomOp} {size off : Nat} {args : List Byte} {q : Option ReqId}
    {line : List Byte} {poison : Bool} : s.SlotsKept (t.performAtomic x op size off args q line poison) := by
  unfold Chip.performAtomic
  refine .homeMem (.modTxn ?_)
  cases q with
  | none => exact h.toMember.count.setHome.dropCopy.ite h.toMember.count.setHome.keepCopy
  | some q => exact h.reply.count.setHome.dropCopy.ite h.reply.count.setHome.keepCopy

theorem Chip.SlotsKept.useData (h : s.SlotsKept t) {x : Txn} {data : List Byte} {poison : Bool} : s.SlotsKept (t.useData x data poison) := by
  unfold Chip.useData
  split
  · exact h.performAtomic
  · exact h.sendData

theorem Chip.SlotsKept.readLine (h : s.SlotsKept t) {x : Txn} : s.SlotsKept (t.readLine x) := h.modTxn.homeMem

theorem Chip.SlotsKept.dataStep (h : s.SlotsKept t) {id : Nat} : s.SlotsKept (Machine.dataStep id t) := by
  unfold Machine.dataStep
  split
  · exact h
  · refine h.ite ?_
    dsimp only
    split
    · exact (h.ite h.useData).ite h.readLine
    · exact h.useData.ite h
    · exact (h.readLine.ite h).ite h.readLine

theorem Chip.SlotsKept.finishStep (h : s.SlotsKept t) {id : Nat} : s.SlotsKept (Machine.finishStep id t) := by
  unfold Machine.finishStep
  split
  · exact h
  · refine h.ite ?_
    split
    · exact ((h.toMember.ite h.toMember.setHome).ite (h.toMember.ite h.toMember.setHome).dropCopy).modTxn
    · exact h
    · exact h.modTxn
    · exact h.setHome.modTxn

/-- Snoops go out where a request needs them. -/
theorem Chip.SlotsKept.snoopsSent (h : s.SlotsKept t) {x : Txn} {o : Option (MsgKind × Nat)} :
    s.SlotsKept (match o with
      | some (k, mask) => t.sendSnoops x k mask
      | none => t) := by
  split
  · exact h.sendSnoops
  · exact h

theorem Chip.SlotsKept.startTxn (h : s.SlotsKept t) {id : Nat} {data : List Byte} {poison : Bool} :
    s.SlotsKept (t.startTxn id data poison) := by
  have hmod : ∀ f, s.SlotsKept (t.modTxn id f) := fun _ => h.modTxn
  unfold Chip.startTxn
  split
  · exact h
  · dsimp only
    split
    · refine .ite ?_ ?_
      · exact .finishStep (.homeMem (.ite (.modTxn (.dropCopy (hmod _).snoopsSent)) (.dropCopy (hmod _).snoopsSent)))
      · refine .finishStep (.dataStep (.ite (.modTxn ?_) (hmod _).snoopsSent))
        split
        · exact .ite (.modTxn (.touchCopy (hmod _).snoopsSent)) (hmod _).snoopsSent
        · exact (hmod _).snoopsSent
    · refine .dataStep (.modTxn ?_)
      split
      · exact .ite (.modTxn ((hmod _).ite (hmod _).sendSnoops)) ((hmod _).ite (hmod _).sendSnoops)
      · exact (hmod _).ite (hmod _).sendSnoops
    · exact (hmod _).finishStep
    · exact (hmod _).finishStep

theorem Chip.SlotsKept.startEvict (h : s.SlotsKept t) {n set way : Nat} {x : Txn} : s.SlotsKept (t.startEvict n set way x) := by
  unfold Chip.startEvict
  dsimp only
  split
  · exact .sendSnoops (.modTxn (.count (.bump (.newTxn h) (by decide))))
  · exact .modTxn (.count (.bump (.newTxn h) (by decide)))

theorem Chip.SlotsKept.iteFst {α : Type} {p : Prop} [Decidable p] {x y : Chip × α} (hx : s.SlotsKept x.1) (hy : s.SlotsKept y.1) :
    s.SlotsKept (if p then x else y).1 := by
  split
  · exact hx
  · exact hy

theorem Chip.SlotsKept.allocate (h : s.SlotsKept t) {id : Nat} : s.SlotsKept (t.allocate id).1 := by
  unfold Chip.allocate
  split
  · exact h
  · dsimp only
    refine .iteFst (.iteFst h h.modTxn) ?_
    split
    · exact h.setSnf.touchWay
    · refine .iteFst h ?_
      split
      · exact .iteFst (h.ite (h.bump (by decide)).count) (h.ite (h.bump (by decide)).count).modTxn
      · exact .iteFst h.setSnf.touchWay (.iteFst (.iteFst h h.modTxn) (.iteFst h.startEvict h.startEvict.modTxn))

theorem Chip.SlotsKept.accept (h : s.SlotsKept t) {n : Nat} {m : Msg} : s.SlotsKept (t.accept n m) := by
  unfold Chip.accept
  dsimp only
  refine .ite ?_ ?_
  · refine .ite (.startTxn (.allocate ?_)) (.allocate ?_)
    · exact .ite h.delMsg.newTxn h.delMsg.newTxn.count.touchWay
    · exact .ite h.delMsg.newTxn h.delMsg.newTxn.count.touchWay
  · exact .startTxn (.ite h.delMsg.newTxn h.delMsg.newTxn.count.touchWay)

/-- A transaction ends, with its open requests. -/
theorem Chip.SlotsKept.endTxn (h : s.SlotsKept t) {x : Txn} :
    s.SlotsKept (Machine.foldl' x.opens (fun o s => s.delOpen o) (t.delTxn x.id)) := h.delTxn.foldl' fun _ _ _ hu => hu.delOpen

/-- The snoop filter of a transaction that ends. -/
theorem Chip.SlotsKept.freeHome (h : s.SlotsKept t) {x : Txn} :
    s.SlotsKept (match x.op with
      | .evict => t.setHome x.home x.ga 0 0
      | .req k mv =>
        if isWriteKind k then if (nextHome k mv x.st x.pv x.inst x.rsp).1 = 0 then t.setHome x.home x.ga 0 0 else t else t
      | _ => t) := by
  split
  · exact h.setHome
  · exact (h.setHome.ite h).ite h
  · exact h

theorem Chip.SlotsKept.unblock (h : s.SlotsKept t) {x : Txn} : s.SlotsKept (t.unblock x) := by
  have hend := (h.freeHome (x := x)).endTxn (x := x)
  unfold Chip.unblock
  dsimp only
  split
  · exact hend
  · exact hend.modMsg.ite hend

theorem Chip.SlotsKept.homeMove (h : s.SlotsKept t) {n : Nat} (hu : t.homeMove n = some u) : s.SlotsKept u := by
  unfold Chip.homeMove at hu
  split at hu
  · cases hu
    exact h.unblock
  · dsimp only at hu
    split at hu
    · rename_i v hv
      cases hu
      obtain ⟨x, -, hx⟩ := List.exists_of_findSome?_eq_some hv
      have halloc := h.allocate (id := x.id)
      split at hx
      · cases hx
        exact halloc.startTxn
      · split at hx
        · cases hx
          exact halloc
        · cases hx
    · split at hu
      · cases hu
      · obtain ⟨m, -, rfl⟩ := Option.map_eq_some_iff.mp hu
        exact h.accept

theorem Chip.SlotsKept.homeSettle {n : Nat} (k : Nat) (h : s.SlotsKept t) : s.SlotsKept (Machine.homeSettle n k t) := by
  induction k generalizing t with
  | zero => exact h
  | succ k ih =>
    unfold Machine.homeSettle
    split
    · rename_i u hu
      exact ih (h.homeMove hu)
    · exact h

theorem Chip.SlotsKept.settle (h : s.SlotsKept t) {n : Nat} : s.SlotsKept (t.settle n) := h.homeSettle _

/-! ## The fell of a grove (R182) -/

theorem Chip.SlotsKept.complete97 (h : s.SlotsKept t) {n : Nat} {m : Msg} : s.SlotsKept (t.complete97 n m) := by
  unfold Chip.complete97
  have hleft := h.delMsg (id := m.id)
  refine .delOpen ?_
  generalize m.kind = kind
  cases kind with
  | memRd | memRdData => exact hleft.toMember.toMember
  | memInv | memWr | memWrPtl | biConflict => exact hleft.toMember
  | ioAtomic _ _ =>
    dsimp only
    split
    · exact hleft.reply
    · exact hleft.toMember
  | _ => exact hleft

theorem Chip.SlotsKept.withInners (h : s.SlotsKept t) (l : List Inner) : s.SlotsKept { t with inners := l } := h

theorem Chip.SlotsKept.fellTxn (h : s.SlotsKept t) {x : Txn} : s.SlotsKept (Chip.fellTxn x t) := by
  unfold Chip.fellTxn
  dsimp only
  refine .withInners (.endTxn (.ite h ?_)) _
  split
  · exact .toMember (.ite h.toMember h)
  · split
    · exact h.reply
    · exact h.toMember
  · exact h

theorem Chip.SlotsKept.dropCopies (h : s.SlotsKept t) {g : Nat} : s.SlotsKept (t.dropCopies g) := h

theorem Chip.SlotsKept.memberAer (h : s.SlotsKept t) {n : Nat} : s.SlotsKept (t.memberAer n) := h.setVsw.out.ite h.setVsw

/-- The jobs of a grove that falls, and the changes that wait for the engine, end. -/
theorem Chip.SlotsKept.withJobs (h : s.SlotsKept t) (l : List GroveJob) (l' : List GroveHold) (l'' : List EngOp) :
    s.SlotsKept { t with gjobs := l, gholds := l', engOwn := l'' } := h

theorem Chip.SlotsKept.fell (h : s.SlotsKept t) {g cause r inst port : Nat} : s.SlotsKept (t.fell g cause r inst port) := by
  have hfault : s.SlotsKept (if cause ≤ 5 then t.regionFault r 7 clsG else t) := (h.regionFault (by decide)).ite h
  unfold Chip.fell
  refine .ite (hfault.bump (by decide)) (.ite h ?_)
  refine .foldl' (.groveEvent (.foldl' (.dropCopies (.foldl' (.foldl' (.withJobs ?_ _ _ _) ?_) ?_)) ?_)) ?_
  · exact hfault.set (by decide) |>.wr (by decide) |>.wr (by decide) |>.wr (by decide) |>.set (by decide) |>.set (by decide)
  · exact fun _ _ _ hu => hu.fellTxn
  · exact fun _ _ _ hu => hu.complete97
  · exact fun _ _ _ hu => hu.memberAer
  · exact fun _ _ _ hu => hu.settle

theorem Chip.SlotsKept.deadMember (h : s.SlotsKept t) {n cause : Nat} : s.SlotsKept (t.deadMember n cause) :=
  h.foldl' fun _ _ _ hu => hu.fell

theorem Chip.SlotsKept.deadTarget (h : s.SlotsKept t) {p cause : Nat} : s.SlotsKept (t.deadTarget p cause) :=
  h.foldl' fun _ _ _ hu => hu.fell

/-! ## Changes of groves and grafts at the engine -/

theorem Chip.SlotsKept.withOwn (h : s.SlotsKept t) (l : List EngOp) : s.SlotsKept { t with engOwn := l } := h

theorem Chip.SlotsKept.groveJoin (h : s.SlotsKept t) {g : Nat} : s.SlotsKept (t.groveJoin g) :=
  h.ite ((h.ite (h.withOwn _)).ite h.newEpoch.setJoined)

theorem Chip.SlotsKept.groveUnmap (h : s.SlotsKept t) {g : Nat} {inst : Option Nat} : s.SlotsKept (t.groveUnmap g inst) := h

theorem Chip.SlotsKept.withSnf (h : s.SlotsKept t) (l : Tab Snf) : s.SlotsKept { t with snf := l } := h

theorem Chip.SlotsKept.groveFree (h : s.SlotsKept t) {g : Nat} : s.SlotsKept (t.groveFree g) := by
  unfold Chip.groveFree
  refine .groveEvent (.setJoined (.setMembers (.wr (.foldl' (.withSnf h.dropCopies _) fun w _ u hu => ?_) (by decide))))
  exact .foldl' (hu.wr (n := .GRV_WIN_CFG) (by decide) |>.wr (n := .GRV_WIN_GA) (by decide) |>.wr (n := .GRV_WIN_SIZE) (by decide))
    fun _ _ _ hv => (hv.wr (n := .GRV_WIN_TGT_A) (by decide)).wr (n := .GRV_WIN_TGT_B) (by decide)

theorem Chip.SlotsKept.withGjobs (h : s.SlotsKept t) (l : List GroveJob) : s.SlotsKept { t with gjobs := l } := h

theorem Chip.SlotsKept.groveUnmapNow (h : s.SlotsKept t) {g : Nat} {inst : Option Nat} : s.SlotsKept (t.groveUnmapNow g inst) := by
  unfold Chip.groveUnmapNow
  refine .foldl' ?_ fun _ _ _ hu => hu.result
  dsimp only
  split
  · exact .set (.setMembers (.groveUnmap (.newEpoch (.withGjobs h _)))) (by decide)
  · exact .groveFree (.groveUnmap (.newEpoch (.withGjobs h _)))

theorem Chip.SlotsKept.withGholds (h : s.SlotsKept t) (l : List GroveHold) : s.SlotsKept { t with gholds := l } := h

theorem Chip.SlotsKept.releaseFelled (h : s.SlotsKept t) {g : Nat} : s.SlotsKept (t.releaseFelled g) := by
  unfold Chip.releaseFelled
  split
  · exact h
  · exact h.ite (.result (.groveFree (.groveUnmap (h.withGholds _))))

theorem Chip.SlotsKept.graftSwitchNow (h : s.SlotsKept t) {e : Ert} : s.SlotsKept (t.graftSwitchNow e) :=
  ((h.newEpoch.setErt.releaseHeld.set (by decide)).set (by decide)).count.graftEvent

end

end Sys2Proof.Machine
end

section
/-! SUPPORT. Ports that go down and out of service, the engine's own changes, and what follows a command by itself keep the slots. -/

namespace Sys2Proof.Machine

section
variable {s t u : Chip}

/-! ## Admission states and bridges -/

theorem Chip.SlotsKept.portEvent (h : s.SlotsKept t) {p : Nat} : s.SlotsKept (t.portEvent p) := h.event

theorem Chip.SlotsKept.setAdm (h : s.SlotsKept t) {p st cause : Nat} : s.SlotsKept (t.setAdm p st cause) :=
  h.ite ((((h.set (by decide)).set (by decide)).set (by decide)).ite ((h.set (by decide)).set (by decide))).portEvent

theorem Chip.SlotsKept.hotPlug (h : s.SlotsKept t) {n v : Nat} : s.SlotsKept (t.hotPlug n v) := h.useFree.send

theorem Chip.SlotsKept.report (h : s.SlotsKept t) {n v : Nat} {present active : Bool} : s.SlotsKept (t.report n v present active) :=
  h.ite (((h.set (by decide)).set (by decide)).modVppb.hotPlug.ite ((h.set (by decide)).set (by decide)).modVppb)

theorem Chip.SlotsKept.refreshBridges (h : s.SlotsKept t) {p : Nat} : s.SlotsKept (t.refreshBridges p) :=
  h.foldl' fun _ _ _ hu => hu.ite hu.report

/-! ## Flush (R80 to R82) -/

theorem Chip.SlotsKept.flushMsg (h : s.SlotsKept t) {p : Nat} {m : Msg} : s.SlotsKept (Machine.flushMsg p m t) := by
  unfold Machine.flushMsg
  dsimp only
  split
  · exact h.meetsDown.modPort.ite h
  · exact (h.delMsg.ite (h.ite h.delMsg.delOpen.modPort)).ite h
  · exact h

theorem Chip.SlotsKept.flushOpen (h : s.SlotsKept t) {p : Nat} {o : OpenReq} : s.SlotsKept (Machine.flushOpen p o t) :=
  h.complete46.modPort.ite h

theorem Chip.SlotsKept.flushInner (h : s.SlotsKept t) {p : Nat} {i : Inner} : s.SlotsKept (Machine.flushInner p i t) :=
  h.innerDown.modPort.ite h

theorem Chip.SlotsKept.withMsgs (h : s.SlotsKept t) (l : List Msg) : s.SlotsKept { t with msgs := l } := h
theorem Chip.SlotsKept.withOpens (h : s.SlotsKept t) (l : List OpenReq) : s.SlotsKept { t with opens := l } := h
theorem Chip.SlotsKept.withCuts (h : s.SlotsKept t) (l : List Cut) : s.SlotsKept { t with cuts := l } := h

theorem Chip.SlotsKept.dropRefs (h : s.SlotsKept t) {p : Nat} : s.SlotsKept (t.dropRefs p) := (h.withMsgs _).refsDown.modPort

theorem Chip.SlotsKept.flush (h : s.SlotsKept t) {p : Nat} : s.SlotsKept (t.flush p) := by
  unfold Chip.flush
  refine .dropRefs (.foldl' (.withCuts (.foldl' (.foldl' (.withMsgs (.foldl' (.withOpens ?_ _) ?_) _) ?_) ?_) _) ?_)
  · exact h.modPort.set (by decide) |>.set (by decide) |>.set (by decide)
  · exact fun _ _ _ hu => hu.flushMsg
  · exact fun _ _ _ hu => hu.flushOpen
  · exact fun _ _ _ hu => hu.flushInner
  · exact fun _ _ _ hu => hu.out

/-! ## Going down and out of service (R79, R118) -/

/-- Fields of registers that tell of no slot are cleared. -/
theorem Chip.SlotsKept.clearFlds (h : s.SlotsKept t) {l : List Fld} {i j : Nat} (hl : ∀ f ∈ l, f.reg ∉ slotRegs ++ recRegs) :
    s.SlotsKept (Machine.foldl' l (fun f s => s.set f 0 i j) t) := h.foldl' fun f hf _ hu => hu.set (hl f hf)

theorem Chip.SlotsKept.clearLink (h : s.SlotsKept t) {p : Nat} {detect : Bool} : s.SlotsKept (t.clearLink p detect) := by
  have hcleared := (h.clearFlds (l := [F.CEL_PORT_STS.NEG_WIDTH, F.CEL_PORT_STS.NEG_RATE, F.CEL_PORT_STS.CXL_ACTIVE,
    F.CEL_PORT_STS.CACHE_ACTIVE, F.CEL_PORT_STS.MEM_BI, F.CEL_PORT_STS.FLIT256, F.CEL_PORT_STS.LOPT, F.CEL_PORT_STS.GROVE_ELIGIBLE])
    (i := p) (j := 0) (by decide)).clearFlds
      (l := [F.CEL_LINK_STS.EQ_PHASE, F.CEL_LINK_STS.REVERSED]) (i := p) (j := 0) (by decide)
  exact .modPort (.foldl' (((hcleared.set (by decide)).set (by decide)).ite hcleared) fun _ _ _ hu => hu.clearFlds (by decide))

theorem Chip.SlotsKept.takeDown (h : s.SlotsKept t) {p l : Nat} : s.SlotsKept (t.takeDown p l) :=
  ((h.set (by decide)).clearLink.ite (h.set (by decide))).ite (h.count.set (by decide)).flush.clearLink.modPort.setAdm.refreshBridges

theorem Chip.SlotsKept.own (h : s.SlotsKept t) {o : EngOp} : s.SlotsKept (t.own o) := h

theorem Chip.SlotsKept.endHotReset (h : s.SlotsKept t) {p : Nat} : s.SlotsKept (t.endHotReset p) :=
  ((h.modPort.set (by decide)).clearLink.ite h.modPort).ite h

theorem Chip.SlotsKept.unbindNow (h : s.SlotsKept t) {n v : Nat} : s.SlotsKept (t.unbindNow n v) :=
  ((h.report.wr (n := .VCS_VPPB_BIND) (by decide)).set (by decide)).modVppb

theorem Chip.SlotsKept.finishBind (h : s.SlotsKept t) {n v : Nat} : s.SlotsKept (t.finishBind n v) := by
  unfold Chip.finishBind
  split
  · exact h
  · have hbound := fun {f g : Vppb → Vppb} {a b : Nat} => (h.modVppb (n := n) (v := v) (f := f))
      |>.set (f := F.VCS_VPPB_STS.STATE) (v := 2) (i := n) (j := v) (by decide)
      |>.modVppb (n := n) (v := v) (f := g)
      |>.set (f := F.VCS_VPPB_STS.PRESENT) (v := a) (i := n) (j := v) (by decide)
      |>.set (f := F.VCS_VPPB_STS.LINK_ACTIVE) (v := b) (i := n) (j := v) (by decide)
    exact (hbound.hotPlug.ite hbound).result.setAdm.ite (hbound.hotPlug.ite hbound).result

theorem Chip.SlotsKept.squashScope (h : s.SlotsKept t) {n v : Nat} : s.SlotsKept (t.squashScope n v) := by
  unfold Chip.squashScope
  refine .foldl' (.foldl' (h.set (by decide)) fun _ _ _ hu => hu.freeIngress) fun _ _ _ hu => ?_
  exact .complete46 (.foldl' hu fun _ _ _ hv => hv.freeIngress)

theorem Chip.SlotsKept.squashAhead (h : s.SlotsKept t) {n v : Nat} : s.SlotsKept (t.squashAhead n v) := by
  unfold Chip.squashAhead
  split
  · exact (h.set (by decide)).squashScope
  · exact (h.set (by decide)).squashScope
  · exact h.squashScope
  · exact h

theorem Chip.SlotsKept.squashBridge (h : s.SlotsKept t) {n v : Nat} {reqs : List ReqId} : s.SlotsKept (t.squashBridge n v reqs) := by
  have hbind := h.finishBind (n := n) (v := v)
  unfold Chip.squashBridge
  dsimp only
  split
  · exact hbind.own
  · split
    · exact (hbind.set (by decide)).modVppb
    · exact hbind
  · exact hbind.modVppb
  · exact hbind.unbindNow.foldl' fun _ _ _ hu => hu.result
  · exact hbind

/-- The groves and grafts of a port that is removed come first (R114). -/
theorem Chip.SlotsKept.removalFells (h : s.SlotsKept t) {role p : Nat} {removed : Bool} :
    s.SlotsKept (match role with
      | 1 => (match t.instOf p with
        | some n => t.deadMember n (if removed then 1 else 2)
        | none => t)
      | 2 =>
        let hit := t.ert.any (fun e => e.active && (decide (e.source.port = p) || decide (e.tgt.port = p)))
        let u := if hit then
            Machine.foldl' (t.bindingsOf p) (fun x (u : Chip) => u.set F.VCS_VPPB_STS.GRAFT_ABORTED 1 x.1 x.2) t
          else t
        (u.abortPort p removed).deadTarget p 4
      | _ => t) := by
  split
  · split
    · exact h.deadMember
    · exact h
  · exact ((h.foldl' fun _ _ _ hu => hu.set (by decide)).ite h).abortPort.deadTarget
  · exact h

/-- Then the link goes down, what its bridges have outstanding being squashed before (R112). -/
theorem Chip.SlotsKept.removalDown (h : s.SlotsKept t) {role p l : Nat} {f : PortX → PortX} :
    s.SlotsKept ((if role = 2 then Machine.foldl' ((t.modPort p f).bindingsOf p) (fun x s => s.squashAhead x.1 x.2) (t.modPort p f)
      else t.modPort p f).takeDown p l) := ((h.modPort.foldl' fun _ _ _ hu => hu.squashAhead).ite h.modPort).takeDown

theorem Chip.SlotsKept.removal (h : s.SlotsKept t) {p l : Nat} {removed : Bool} : s.SlotsKept (t.removal p l removed) := by
  have hdown : ∀ role f, s.SlotsKept _ := fun role f =>
    (h.removalFells (role := role) (p := p) (removed := removed)).removalDown (role := role) (p := p) (l := l) (f := f)
  unfold Chip.removal
  generalize t.role p = role
  dsimp only
  split
  · split
    · exact .set (hdown 1 _) (by decide)
    · exact hdown 1 _
  · exact .foldl' (hdown 2 _) fun _ _ _ hu => hu.squashBridge
  · exact hdown _ _

theorem Chip.SlotsKept.driveCsb (h : s.SlotsKept t) {p : Nat} : s.SlotsKept (t.driveCsb p) := h.modPort.ite h.modPort

/-- A port that goes out of service takes no slot with it. -/
theorem Chip.SlotsKept.outOfService (h : s.SlotsKept t) {p cause : Nat} : s.SlotsKept (t.outOfService p cause) :=
  h.ite (h.ite (h.removal.set (by decide)).modPort.setAdm.refreshBridges.driveCsb)

theorem Chip.SlotsKept.slotOos (h : s.SlotsKept t) {k : Nat} : s.SlotsKept (t.slotOos k) := h.foldl' fun _ _ _ hu => hu.outOfService

theorem Chip.SlotsKept.slotPfd (h : s.SlotsKept t) {k : Nat} : s.SlotsKept (t.slotPfd k) :=
  h.foldl' fun _ _ _ hu => hu.foldl' fun _ _ _ hv => hv.modVppb.hotPlug.ite hv.modVppb

/-! ## The engine's own changes (R106) -/

theorem Chip.SlotsKept.startDrain (h : s.SlotsKept t) {n v next : Nat} {reqs : List ReqId} : s.SlotsKept (t.startDrain n v next reqs) :=
  ((h.endHotReset.ite h).newEpoch.set (by decide)).modVppb

theorem Chip.SlotsKept.startSquash (h : s.SlotsKept t) {n v : Nat} {reqs : List ReqId} : s.SlotsKept (t.startSquash n v reqs) :=
  (h.newEpoch.set (by decide)).modVppb

theorem Chip.SlotsKept.runOwn (h : s.SlotsKept t) {o : EngOp} (hu : t.runOwn o = some u) : s.SlotsKept u := by
  have hfull : ∀ {v}, s.SlotsKept v → (if t.epFull then none else some v) = some u → s.SlotsKept u := fun hv he => by
    split at he
    · cases he
    · exact Option.some.inj he ▸ hv
  have hthis : some t = some u → s.SlotsKept u := fun he => Option.some.inj he ▸ h
  cases o with
  | drain n v next reqs =>
    rw [Chip.runOwn] at hu
    split at hu
    · exact hfull h.startDrain hu
    · exact hthis hu
  | squash n v reqs =>
    rw [Chip.runOwn] at hu
    split at hu
    · exact hfull h.startSquash hu
    · exact Option.some.inj hu ▸ h.foldl' fun _ _ _ hu => hu.result
  | restore n v =>
    rw [Chip.runOwn] at hu
    split at hu
    · exact hfull h.newEpoch.modVppb hu
    · exact hthis hu
  | groveUnmap g inst => exact hfull h.groveUnmapNow hu
  | groveJoin g => exact hfull h.groveJoin hu
  | graftSwitch c =>
    rw [Chip.runOwn] at hu
    split at hu
    · split at hu
      · exact hfull h.graftSwitchNow hu
      · exact hthis hu
    · exact hthis hu
  | _ => exact hthis hu

/-- Of the engine's changes, those of the chip's own leave it with no command to take. -/
theorem Chip.SlotsKept.engCmd (h : s.SlotsKept t) : t.engCmd = s.engCmd := by
  obtain ⟨-, -, hp, -⟩ := h
  exact congrArg (fun x => x.2.2.2.2) hp

theorem Chip.SlotsKept.engineRun (k : Nat) (h : s.SlotsKept t) (hc : s.engCmd = []) : s.SlotsKept (Machine.engineRun k t) := by
  induction k generalizing t with
  | zero => exact h
  | succ k ih =>
    unfold Machine.engineRun
    split
    · split
      · rename_i hu
        exact ih ((h.withOwn _).runOwn hu)
      · exact h
    · rename_i hcmd
      rw [h.engCmd, hc] at hcmd
      cases hcmd
    · exact h

theorem Chip.SlotsKept.engine (h : s.SlotsKept t) (hc : s.engCmd = []) : s.SlotsKept t.engine := h.engineRun _ hc

/-! ## What follows a command by itself -/

/-- Nothing but changes of the engine's own and notices to be sent follows a command on a chip in this state. -/
def Chip.Calm (c : Chip) : Prop :=
  c.fatal = none ∧ c.test = none ∧ c.pw.cmd = none ∧ c.pw.queue = [] ∧ c.engCmd = [] ∧ ∀ m ∈ c.mail, m.plain = true

theorem Chip.AtRest.calm (h : s.AtRest) : s.Calm := by
  obtain ⟨hf, hm, -, hc, ht, hp, hq, -⟩ := h
  exact ⟨hf, ht, hp, hq, hc, hm ▸ fun _ h => absurd h List.not_mem_nil⟩

/-- Calm is what the slots are kept with. -/
theorem Chip.SlotsKept.calm (h : s.SlotsKept t) (hs : s.Calm) : t.Calm := by
  obtain ⟨-, -, hp, hm⟩ := h
  obtain ⟨hf, ht, hpc, hq, hc, hplain⟩ := hs
  simp only [Chip.slotParts, Prod.mk.injEq] at hp
  obtain ⟨-, hf', ht', hpw, hc'⟩ := hp
  exact ⟨hf'.trans hf, ht'.trans ht, hpw ▸ hpc, hpw ▸ hq, hc'.trans hc, hm hplain⟩

theorem Chip.Calm.tidy (h : s.Calm) : s.SlotsKept s.tidy := by
  have hstart : s.enterFatal = s := by
    obtain ⟨hf, -⟩ := h
    rw [Chip.enterFatal, hf]
  obtain ⟨-, -, -, -, hc, -⟩ := id h
  have hfelled := ((SlotsKept.refl s).engine hc).foldl' (l := ((s.engine.gholds.filter (·.writes)).map (·.grove)))
    (f := fun g c => c.releaseFelled g) fun _ _ _ hu => hu.releaseFelled
  obtain ⟨hf, ht, hp, hq, -, -⟩ := hfelled.calm h
  have hend : ∀ c : Chip, c.fatal = none → c.test = none → c.pw.cmd = none → c.pw.queue = [] → c.testSlots.pwrPump.enterFatal = c := by
    intro c hf ht hp hq
    rw [Chip.testSlots, ht, c.pwrPump_rest hp hq, Chip.enterFatal, hf]
  unfold Chip.tidy
  simp only [hstart]
  rw [hend _ hf ht hp hq]
  exact hfelled

/-- The notices are taken to be delivered. -/
theorem Chip.SlotsKept.emptied (h : s.SlotsKept t) : s.SlotsKept { t with mail := [] } := by
  obtain ⟨hr, hf, hp, -⟩ := h
  exact ⟨hr, hf, hp, fun _ _ hm => absurd hm List.not_mem_nil⟩

/-- The delivery of what is only to be sent leaves the queue of commands as it was. -/
theorem State.deliverAll_pending (l : List Mail) : ∀ {x : State}, (∀ m ∈ l, m.plain = true) →
    (foldl' l (fun m s => s.deliver m) x).pending = x.pending := by
  induction l with
  | nil => exact fun _ => rfl
  | cons m l ih =>
    exact fun h => (ih fun m' hm => h m' (List.mem_cons_of_mem _ hm)).trans (State.deliver_pending _ m (h m List.mem_cons_self))

/-- The end of a command keeps the slots of a calm chip. -/
theorem settleN_slotsKept (n : Nat) {x : State} (h : x.chip.Calm) :
    x.chip.SlotsKept (settleN n x).chip ∧ (settleN n x).pending = x.pending := by
  induction n generalizing x with
  | zero => exact ⟨.refl _, rfl⟩
  | succ n ih =>
    have htidy := h.tidy
    obtain ⟨-, -, -, -, -, hplain⟩ := htidy.calm h
    unfold settleN
    dsimp only
    split
    · exact ⟨htidy, rfl⟩
    · have hsent := (State.deliverAll_sent x.chip.tidy.mail (s := x.withChip { x.chip.tidy with mail := [] }) hplain).slotsKept
      have hkept := htidy.emptied.trans hsent
      obtain ⟨hnext, hpending⟩ := ih (hkept.calm h)
      exact ⟨hkept.trans hnext, hpending.trans (State.deliverAll_pending _ hplain)⟩

end

end Sys2Proof.Machine
end

section
/-! SUPPORT. The operations of one slot channel: what each writes of its channel, and that it leaves the other channels and the rest of the
chip as they were (R337, R338, R340, R345). -/

namespace Sys2Proof.Machine

section
variable {s t u : Chip} {k : Nat}

/-! ## What an operation of a slot channel may change -/

/-- Nothing has changed but slot channels, their status registers, counters and what the ports show of power-good. -/
def Chip.SlotStep (s t : Chip) : Prop :=
  { t with regs := s.regs, cnt := s.cnt, badWords := s.badWords, ports := s.ports, slots := s.slots } = s ∧
    ∀ n i j, n ≠ .CNT_OVF → n ≠ .SLT_STS → t.rd n i j = s.rd n i j

/-- Of the slot channels only channel `k` has changed. -/
def Chip.OnSlot (k : Nat) (s t : Chip) : Prop :=
  s.SlotStep t ∧ ∀ i, i ≠ k → t.slot i = s.slot i ∧ ∀ j, t.rd .SLT_STS i j = s.rd .SLT_STS i j

theorem Chip.SlotStep.refl (s : Chip) : s.SlotStep s := ⟨rfl, fun _ _ _ _ _ => rfl⟩

theorem Chip.SlotStep.trans (h : s.SlotStep t) (h' : t.SlotStep u) : s.SlotStep u := by
  obtain ⟨h1, hr⟩ := h
  obtain ⟨h2, hr'⟩ := h'
  refine ⟨?_, fun n i j hn hs => (hr' n i j hn hs).trans (hr n i j hn hs)⟩
  rw [← h2] at h1
  exact h1

theorem Chip.OnSlot.refl (k : Nat) (s : Chip) : Chip.OnSlot k s s := ⟨.refl s, fun _ _ => ⟨rfl, fun _ => rfl⟩⟩

theorem Chip.OnSlot.trans (h : Chip.OnSlot k s t) (h' : Chip.OnSlot k t u) : Chip.OnSlot k s u := by
  obtain ⟨h1, ho⟩ := h
  obtain ⟨h2, ho'⟩ := h'
  exact ⟨h1.trans h2, fun i hi => ⟨(ho' i hi).1.trans (ho i hi).1, fun j => ((ho' i hi).2 j).trans ((ho i hi).2 j)⟩⟩

theorem Chip.OnSlot.set (h : Chip.OnSlot k s t) {f : Fld} {v : Nat} (hf : f.reg = .SLT_STS) : Chip.OnSlot k s (t.set f v k) :=
  have hstep : t.SlotStep (t.set f v k) := ⟨rfl, fun _ i j _ hn => t.rd_wr_name (hf ▸ Ne.symm hn) k 0 i j _⟩
  h.trans ⟨hstep, fun _ hi => ⟨rfl, fun _ => t.rd_wr_inst hi _ _ _ _ _⟩⟩

@[simp] theorem Chip.slot_count (s : Chip) (n m k : Nat) : (s.count n m).slot k = s.slot k := by
  unfold Chip.slot
  rw [s.count_slots n m]

theorem Chip.OnSlot.count (h : Chip.OnSlot k s t) {n m : Nat} : Chip.OnSlot k s (t.count n m) := by
  have hrd := ((SentFrom.refl t).count n m).2
  have honly := congrArg (fun c : Chip => { c with
    regs := t.regs, cnt := t.cnt, badWords := t.badWords, ports := t.ports, slots := t.slots }) (t.count_only n m)
  have hstep : t.SlotStep (t.count n m) := ⟨honly, fun n i j hn _ => hrd n i j hn⟩
  exact h.trans ⟨hstep, fun i _ => ⟨t.slot_count n m i, fun j => hrd _ i j (by decide)⟩⟩

theorem Chip.OnSlot.modSlot (h : Chip.OnSlot k s t) {f : SlotX → SlotX} : Chip.OnSlot k s (t.modSlot k f) :=
  h.trans ⟨⟨rfl, fun _ _ _ _ _ => rfl⟩, fun _ hi => ⟨Tab.get_set_ne _ _ _ (Ne.symm hi), fun _ => rfl⟩⟩

theorem Chip.OnSlot.withPorts (h : Chip.OnSlot k s t) (p : Tab PortX) : Chip.OnSlot k s { t with ports := p } :=
  h.trans ⟨⟨rfl, fun _ _ _ _ _ => rfl⟩, fun _ _ => ⟨rfl, fun _ => rfl⟩⟩

theorem Chip.OnSlot.setSl (h : Chip.OnSlot k s t) {st : Nat} : Chip.OnSlot k s (t.setSl k st) := h.set rfl

theorem Chip.OnSlot.feeds (h : Chip.OnSlot k s t) : Chip.OnSlot k s (t.feeds k) := (h.set rfl).set rfl

theorem Chip.OnSlot.ite (h : Chip.OnSlot k s t) (h' : Chip.OnSlot k s u) {p : Prop} [Decidable p] : Chip.OnSlot k s (if p then t else u) := by
  split
  · exact h
  · exact h'

/-- Registers of the names listed, none of which an operation of a slot channel writes. -/
theorem Chip.SlotStep.regsKept (h : s.SlotStep t) {l : List RName} (hl : RName.CNT_OVF ∉ l ∧ RName.SLT_STS ∉ l) :
    Chip.RegsKept l s t := fun n hn i j => h.2 n i j (fun he => hl.1 (he ▸ hn)) fun he => hl.2 (he ▸ hn)

theorem Chip.SlotStep.atRest (h : s.SlotStep t) (hs : s.AtRest) : t.AtRest := by
  rw [← h.1] at hs
  exact hs

/-- A field of another register reads as before. -/
theorem Chip.SlotStep.fld (h : s.SlotStep t) (f : Fld) (i : Nat) (hf : f.reg ≠ .CNT_OVF ∧ f.reg ≠ .SLT_STS) :
    t.fld f i = s.fld f i := by
  rw [Chip.fld, Chip.fld, h.2 _ _ _ hf.1 hf.2]

theorem Chip.SlotStep.time (h : s.SlotStep t) : t.time = s.time := (congrArg Chip.time h.1 :)
theorem Chip.SlotStep.vinSnsBad (h : s.SlotStep t) : t.vinSnsBad = s.vinSnsBad := (congrArg Chip.vinSnsBad h.1 :)

/-! ## Reading a channel after a write -/

@[simp] theorem Chip.slot_modSlot (s : Chip) (k : Nat) (f : SlotX → SlotX) : (s.modSlot k f).slot k = f (s.slot k) :=
  Tab.get_set_self _ _ _ _
@[simp] theorem Chip.slot_set (s : Chip) (f : Fld) (v i j k : Nat) : (s.set f v i j).slot k = s.slot k := rfl
@[simp] theorem Chip.fld_modSlot (s : Chip) (k : Nat) (f : SlotX → SlotX) (g : Fld) (i j : Nat) :
    (s.modSlot k f).fld g i j = s.fld g i j := rfl

/-- Another field of the same register reads as before. -/
theorem Chip.fld_set_apart (s : Chip) (f g : Fld) (v k : Nat)
    (h : f.reg = g.reg ∧ (g.lo + g.width ≤ f.lo ∨ f.lo + f.width ≤ g.lo) ∧ g.lo + g.width ≤ 32) :
    (s.set f v k).fld g k = s.fld g k := by
  obtain ⟨hreg, hpos, h32⟩ := h
  exact s.fld_set_ne v k 0 hreg hpos h32

/-- A bit that is set to a truth value reads as it. -/
theorem Chip.is_set_b2n (s : Chip) (f : Fld) (b : Bool) (i j : Nat) (hf : f.lo + f.width ≤ 32 ∧ f.width = 1) :
    (s.set f (b2n b) i j).is f i j = b := by
  rw [Chip.is, s.fld_set_self f _ i j hf.1, hf.2]
  cases b <;> rfl

/-! ## Gate off (R340) -/

/-- The pin of a port is all that changes. -/
theorem Chip.driveCsb_ports (s : Chip) (p : Nat) : ∃ q, s.driveCsb p = { s with ports := q } := by
  unfold Chip.driveCsb
  split
  · exact ⟨_, rfl⟩
  · exact ⟨_, rfl⟩

theorem foldl'_ports {α : Type} {f : α → Chip → Chip} (hf : ∀ a c, ∃ q, f a c = { c with ports := q }) (l : List α) (s : Chip) :
    ∃ q, foldl' l f s = { s with ports := q } := by
  induction l generalizing s with
  | nil => exact ⟨s.ports, rfl⟩
  | cons a l ih =>
    obtain ⟨q, hq⟩ := hf a s
    obtain ⟨q', hq'⟩ := ih (f a s)
    exact ⟨q', hq'.trans (by rw [hq])⟩

/-- Power-good dropped: its bit, and the count of it. -/
def Chip.dropPg (s : Chip) (k : Nat) : Chip := if s.is F.SLT_STS.PG k = false then s else (s.set F.SLT_STS.PG 0 k).count (cntSlot k 2)

/-- Beside that only the pins of the block's ports change. -/
theorem Chip.givePg_false (s : Chip) (k : Nat) : ∃ q, s.givePg k false = { s.dropPg k with ports := q } := by
  unfold Chip.givePg Chip.dropPg
  split
  · exact ⟨s.ports, rfl⟩
  · exact foldl'_ports (fun c u => driveCsb_ports (u.modPort c _) c) _ _

theorem Chip.gateOff_onSlot (s : Chip) (k : Nat) : Chip.OnSlot k s (s.gateOff k) := by
  have hpg : Chip.OnSlot k s (s.givePg k false) := by
    obtain ⟨q, hq⟩ := s.givePg_false k
    have hdrop : Chip.OnSlot k s (s.dropPg k) := .ite (.refl k s) (.count (.set (.refl k s) rfl))
    exact hq ▸ hdrop.withPorts q
  exact (hpg.set rfl).modSlot

theorem Chip.fld_givePg_false (s : Chip) (k : Nat) (g : Fld) (i : Nat) : (s.givePg k false).fld g i = (s.dropPg k).fld g i := by
  obtain ⟨q, hq⟩ := s.givePg_false k
  rw [hq]
  rfl

theorem Chip.pg_dropPg (s : Chip) (k : Nat) : (s.dropPg k).fld F.SLT_STS.PG k = 0 := by
  unfold Chip.dropPg
  split
  next h => simpa [Chip.is] using h
  next => rw [Chip.fld_count _ _ _ _ _ _ (by decide), Chip.fld_set_self _ _ _ _ _ (by decide), Nat.zero_mod]

/-- Power-good is low. -/
theorem Chip.pg_gateOff (s : Chip) (k : Nat) : (s.gateOff k).fld F.SLT_STS.PG k = 0 := by
  unfold Chip.gateOff
  rw [Chip.fld_modSlot, Chip.fld_set_apart _ F.SLT_STS.CLA F.SLT_STS.PG _ _ (by decide), Chip.fld_givePg_false, s.pg_dropPg k]

/-- The fields below CLA are as they were. -/
theorem Chip.fld_gateOff (s : Chip) (k : Nat) (g : Fld) (hg : g.reg = .SLT_STS ∧ g.lo + g.width ≤ 22) :
    (s.gateOff k).fld g k = s.fld g k := by
  obtain ⟨hreg, hpos⟩ := hg
  have hcla : g.lo + g.width ≤ F.SLT_STS.CLA.lo := hpos
  have hpg : g.lo + g.width ≤ F.SLT_STS.PG.lo := Nat.le_succ_of_le hpos
  have hdrop : (s.dropPg k).fld g k = s.fld g k := by
    unfold Chip.dropPg
    split
    next => rfl
    next => rw [Chip.fld_count _ _ _ _ _ _ (hreg ▸ by decide), Chip.fld_set_ne _ _ _ _ hreg.symm (.inl hpg) (by omega)]
  unfold Chip.gateOff
  rw [Chip.fld_modSlot, Chip.fld_set_ne _ _ _ _ hreg.symm (.inl hcla) (by omega), Chip.fld_givePg_false, hdrop]

theorem Chip.slot_gateOff (s : Chip) (k : Nat) :
    (s.gateOff k).slot k = { s.slot k with
      ft := 0, rampAt := none, pgAt := none, powAt := none, insAt := none, ready := false, tripAt := none } := by
  have hdrop : (s.dropPg k).slot k = s.slot k := by
    unfold Chip.dropPg
    split
    · rfl
    · rw [Chip.slot_count, Chip.slot_set]
  have hpg : (s.givePg k false).slot k = (s.dropPg k).slot k := by
    obtain ⟨q, hq⟩ := s.givePg_false k
    rw [hq]
    rfl
  unfold Chip.gateOff
  rw [Chip.slot_modSlot, Chip.slot_set, hpg, hdrop]

/-! ## Feeds (R337) -/

/-- The fields of the status below those of the feeds, or above them, are as they were. -/
theorem Chip.fld_feeds (s : Chip) (k : Nat) (g : Fld)
    (hg : g.reg = .SLT_STS ∧ (g.lo + g.width ≤ 19 ∨ 21 ≤ g.lo) ∧ g.lo + g.width ≤ 32) : (s.feeds k).fld g k = s.fld g k := by
  obtain ⟨hreg, hpos, h32⟩ := hg
  have ha : g.lo + g.width ≤ F.SLT_STS.FEED_A_ON.lo ∨ F.SLT_STS.FEED_A_ON.lo + F.SLT_STS.FEED_A_ON.width ≤ g.lo :=
    hpos.imp_left Nat.le_succ_of_le
  have hb : g.lo + g.width ≤ F.SLT_STS.FEED_B_ON.lo ∨ F.SLT_STS.FEED_B_ON.lo + F.SLT_STS.FEED_B_ON.width ≤ g.lo :=
    hpos.imp_right Nat.le_of_succ_le
  unfold Chip.feeds
  rw [Chip.fld_set_ne _ _ _ _ hreg.symm hb h32, Chip.fld_set_ne _ _ _ _ hreg.symm ha h32]

@[simp] theorem Chip.slot_feeds (s : Chip) (k i : Nat) : (s.feeds k).slot i = s.slot i := by
  unfold Chip.feeds
  rw [Chip.slot_set, Chip.slot_set]

/-- The feed of a channel in Pass fault, with VIN_SNS out of range, or in reverse does not conduct. -/
theorem Chip.feedA_feeds (s : Chip) (k : Nat) (h : s.slSt k = slPass ∨ s.vinSnsBad = true ∨ (s.slot k).revA = true) :
    (s.feeds k).is F.SLT_STS.FEED_A_ON k = false := by
  unfold Chip.feeds Chip.is
  rw [Chip.fld_set_apart _ F.SLT_STS.FEED_B_ON F.SLT_STS.FEED_A_ON _ _ (by decide), ← Chip.is, Chip.is_set_b2n _ _ _ _ _ (by decide)]
  rcases h with h | h | h <;> simp [h]

theorem Chip.feedB_feeds (s : Chip) (k : Nat) (h : s.slSt k = slPass ∨ s.vinSnsBad = true ∨ (s.slot k).revB = true) :
    (s.feeds k).is F.SLT_STS.FEED_B_ON k = false := by
  unfold Chip.feeds
  rw [Chip.is_set_b2n _ _ _ _ _ (by decide)]
  rcases h with h | h | h <;> simp [h]

end

end Sys2Proof.Machine
end

section
/-! SUPPORT. Trips and faults of a slot channel: the fault recorded, the counts, and the wait for a retry (R345, R347, R348, R351). -/

namespace Sys2Proof.Machine

section
variable {s t u : Chip} {k : Nat}

/-! ## Commands that act on a slot channel -/

theorem Chip.AtRest.count (h : s.AtRest) (n m : Nat) : (s.count n m).AtRest := ((SentFrom.refl s).count n m).atRest h

theorem Chip.AtRest.modSlot (h : s.AtRest) (k : Nat) (f : SlotX → SlotX) : (s.modSlot k f).AtRest := h

/-- A command of the chip that leaves it at rest does what it does to the chip. -/
theorem State.does_rest {x : State} {c : Instr} {ok : Bool} {f : Chip → Chip} {P : State → Prop} (hexec : exec c x = onChip ok f x)
    (hok : ok = true) (hrest : (f x.fresh).AtRest) (hP : P (x.withChip (f x.fresh))) : x.Does c P :=
  ⟨_, hexec.trans (onChip_rest hok hrest), rfl, hP⟩

/-- A command of the chip that leaves it calm ends in a state that has its slots. -/
theorem State.does_calm {x : State} {c : Instr} {ok : Bool} {f : Chip → Chip} {P : State → Prop} (hexec : exec c x = onChip ok f x)
    (hok : ok = true) (hcalm : (f x.fresh).Calm) (hP : ∀ y : State, (f x.fresh).SlotsKept y.chip → P y) : x.Does c P := by
  obtain ⟨hkept, hpending⟩ := settleN_slotsKept 4 (x := x.withChip (f x.fresh)) hcalm
  refine ⟨(x.withChip (f x.fresh)).settle, hexec.trans ?_, hpending, hP _ hkept⟩
  subst hok
  rfl

/-! ## The state of a channel -/

@[simp] theorem Chip.slSt_modSlot (s : Chip) (k i : Nat) (f : SlotX → SlotX) : (s.modSlot k f).slSt i = s.slSt i := rfl

theorem Chip.slSt_setSl (s : Chip) (k : Nat) {st : Nat} (h : st < 16) : (s.setSl k st).slSt k = st :=
  (s.fld_set_self F.SLT_STS.STATE st k 0 (by decide)).trans (Nat.mod_eq_of_lt h)

/-- The status beside the state is as it was. -/
theorem Chip.fld_setSl (s : Chip) (k st : Nat) (g : Fld) (hg : g.reg = .SLT_STS ∧ g.lo + g.width ≤ 28) :
    (s.setSl k st).fld g k = s.fld g k := by
  obtain ⟨hreg, hpos⟩ := hg
  exact s.fld_set_ne st k 0 hreg.symm (.inl hpos) (Nat.le_trans hpos (by decide))

@[simp] theorem Chip.slot_setSl (s : Chip) (k st i : Nat) : (s.setSl k st).slot i = s.slot i := s.slot_set _ _ _ _ _

theorem Chip.slSt_feeds (s : Chip) (k : Nat) : (s.feeds k).slSt k = s.slSt k := s.fld_feeds k F.SLT_STS.STATE (by decide)

/-! ## A fault of a channel (R351) -/

/-- Chip source bit 14 is raised, and `FLT_SLOT_SRC` tells of channel `k`. -/
def Chip.Told (c : Chip) (k : Nat) : Prop := c.Raised chipCollector 14 clsP ∧ bitAt (c.rd .FLT_SLOT_SRC).toNat k = true

/-- The slot channels and what their registers tell are as before. -/
def Chip.ChannelsKept (s t : Chip) : Prop := Chip.RegsKept [.SLT_STS, .SLT_EVT] s t ∧ t.slots = s.slots

theorem Chip.SlotsKept.channelsKept (h : s.SlotsKept t) : s.ChannelsKept t := by
  obtain ⟨hr, -, hp, -⟩ := h
  exact ⟨fun n hn => hr n (List.mem_of_mem_dropLast hn), congrArg Prod.fst hp⟩

theorem Chip.ChannelsKept.trans (h : s.ChannelsKept t) (h' : t.ChannelsKept u) : s.ChannelsKept u := by
  obtain ⟨hr, hslot⟩ := h
  obtain ⟨hr', hslot'⟩ := h'
  exact ⟨hr.trans hr', hslot'.trans hslot⟩

theorem Chip.ChannelsKept.slot (h : s.ChannelsKept t) (k : Nat) : t.slot k = s.slot k := by
  rw [Chip.slot, Chip.slot, h.2]

theorem Chip.ChannelsKept.slSt (h : s.ChannelsKept t) (k : Nat) : t.slSt k = s.slSt k := h.1.fld (f := F.SLT_STS.STATE) k 0 (by decide)

theorem Chip.SlotsKept.told (h : s.SlotsKept t) (hs : s.Told k) : t.Told k := by
  obtain ⟨hr, hf, -, -⟩ := h
  obtain ⟨hraised, hbit⟩ := hs
  exact ⟨hf _ _ _ hraised, (hr .FLT_SLOT_SRC (by decide) 0 0).symm ▸ hbit⟩

/-- Beside the source that is recorded the fault changes nothing of the slots. -/
theorem Chip.slotFault_slotsKept (s : Chip) (k : Nat) :
    (s.wr .FLT_SLOT_SRC 0 0 (w32 (setBit (s.rd .FLT_SLOT_SRC).toNat k))).SlotsKept (s.slotFault k) := (SlotsKept.refl _).chipFault (by decide)

theorem Chip.slotFault_told (s : Chip) (hk : k < 32) : (s.slotFault k).Told k := by
  refine ⟨Chip.raise_raised _ (by decide) (by decide), ?_⟩
  rw [(s.slotFault_slotsKept k).1 .FLT_SLOT_SRC (by decide), Chip.rd_wr_self, bitAt_w32 _ hk, bitAt_setBit_self]

theorem Chip.slotFault_channelsKept (s : Chip) (k : Nat) : s.ChannelsKept (s.slotFault k) :=
  have hwr : s.ChannelsKept (s.wr .FLT_SLOT_SRC 0 0 (w32 (setBit (s.rd .FLT_SLOT_SRC).toNat k))) := ⟨(RegsKept.refl _ _).wr (by decide), rfl⟩
  hwr.trans (s.slotFault_slotsKept k).channelsKept

theorem Chip.AtRest.slotFault (h : s.AtRest) (k : Nat) : (s.slotFault k).Calm :=
  (s.slotFault_slotsKept k).calm (h.wr .FLT_SLOT_SRC 0 0 _).calm

/-- What follows a fault keeps the channels as they were at it, and the fault is told. -/
theorem Chip.SlotsKept.faulted (h : (s.slotFault k).SlotsKept t) (hk : k < 32) : s.ChannelsKept t ∧ t.Told k :=
  ⟨(s.slotFault_channelsKept k).trans h.channelsKept, h.told (s.slotFault_told hk)⟩

/-! ## A trip (R345) -/

/-- The gate is off, with its cause, and the trip is counted. -/
def Chip.tripCounted (s : Chip) (k cause : Nat) : Chip :=
  (((s.gateOff k).set F.SLT_STS.CAUSE cause k).bump F.SLT_EVT.TRIPS 1 k).count (cntSlot k 0)

/-- The channel waits for a retry while one is left. -/
def Chip.tripWaits (s : Chip) (k : Nat) : Chip :=
  if s.fld F.SLT_STS.RETRIES k < s.fld F.SLT_CTRL.RETRY_MAX k then
    ((s.set F.SLT_STS.RETRIES (s.fld F.SLT_STS.RETRIES k + 1) k).setSl k slRetry).modSlot k (fun x => { x with tripAt := some s.time })
  else s.setSl k slLatched

theorem Chip.trip_eq (s : Chip) (k cause : Nat) :
    s.trip k cause = ((((s.tripCounted k cause).tripWaits k).slotFault k).slotPfd k).slotOos k := rfl

theorem Chip.AtRest.tripCounted (h : s.AtRest) (k cause : Nat) : (s.tripCounted k cause).AtRest :=
  (((s.gateOff_onSlot k).set (f := F.SLT_STS.CAUSE) rfl).1.atRest h |>.set F.SLT_EVT.TRIPS _ k 0).count _ _

theorem Chip.AtRest.tripWaits (h : s.AtRest) (k : Nat) : (s.tripWaits k).AtRest := by
  unfold Chip.tripWaits
  split
  · exact ((h.set _ _ _ _).set _ _ _ _).modSlot _ _
  · exact h.set _ _ _ _

theorem Chip.AtRest.trip (h : s.AtRest) (k cause : Nat) : (s.trip k cause).Calm := by
  rw [Chip.trip_eq]
  exact (SlotsKept.refl _).slotPfd.slotOos.calm (((h.tripCounted k cause).tripWaits k).slotFault k)

theorem Chip.time_tripCounted (s : Chip) (k cause : Nat) : (s.tripCounted k cause).time = s.time := by
  unfold Chip.tripCounted
  rw [Chip.count_time, Chip.bump, Chip.set_time]
  exact ((s.gateOff_onSlot k).set (f := F.SLT_STS.CAUSE) (v := cause) rfl).1.time

/-- What is counted of a trip is in no register but `SLT_EVT`. -/
theorem Chip.fld_tripCounted (s : Chip) (k cause : Nat) (g : Fld) (hg : g.reg ≠ .CNT_OVF ∧ g.reg ≠ .SLT_EVT) :
    (s.tripCounted k cause).fld g k = ((s.gateOff k).set F.SLT_STS.CAUSE cause k).fld g k := by
  unfold Chip.tripCounted
  rw [Chip.fld_count _ _ _ _ _ _ hg.1, Chip.bump, Chip.fld_set_name _ _ _ _ _ _ (Ne.symm hg.2)]

theorem Chip.cause_tripCounted (s : Chip) (k : Nat) {cause : Nat} (h : cause < 16) :
    (s.tripCounted k cause).fld F.SLT_STS.CAUSE k = cause := by
  rw [s.fld_tripCounted k cause _ (by decide), Chip.fld_set_self _ _ _ _ _ (by decide)]
  exact Nat.mod_eq_of_lt h

theorem Chip.pg_tripCounted (s : Chip) (k cause : Nat) : (s.tripCounted k cause).fld F.SLT_STS.PG k = 0 := by
  rw [s.fld_tripCounted k cause _ (by decide),
    Chip.fld_set_apart _ F.SLT_STS.CAUSE F.SLT_STS.PG _ _ (by decide), s.pg_gateOff]

theorem Chip.retries_tripCounted (s : Chip) (k cause : Nat) :
    (s.tripCounted k cause).fld F.SLT_STS.RETRIES k = s.fld F.SLT_STS.RETRIES k := by
  rw [s.fld_tripCounted k cause _ (by decide),
    Chip.fld_set_apart _ F.SLT_STS.CAUSE F.SLT_STS.RETRIES _ _ (by decide), s.fld_gateOff k F.SLT_STS.RETRIES (by decide)]

theorem Chip.retryMax_tripCounted (s : Chip) (k cause : Nat) :
    (s.tripCounted k cause).fld F.SLT_CTRL.RETRY_MAX k = s.fld F.SLT_CTRL.RETRY_MAX k := by
  rw [s.fld_tripCounted k cause _ (by decide)]
  exact ((s.gateOff_onSlot k).set (f := F.SLT_STS.CAUSE) rfl).1.fld _ _ (by decide)

theorem Chip.trips_tripCounted (s : Chip) (k cause : Nat) :
    (s.tripCounted k cause).fld F.SLT_EVT.TRIPS k = min (s.fld F.SLT_EVT.TRIPS k + 1) 65535 := by
  have hold : ((s.gateOff k).set F.SLT_STS.CAUSE cause k).fld F.SLT_EVT.TRIPS k = s.fld F.SLT_EVT.TRIPS k :=
    ((s.gateOff_onSlot k).set (f := F.SLT_STS.CAUSE) rfl).1.fld _ _ (by decide)
  unfold Chip.tripCounted
  rw [Chip.fld_count _ _ _ _ _ _ (by decide), Chip.bump, Chip.fld_set_self _ _ _ _ _ (by decide), hold]
  exact Nat.mod_eq_of_lt (lt_of_le_of_lt (Nat.min_le_right _ _) (by decide))

/-- A field that waiting for a retry does not write. -/
theorem Chip.fld_tripWaits (s : Chip) (k : Nat) (g : Fld)
    (hg : g.reg = .SLT_STS → 14 ≤ g.lo ∧ g.lo + g.width ≤ 28) : (s.tripWaits k).fld g k = s.fld g k := by
  have hset : ∀ (c : Chip) (f : Fld) (v : Nat), f.reg = .SLT_STS → f.lo + f.width ≤ 14 ∨ 28 ≤ f.lo →
      (c.set f v k).fld g k = c.fld g k := by
    intro c f v hf hpos
    by_cases hreg : g.reg = .SLT_STS
    · obtain ⟨hlo, hhi⟩ := hg hreg
      exact c.fld_set_ne v k 0 (hf.trans hreg.symm) (by omega) (by omega)
    · exact c.fld_set_name v k 0 k 0 fun he => hreg (he ▸ hf)
  unfold Chip.tripWaits
  split
  · rw [Chip.fld_modSlot, Chip.setSl, hset _ _ _ rfl (by decide), hset _ _ _ rfl (by decide)]
  · exact hset _ _ _ rfl (by decide)

theorem Chip.tripWaits_retry (h : s.fld F.SLT_STS.RETRIES k < s.fld F.SLT_CTRL.RETRY_MAX k) :
    (s.tripWaits k).slSt k = slRetry ∧ (s.tripWaits k).fld F.SLT_STS.RETRIES k = s.fld F.SLT_STS.RETRIES k + 1 ∧
      ((s.tripWaits k).slot k).tripAt = some s.time := by
  have hmax : s.fld F.SLT_CTRL.RETRY_MAX k < 8 := bitsOf_lt _ _ 3
  unfold Chip.tripWaits
  rw [if_pos h]
  refine ⟨(Chip.slSt_modSlot ..).trans (Chip.slSt_setSl _ k (by decide)), ?_, ?_⟩
  · rw [Chip.fld_modSlot, Chip.fld_setSl _ _ _ F.SLT_STS.RETRIES (by decide), Chip.fld_set_self _ _ _ _ _ (by decide)]
    exact Nat.mod_eq_of_lt (show s.fld F.SLT_STS.RETRIES k + 1 < 8 by omega)
  · rw [Chip.slot_modSlot]

theorem Chip.tripWaits_latched (h : s.fld F.SLT_CTRL.RETRY_MAX k ≤ s.fld F.SLT_STS.RETRIES k) :
    (s.tripWaits k).slSt k = slLatched ∧ (s.tripWaits k).fld F.SLT_STS.RETRIES k = s.fld F.SLT_STS.RETRIES k := by
  unfold Chip.tripWaits
  rw [if_neg (not_lt.mpr h)]
  exact ⟨s.slSt_setSl k (by decide), s.fld_setSl k _ F.SLT_STS.RETRIES (by decide)⟩

/-- From `s` to `t` channel `k` has tripped for a cause: its gate is off, the trip is counted and told of, and it waits for a retry while one
is left, else it is latched. -/
def Chip.Tripped (s t : Chip) (k cause : Nat) : Prop :=
  t.fld F.SLT_STS.CAUSE k = cause ∧ t.is F.SLT_STS.PG k = false ∧
    t.fld F.SLT_EVT.TRIPS k = min (s.fld F.SLT_EVT.TRIPS k + 1) 65535 ∧ t.Told k ∧
    (s.fld F.SLT_STS.RETRIES k < s.fld F.SLT_CTRL.RETRY_MAX k → t.slSt k = slRetry ∧
      t.fld F.SLT_STS.RETRIES k = s.fld F.SLT_STS.RETRIES k + 1 ∧ (t.slot k).tripAt = some s.time) ∧
    (s.fld F.SLT_CTRL.RETRY_MAX k ≤ s.fld F.SLT_STS.RETRIES k → t.slSt k = slLatched ∧
      t.fld F.SLT_STS.RETRIES k = s.fld F.SLT_STS.RETRIES k)

/-- What a trip leads to keeps the channel as it was when the fault was told. -/
theorem Chip.SlotsKept.faultOfTrip {cause : Nat} (h : (s.trip k cause).SlotsKept t) (hk : k < 32) :
    ((s.tripCounted k cause).tripWaits k).ChannelsKept t ∧ t.Told k :=
  ((SlotsKept.refl _).slotPfd.slotOos.trans (s.trip_eq k cause ▸ h)).faulted hk

/-- A trip does not change whether the channel is hot. -/
theorem Chip.SlotsKept.hot_trip {cause : Nat} (h : (s.trip k cause).SlotsKept t) (hk : k < 32) : (t.slot k).hot = (s.slot k).hot := by
  have hwaits : ((s.tripCounted k cause).tripWaits k |>.slot k).hot = ((s.tripCounted k cause).slot k).hot := by
    unfold Chip.tripWaits
    split
    · rw [Chip.slot_modSlot, Chip.slot_setSl, Chip.slot_set]
    · rw [Chip.slot_setSl]
  have hcounted : ((s.tripCounted k cause).slot k).hot = (s.slot k).hot := by
    rw [Chip.tripCounted, Chip.slot_count, Chip.bump, Chip.slot_set, Chip.slot_set, Chip.slot_gateOff]
  exact (congrArg SlotX.hot ((h.faultOfTrip hk).1.slot k)).trans (hwaits.trans hcounted)

theorem Chip.SlotsKept.tripped {cause : Nat} (h : (s.trip k cause).SlotsKept t) (hk : k < 32) (hcause : cause < 16) :
    s.Tripped t k cause := by
  obtain ⟨hkept, htold⟩ := h.faultOfTrip hk
  have hn := s.retries_tripCounted k cause
  have hmax := s.retryMax_tripCounted k cause
  have hpg : t.fld F.SLT_STS.PG k = 0 := by
    rw [hkept.1.fld (f := F.SLT_STS.PG) _ _ (by decide), Chip.fld_tripWaits _ _ F.SLT_STS.PG (by decide), s.pg_tripCounted]
  refine ⟨?_, ?_, ?_, htold, fun hlt => ?_, fun hle => ?_⟩
  · rw [hkept.1.fld (f := F.SLT_STS.CAUSE) _ _ (by decide), Chip.fld_tripWaits _ _ F.SLT_STS.CAUSE (by decide), s.cause_tripCounted k hcause]
  · rw [Chip.is, hpg]
    rfl
  · rw [hkept.1.fld (f := F.SLT_EVT.TRIPS) _ _ (by decide), Chip.fld_tripWaits _ _ F.SLT_EVT.TRIPS (by decide), s.trips_tripCounted]
  · obtain ⟨hst, hr, hat⟩ := Chip.tripWaits_retry (hn.symm ▸ hmax.symm ▸ hlt)
    exact ⟨(hkept.slSt k).trans hst, (hkept.1.fld (f := F.SLT_STS.RETRIES) k 0 (by decide)).trans (hr.trans (congrArg (· + 1) hn)),
      (congrArg SlotX.tripAt (hkept.slot k)).trans (hat.trans (congrArg some (s.time_tripCounted k cause)))⟩
  · obtain ⟨hst, hr⟩ := Chip.tripWaits_latched (hn.symm ▸ hmax.symm ▸ hle)
    exact ⟨(hkept.slSt k).trans hst, (hkept.1.fld (f := F.SLT_STS.RETRIES) k 0 (by decide)).trans (hr.trans hn)⟩

end

end Sys2Proof.Machine
end

section
/-! SUPPORT. The commands of a slot channel, one by one: limit, trips, faults, the retry, feeds in reverse (R337, R341, R342, R345, R347,
R348). -/

namespace Sys2Proof.Machine

section
variable {s t u : Chip} {k : Nat}

/-! ## Current limit (R341) -/

/-- The limit that begins to act is counted. -/
def Chip.limitCounted (s : Chip) (k : Nat) : Chip :=
  if s.ftNow k = 0 then (s.bump F.SLT_EVT.LIMITS 1 k).count (cntSlot k 1) else s

theorem Chip.limitFor_pos (s : Chip) (k : Nat) {j : Nat} (hj : 0 < j) :
    s.limitFor k j = ((s.limitCounted k).set F.SLT_STS.CLA 1 k).modSlot k (fun x => { x with
      ft := s.ftNow k + j, ftAt := (s.limitCounted k).time, pgAt := none }) := by
  have hne : j ≠ 0 := Nat.ne_of_gt hj
  unfold Chip.limitFor Chip.limitCounted
  simp only [hne, ne_eq, not_false_eq_true, and_true, if_false]

theorem Chip.AtRest.limitCounted (h : s.AtRest) (k : Nat) : (s.limitCounted k).AtRest := by
  unfold Chip.limitCounted
  split
  · exact (h.set _ _ _ _).count _ _
  · exact h

theorem Chip.slSt_limitCounted (s : Chip) (k : Nat) : (s.limitCounted k).slSt k = s.slSt k := by
  unfold Chip.limitCounted Chip.slSt
  split
  · rw [Chip.fld_count _ _ _ _ _ _ (by decide), Chip.bump, Chip.fld_set_name _ _ _ _ _ _ (by decide)]
  · rfl

theorem Chip.limits_limitCounted (s : Chip) (k : Nat) :
    (s.limitCounted k).fld F.SLT_EVT.LIMITS k =
      if s.ftNow k = 0 then min (s.fld F.SLT_EVT.LIMITS k + 1) 65535 else s.fld F.SLT_EVT.LIMITS k := by
  unfold Chip.limitCounted
  split
  · rw [Chip.fld_count _ _ _ _ _ _ (by decide), Chip.bump, Chip.fld_set_self _ _ _ _ _ (by decide)]
    exact Nat.mod_eq_of_lt (lt_of_le_of_lt (Nat.min_le_right _ _) (by decide))
  · rfl

theorem Chip.AtRest.limitFor (h : s.AtRest) (k : Nat) {j : Nat} (hj : 0 < j) : (s.limitFor k j).AtRest :=
  s.limitFor_pos k hj ▸ ((h.limitCounted k).set F.SLT_STS.CLA 1 k 0).modSlot k _

theorem Chip.cla_limitFor (s : Chip) (k : Nat) {j : Nat} (hj : 0 < j) : (s.limitFor k j).is F.SLT_STS.CLA k = true := by
  rw [s.limitFor_pos k hj, Chip.is, Chip.fld_modSlot, Chip.fld_set_self _ _ _ _ _ (by decide)]
  rfl

theorem Chip.ft_limitFor (s : Chip) (k : Nat) {j : Nat} (hj : 0 < j) : ((s.limitFor k j).slot k).ft = s.ftNow k + j := by
  rw [s.limitFor_pos k hj, Chip.slot_modSlot]

theorem Chip.slSt_limitFor (s : Chip) (k : Nat) {j : Nat} (hj : 0 < j) : (s.limitFor k j).slSt k = s.slSt k := by
  rw [s.limitFor_pos k hj, Chip.slSt_modSlot, Chip.slSt, Chip.fld_set_apart _ F.SLT_STS.CLA F.SLT_STS.STATE _ _ (by decide)]
  exact s.slSt_limitCounted k

theorem Chip.limits_limitFor (s : Chip) (k : Nat) {j : Nat} (hj : 0 < j) :
    (s.limitFor k j).fld F.SLT_EVT.LIMITS k =
      if s.ftNow k = 0 then min (s.fld F.SLT_EVT.LIMITS k + 1) 65535 else s.fld F.SLT_EVT.LIMITS k := by
  rw [s.limitFor_pos k hj, Chip.fld_modSlot, Chip.fld_set_name _ _ _ _ _ _ (by decide), s.limits_limitCounted k]

/-- The fault timer is at 0: the limit acts no more, and power-good can count again. -/
theorem slotTimerZero_eq (hcla : s.is F.SLT_STS.CLA k = true) (hft : s.ftNow k = 0) :
    slotTimerZero k s = (s.set F.SLT_STS.CLA 0 k).modSlot k (fun x => { x with
      ft := 0, pgAt := if s.slSt k = slCheck then some s.time else x.pgAt }) := by
  unfold slotTimerZero
  rw [hcla, hft]
  rfl

/-! ## Faults without a trip (R347, R348) -/

/-- The gate is off with a cause, and the channel is in a state of fault. -/
def Chip.gateFaulted (s : Chip) (k cause st : Nat) : Chip := ((s.gateOff k).set F.SLT_STS.CAUSE cause k).setSl k st

theorem Chip.gateFaulted_onSlot (s : Chip) (k cause st : Nat) : Chip.OnSlot k s (s.gateFaulted k cause st) :=
  ((s.gateOff_onSlot k).set rfl).setSl

theorem Chip.slSt_gateFaulted (s : Chip) (k cause : Nat) {st : Nat} (h : st < 16) : (s.gateFaulted k cause st).slSt k = st :=
  Chip.slSt_setSl _ k h

theorem Chip.cause_gateFaulted (s : Chip) (k : Nat) {cause : Nat} (st : Nat) (h : cause < 16) :
    (s.gateFaulted k cause st).fld F.SLT_STS.CAUSE k = cause := by
  rw [Chip.gateFaulted, Chip.fld_setSl _ _ _ F.SLT_STS.CAUSE (by decide), Chip.fld_set_self _ _ _ _ _ (by decide)]
  exact Nat.mod_eq_of_lt h

theorem Chip.pg_gateFaulted (s : Chip) (k cause st : Nat) : (s.gateFaulted k cause st).is F.SLT_STS.PG k = false := by
  have hpg : (s.gateFaulted k cause st).fld F.SLT_STS.PG k = 0 := by
    rw [Chip.gateFaulted, Chip.fld_setSl _ _ _ F.SLT_STS.PG (by decide),
      Chip.fld_set_apart _ F.SLT_STS.CAUSE F.SLT_STS.PG _ _ (by decide), s.pg_gateOff]
  rw [Chip.is, hpg]
  rfl

theorem Chip.retries_gateFaulted (s : Chip) (k cause st : Nat) :
    (s.gateFaulted k cause st).fld F.SLT_STS.RETRIES k = s.fld F.SLT_STS.RETRIES k := by
  rw [Chip.gateFaulted, Chip.fld_setSl _ _ _ F.SLT_STS.RETRIES (by decide),
    Chip.fld_set_apart _ F.SLT_STS.CAUSE F.SLT_STS.RETRIES _ _ (by decide), s.fld_gateOff k F.SLT_STS.RETRIES (by decide)]

theorem slotDiode_eq (hgate : s.gateOn k = true) (htemp : s.slTemp k = true) (hmode : s.fld F.SLT_CFG.TMODE k % 2 = 1) :
    slotDiode k s = ((s.gateFaulted k 6 slLatched).slotFault k).slotOos k := by
  unfold slotDiode
  rw [hgate, htemp, hmode]
  rfl

/-- The gate of a channel in Pass fault is off, and its feeds do not conduct. -/
def Chip.passFaulted (s : Chip) (k : Nat) : Chip :=
  ((((s.gateOff k).modSlot k (fun x => { x with voutHigh := true })).set F.SLT_STS.CAUSE 7 k).setSl k slPass).feeds k

theorem Chip.passFaulted_onSlot (s : Chip) (k : Nat) : Chip.OnSlot k s (s.passFaulted k) := ((s.gateOff_onSlot k).modSlot.set rfl).setSl.feeds

theorem Chip.slSt_passFaulted (s : Chip) (k : Nat) : (s.passFaulted k).slSt k = slPass :=
  (Chip.slSt_feeds _ k).trans (Chip.slSt_setSl _ k (by decide))

theorem Chip.cause_passFaulted (s : Chip) (k : Nat) : (s.passFaulted k).fld F.SLT_STS.CAUSE k = 7 := by
  rw [Chip.passFaulted, Chip.fld_feeds _ _ F.SLT_STS.CAUSE (by decide), Chip.fld_setSl _ _ _ F.SLT_STS.CAUSE (by decide),
    Chip.fld_set_self _ _ _ _ _ (by decide)]
  rfl

theorem slotPassFault_eq (hdis : s.slSt k ≠ slDisabled) (hpass : s.slSt k ≠ slPass) (hgate : s.gateOn k = false) :
    slotPassFault k s = (s.passFaulted k).slotFault k := by
  unfold slotPassFault
  dsimp only
  rw [if_neg]
  · rfl
  · simp [hdis, hpass, hgate]

/-! ## Ramp after a wait (R345, R348) -/

theorem Chip.enterRamp_atRest (h : s.AtRest) (k : Nat) : (s.enterRamp k).AtRest := by
  unfold Chip.enterRamp
  split
  · exact h.modSlot _ _
  · exact (h.set _ _ _ _).modSlot _ _

/-- Ramp begins now. -/
def Chip.Ramps (s t : Chip) (k : Nat) : Prop := t.slSt k = slRamp ∧ (t.slot k).rampAt = some s.time

theorem Chip.enterRamp_ramps (h : (s.slotHold || (s.slot k).hot) = false) : s.Ramps (s.enterRamp k) k := by
  unfold Chip.enterRamp
  rw [h, if_neg Bool.false_ne_true]
  exact ⟨(Chip.slSt_modSlot ..).trans (s.slSt_setSl k (by decide)), congrArg SlotX.rampAt (Chip.slot_modSlot ..)⟩

/-- A channel that is held waits in its state. -/
theorem Chip.enterRamp_held (h : (s.slotHold || (s.slot k).hot) = true) :
    s.enterRamp k = s.modSlot k (fun x => { x with ready := true }) := if_pos h

theorem Chip.hot_enterRamp (s : Chip) (k : Nat) : ((s.enterRamp k).slot k).hot = (s.slot k).hot := by
  unfold Chip.enterRamp
  split
  · rw [Chip.slot_modSlot]
  · rw [Chip.slot_modSlot, Chip.slot_setSl]

/-- The channel with its temperature below TJ_MAX. -/
def Chip.cooled (s : Chip) (k : Nat) : Chip := s.modSlot k (fun x => { x with hot := false })

theorem Chip.slot_cooled (s : Chip) (k : Nat) : (s.cooled k).slot k = { s.slot k with hot := false } := s.slot_modSlot k _

theorem Chip.resumeRamp_atRest (h : s.AtRest) (k : Nat) : (s.resumeRamp k).AtRest := by
  unfold Chip.resumeRamp
  dsimp only
  split
  · exact enterRamp_atRest h k
  · exact h

theorem Chip.hot_resumeRamp (s : Chip) (k : Nat) : ((s.resumeRamp k).slot k).hot = (s.slot k).hot := by
  unfold Chip.resumeRamp
  dsimp only
  split
  · exact s.hot_enterRamp k
  · rfl

/-- A channel that has waited goes on. -/
theorem Chip.resumeRamp_ready (hready : (s.slot k).ready = true) (hst : s.slSt k = slQualify ∨ s.slSt k = slRetry)
    (hvin : (s.slot k).vinOk = true) (hpres : s.slPresent k = true) : s.resumeRamp k = s.enterRamp k := by
  unfold Chip.resumeRamp
  dsimp only
  rw [if_pos]
  simpa [hready, hvin, hpres] using hst

/-- A channel that does not wait stays. -/
theorem Chip.resumeRamp_idle (hready : (s.slot k).ready = false) : s.resumeRamp k = s := by
  unfold Chip.resumeRamp
  dsimp only
  rw [hready]
  rfl

theorem slotRetry_eq {a : Nat} (ha : (s.slot k).tripAt = some a) (hst : s.slSt k = slRetry) (hdue : a + secT ≤ s.time) :
    slotRetry k s = if (s.slot k).vinOk && !s.vinSnsBad then s.enterRamp k
      else (s.modSlot k (fun x => { x with tripAt := none })).setSl k slQualify := by
  unfold slotRetry
  rw [ha]
  dsimp only
  rw [if_neg]
  rintro (hne | hlt)
  · exact hne hst
  · omega

theorem slotPowered60_eq {a : Nat} (ha : (s.slot k).powAt = some a) (hst : s.slSt k = slPowered) (hdue : a + 60 * secT ≤ s.time) :
    slotPowered60 k s = s.set F.SLT_STS.RETRIES 0 k := by
  unfold slotPowered60
  rw [ha]
  exact if_pos ⟨hst, hdue⟩

/-! ## A feed in reverse (R337) -/

/-- The drop of a feed is noted. -/
def Chip.reversed (s : Chip) (k : Nat) (b r : Bool) : Chip := s.modSlot k (fun x => if b then { x with revB := r } else { x with revA := r })

theorem slotFeedReverse_eq (b r : Bool) (hon : s.slOn k = true) : slotFeedReverse k b r s = (s.reversed k b r).feeds k := by
  unfold slotFeedReverse
  rw [hon]
  rfl

end

/-! ## The commands -/

section
variable {s : State} {k : Nat}

theorem does_slotLimitAct (hs : s.chip.AtRest) (hk : k < 32) (hgate : s.chip.gateOn k = true) {j : Nat} (hj : 0 < j) :
    s.Does (.slotLimitAct k j) fun t => t.chip.is F.SLT_STS.CLA k = true ∧ (t.chip.slot k).ft = s.chip.ftNow k + j ∧
      t.chip.slSt k = s.chip.slSt k ∧ t.chip.fld F.SLT_EVT.LIMITS k =
        (if s.chip.ftNow k = 0 then min (s.chip.fld F.SLT_EVT.LIMITS k + 1) 65535 else s.chip.fld F.SLT_EVT.LIMITS k) := by
  have heq : slotLimitAct k j s.fresh = s.fresh.limitFor k j := if_pos hgate
  have hrest : s.fresh.AtRest := hs
  refine State.does_rest (f := slotLimitAct k j) rfl (decide_eq_true hk) (heq ▸ hrest.limitFor k hj) ?_
  rw [heq]
  exact ⟨s.fresh.cla_limitFor k hj, s.fresh.ft_limitFor k hj, s.fresh.slSt_limitFor k hj, s.fresh.limits_limitFor k hj⟩

/-- A command that trips the channel. -/
theorem does_trip {c : Instr} {f : Chip → Chip} (hs : s.chip.AtRest) (hk : k < 32) {cause : Nat} (hcause : cause < 16)
    (hexec : exec c s = onChip true f s) (hf : f s.fresh = s.fresh.trip k cause) : s.Does c fun t => s.chip.Tripped t.chip k cause := by
  have hrest : s.fresh.AtRest := hs
  refine State.does_calm hexec rfl (hf ▸ hrest.trip k cause) fun y hy => ?_
  rw [hf] at hy
  exact hy.tripped hk hcause

theorem does_slotFaultTimerExpire (hs : s.chip.AtRest) (hk : k < 32) (hgate : s.chip.gateOn k = true)
    (hcla : s.chip.is F.SLT_STS.CLA k = true) (hdue : s.chip.slFtimer k ≤ s.chip.ftNow k) :
    s.Does (.slotFaultTimerExpire k) fun t => s.chip.Tripped t.chip k 1 := by
  have hguard : (s.chip.gateOn k && s.chip.is F.SLT_STS.CLA k && decide (s.chip.slFtimer k ≤ s.chip.ftNow k)) = true := by
    simp [hgate, hcla, hdue]
  have hwf : Instr.wf (.slotFaultTimerExpire k) = true := decide_eq_true hk
  exact does_trip hs hk (by decide) (congrArg (onChip · (slotTimerExpire k) s) hwf) (if_pos hguard)

theorem does_slotFastTrip (hs : s.chip.AtRest) (hk : k < 32) (hgate : s.chip.gateOn k = true) :
    s.Does (.slotFastTrip k) fun t => s.chip.Tripped t.chip k 2 := by
  have hwf : Instr.wf (.slotFastTrip k) = true := decide_eq_true hk
  exact does_trip hs hk (by decide) (congrArg (onChip · (slotFastTrip k) s) hwf) (if_pos hgate)

theorem does_slotVoutLost_powered (hs : s.chip.AtRest) (hk : k < 32) (hcla : s.chip.is F.SLT_STS.CLA k = false)
    (hst : s.chip.slSt k = slPowered) : s.Does (.slotVoutLost k) fun t => s.chip.Tripped t.chip k 5 := by
  have hwf : Instr.wf (.slotVoutLost k) = true := decide_eq_true hk
  have hf : slotVoutLost k s.fresh = s.fresh.trip k 5 := by
    have hcla' : s.fresh.is F.SLT_STS.CLA k = false := hcla
    unfold slotVoutLost
    rw [hcla']
    exact if_pos hst
  exact does_trip hs hk (by decide) (congrArg (onChip · (slotVoutLost k) s) hwf) hf

theorem does_slotVoutLost_check (hs : s.chip.AtRest) (hk : k < 32) (hcla : s.chip.is F.SLT_STS.CLA k = false)
    (hst : s.chip.slSt k = slCheck) :
    s.Does (.slotVoutLost k) fun t => t.chip.slSt k = slCheck ∧ (t.chip.slot k).pgAt = some s.chip.time := by
  have hf : slotVoutLost k s.fresh = s.fresh.modSlot k (fun x => { x with pgAt := some s.fresh.time }) := by
    have hcla' : s.fresh.is F.SLT_STS.CLA k = false := hcla
    have hst' : s.fresh.slSt k = slCheck := hst
    unfold slotVoutLost
    rw [hcla', hst']
    rfl
  have hrest : s.fresh.AtRest := hs
  refine State.does_rest (f := slotVoutLost k) rfl (decide_eq_true hk) (hf ▸ hrest.modSlot k _) ?_
  rw [hf]
  exact ⟨hst, congrArg SlotX.pgAt (Chip.slot_modSlot ..)⟩

/-- The trip of the temperature leaves it noted that the channel is hot. -/
theorem does_slotTempTrip (hs : s.chip.AtRest) (hk : k < 32) (hgate : s.chip.gateOn k = true) (htemp : s.chip.slTemp k = true)
    (hon : s.chip.slOn k = true) :
    s.Does (.slotTempTrip k) fun t => s.chip.Tripped t.chip k 3 ∧ (t.chip.slot k).hot = true := by
  have hf : slotTempTrip k s.fresh = (s.fresh.modSlot k (fun x => { x with hot := true })).trip k 3 := by
    have hon' : s.fresh.slOn k = true := hon
    have htemp' : s.fresh.slTemp k = true := htemp
    unfold slotTempTrip
    rw [hon', htemp']
    exact if_pos hgate
  have hrest : (s.fresh.modSlot k (fun x => { x with hot := true })).AtRest := hs
  refine State.does_calm (f := slotTempTrip k) rfl (decide_eq_true hk) (hf ▸ hrest.trip k 3) fun y hy => ?_
  rw [hf] at hy
  exact ⟨hy.tripped hk (by decide), (hy.hot_trip hk).trans (congrArg SlotX.hot (Chip.slot_modSlot ..))⟩

theorem does_slotDiodeFault (hs : s.chip.AtRest) (hk : k < 32) (hgate : s.chip.gateOn k = true) (htemp : s.chip.slTemp k = true)
    (hmode : s.chip.fld F.SLT_CFG.TMODE k % 2 = 1) :
    s.Does (.slotDiodeFault k) fun t => t.chip.slSt k = slLatched ∧ t.chip.fld F.SLT_STS.CAUSE k = 6 ∧
      t.chip.is F.SLT_STS.PG k = false ∧ t.chip.Told k ∧ t.chip.fld F.SLT_EVT.TRIPS k = s.chip.fld F.SLT_EVT.TRIPS k ∧
      t.chip.fld F.SLT_STS.RETRIES k = s.chip.fld F.SLT_STS.RETRIES k := by
  have hf : slotDiode k s.fresh = ((s.fresh.gateFaulted k 6 slLatched).slotFault k).slotOos k := slotDiode_eq hgate htemp hmode
  have hstep := s.fresh.gateFaulted_onSlot k 6 slLatched
  have hoos : ((s.fresh.gateFaulted k 6 slLatched).slotFault k).SlotsKept (slotDiode k s.fresh) := hf ▸ (Chip.SlotsKept.refl _).slotOos
  refine State.does_calm (f := slotDiode k) rfl (decide_eq_true hk) (hoos.calm ((hstep.1.atRest hs).slotFault k)) fun y hy => ?_
  obtain ⟨hkept, htold⟩ := (hoos.trans hy).faulted hk
  refine ⟨?_, ?_, ?_, htold, ?_, ?_⟩
  · exact (hkept.slSt k).trans (s.fresh.slSt_gateFaulted k 6 (by decide))
  · exact (hkept.1.fld k 0 (by decide)).trans (s.fresh.cause_gateFaulted k slLatched (by decide))
  · exact (hkept.1.is k 0 (by decide)).trans (s.fresh.pg_gateFaulted k 6 slLatched)
  · exact (hkept.1.fld k 0 (by decide)).trans (hstep.1.fld F.SLT_EVT.TRIPS k (by decide))
  · exact (hkept.1.fld k 0 (by decide)).trans (s.fresh.retries_gateFaulted k 6 slLatched)

theorem does_slotPassFault (hs : s.chip.AtRest) (hk : k < 32) (hdis : s.chip.slSt k ≠ slDisabled) (hpass : s.chip.slSt k ≠ slPass)
    (hgate : s.chip.gateOn k = false) :
    s.Does (.slotPassFault k) fun t => t.chip.slSt k = slPass ∧ t.chip.fld F.SLT_STS.CAUSE k = 7 ∧
      t.chip.is F.SLT_STS.FEED_A_ON k = false ∧ t.chip.is F.SLT_STS.FEED_B_ON k = false ∧ t.chip.Told k := by
  have hf : slotPassFault k s.fresh = (s.fresh.passFaulted k).slotFault k := slotPassFault_eq hdis hpass hgate
  have hstep := s.fresh.passFaulted_onSlot k
  refine State.does_calm (f := slotPassFault k) rfl (decide_eq_true hk) (hf ▸ (hstep.1.atRest hs).slotFault k) fun y hy => ?_
  obtain ⟨hkept, htold⟩ := Chip.SlotsKept.faulted (hf ▸ hy) hk
  refine ⟨(hkept.slSt k).trans (s.fresh.slSt_passFaulted k), (hkept.1.fld k 0 (by decide)).trans (s.fresh.cause_passFaulted k), ?_, ?_, htold⟩
  · exact (hkept.1.is k 0 (by decide)).trans (Chip.feedA_feeds _ k (.inl (Chip.slSt_setSl _ k (by decide))))
  · exact (hkept.1.is k 0 (by decide)).trans (Chip.feedB_feeds _ k (.inl (Chip.slSt_setSl _ k (by decide))))

theorem does_slotFaultTimerZero (hs : s.chip.AtRest) (hk : k < 32) (hcla : s.chip.is F.SLT_STS.CLA k = true)
    (hft : s.chip.ftNow k = 0) :
    s.Does (.slotFaultTimerZero k) fun t => t.chip.is F.SLT_STS.CLA k = false ∧ t.chip.slSt k = s.chip.slSt k ∧
      (t.chip.slot k).ft = 0 ∧ (s.chip.slSt k = slCheck → (t.chip.slot k).pgAt = some s.chip.time) := by
  have hf := slotTimerZero_eq (s := s.fresh) hcla hft
  have hst : (s.fresh.set F.SLT_STS.CLA 0 k).slSt k = s.chip.slSt k :=
    s.fresh.fld_set_apart F.SLT_STS.CLA F.SLT_STS.STATE 0 k (by decide)
  have hrest : s.fresh.AtRest := hs
  refine State.does_rest (f := slotTimerZero k) rfl (decide_eq_true hk) (hf ▸ (hrest.set _ _ _ _).modSlot k _) ?_
  rw [hf]
  refine ⟨Chip.is_set_b2n s.fresh F.SLT_STS.CLA false k 0 (by decide), hst, congrArg SlotX.ft (Chip.slot_modSlot ..), fun hcheck => ?_⟩
  exact (congrArg SlotX.pgAt (Chip.slot_modSlot ..)).trans (if_pos hcheck)

theorem does_slotTempBelowTjmax (hs : s.chip.AtRest) (hk : k < 32) :
    s.Does (.slotTempBelowTjmax k) fun t => (t.chip.slot k).hot = false ∧
      ((s.chip.slot k).ready = true → s.chip.slSt k = slQualify ∨ s.chip.slSt k = slRetry → (s.chip.slot k).vinOk = true →
        s.chip.slPresent k = true → s.chip.slotHold = false → s.chip.Ramps t.chip k) ∧
      ((s.chip.slot k).ready = false → t.chip.slSt k = s.chip.slSt k) := by
  have hslot : (s.fresh.cooled k).slot k = { s.chip.slot k with hot := false } := s.fresh.slot_cooled k
  refine State.does_rest (f := slotTempBelow k) rfl (decide_eq_true hk) (Chip.resumeRamp_atRest (s := s.fresh.cooled k) hs k) ⟨?_, ?_, ?_⟩
  · exact ((s.fresh.cooled k).hot_resumeRamp k).trans (congrArg SlotX.hot hslot)
  · intro hready hst hvin hpres hhold
    have hgo : (s.fresh.cooled k).resumeRamp k = (s.fresh.cooled k).enterRamp k :=
      Chip.resumeRamp_ready ((congrArg SlotX.ready hslot).trans hready) hst ((congrArg SlotX.vinOk hslot).trans hvin) hpres
    have hfree : ((s.fresh.cooled k).slotHold || ((s.fresh.cooled k).slot k).hot) = false := by
      rw [hslot, Bool.or_false]
      exact hhold
    exact congrArg (fun c : Chip => s.chip.Ramps c k) hgo ▸ Chip.enterRamp_ramps hfree
  · intro hready
    exact congrArg (·.slSt k) (Chip.resumeRamp_idle ((congrArg SlotX.ready hslot).trans hready))

theorem does_slotRetryExpire (hs : s.chip.AtRest) (hk : k < 32) {a : Nat} (ha : (s.chip.slot k).tripAt = some a)
    (hst : s.chip.slSt k = slRetry) (hdue : a + secT ≤ s.chip.time) :
    s.Does (.slotRetryExpire k) fun t =>
      ((s.chip.slot k).vinOk = true → s.chip.vinSnsBad = false → (s.chip.slotHold || (s.chip.slot k).hot) = false →
        s.chip.Ramps t.chip k) ∧
      ((s.chip.slot k).vinOk = true → s.chip.vinSnsBad = false → (s.chip.slotHold || (s.chip.slot k).hot) = true →
        t.chip.slSt k = slRetry ∧ (t.chip.slot k).ready = true) ∧
      ((s.chip.slot k).vinOk = false ∨ s.chip.vinSnsBad = true → t.chip.slSt k = slQualify) := by
  have hf := slotRetry_eq (s := s.fresh) ha hst hdue
  have hrest : s.fresh.AtRest := hs
  have hgo : (s.chip.slot k).vinOk = true → s.chip.vinSnsBad = false → slotRetry k s.fresh = s.fresh.enterRamp k := fun hvin hsns =>
    hf.trans (if_pos (show ((s.chip.slot k).vinOk && !s.chip.vinSnsBad) = true by simp [hvin, hsns]))
  refine State.does_rest (f := slotRetry k) rfl (decide_eq_true hk) ?_ ⟨?_, ?_, ?_⟩
  · rw [hf]
    split
    · exact Chip.enterRamp_atRest hrest k
    · exact (hrest.modSlot k _).set _ _ _ _
  · intro hvin hsns hfree
    exact congrArg (fun c : Chip => s.chip.Ramps c k) (hgo hvin hsns) ▸ Chip.enterRamp_ramps (s := s.fresh) hfree
  · intro hvin hsns hheld
    show (slotRetry k s.fresh).slSt k = slRetry ∧ ((slotRetry k s.fresh).slot k).ready = true
    rw [hgo hvin hsns, Chip.enterRamp_held (s := s.fresh) hheld]
    exact ⟨hst, congrArg SlotX.ready (Chip.slot_modSlot ..)⟩
  · intro hout
    have hno : ¬ ((s.chip.slot k).vinOk && !s.chip.vinSnsBad) = true := by
      rcases hout with h | h <;> simp [h]
    exact congrArg (·.slSt k) (hf.trans (if_neg hno)) |>.trans (Chip.slSt_setSl _ k (by decide))

theorem exec_slotPowered60s (hs : s.chip.AtRest) (hk : k < 32) {a : Nat} (ha : (s.chip.slot k).powAt = some a)
    (hst : s.chip.slSt k = slPowered) (hdue : a + 60 * secT ≤ s.chip.time) :
    exec (.slotPowered60s k) s = .next (s.withChip (s.fresh.set F.SLT_STS.RETRIES 0 k)) := by
  have hf := slotPowered60_eq (s := s.fresh) ha hst hdue
  have hrest : s.fresh.AtRest := hs
  have hend := onChip_rest (f := slotPowered60 k) (s := s) (decide_eq_true hk) (hf ▸ hrest.set _ _ _ _)
  exact hend.trans (congrArg (Host.Outcome.next ∘ s.withChip) hf)

theorem does_slotFeedReverse (hs : s.chip.AtRest) (hk : k < 32) (b r : Bool) (hon : s.chip.slOn k = true) :
    s.Does (.slotFeedReverse k b r) fun t =>
      (b = false → (t.chip.slot k).revA = r ∧ (r = true → t.chip.is F.SLT_STS.FEED_A_ON k = false)) ∧
      (b = true → (t.chip.slot k).revB = r ∧ (r = true → t.chip.is F.SLT_STS.FEED_B_ON k = false)) ∧
      t.chip.slSt k = s.chip.slSt k := by
  have hf := slotFeedReverse_eq (s := s.fresh) b r hon
  have hstep : Chip.OnSlot k s.fresh ((s.fresh.reversed k b r).feeds k) := (Chip.OnSlot.refl k s.fresh).modSlot.feeds
  have hslot : (s.fresh.reversed k b r).slot k = if b then { s.chip.slot k with revB := r } else { s.chip.slot k with revA := r } :=
    Chip.slot_modSlot ..
  refine State.does_rest (f := slotFeedReverse k b r) rfl (decide_eq_true hk) (hf ▸ hstep.1.atRest hs) ?_
  rw [hf]
  refine ⟨?_, ?_, Chip.slSt_feeds _ k⟩
  · rintro rfl
    have hrev : ((s.fresh.reversed k false r).slot k).revA = r := congrArg SlotX.revA hslot
    exact ⟨(congrArg SlotX.revA (Chip.slot_feeds ..)).trans hrev, fun hr => Chip.feedA_feeds _ k (.inr (.inr (hrev.trans hr)))⟩
  · rintro rfl
    have hrev : ((s.fresh.reversed k true r).slot k).revB = r := congrArg SlotX.revB hslot
    exact ⟨(congrArg SlotX.revB (Chip.slot_feeds ..)).trans hrev, fun hr => Chip.feedB_feeds _ k (.inr (.inr (hrev.trans hr)))⟩

end

end Sys2Proof.Machine
end

section
/-! SUPPORT. The supply sense of every slot channel, VIN_SNS: what leaves its range and comes back acts on each enabled channel for itself
(R338, R403). -/

namespace Sys2Proof.Machine

section
variable {s t u : Chip} {k : Nat}

/-! ## An action on each of several channels -/

/-- Channel `k` is as it was, whatever became of the others. -/
def Chip.SameSlot (k : Nat) (s t : Chip) : Prop := s.SlotStep t ∧ t.slot k = s.slot k ∧ ∀ j, t.rd .SLT_STS k j = s.rd .SLT_STS k j

theorem Chip.SameSlot.refl (k : Nat) (s : Chip) : Chip.SameSlot k s s := ⟨.refl s, rfl, fun _ => rfl⟩

theorem Chip.SameSlot.trans (h : Chip.SameSlot k s t) (h' : Chip.SameSlot k t u) : Chip.SameSlot k s u := by
  obtain ⟨hstep, hslot, hsts⟩ := h
  obtain ⟨hstep', hslot', hsts'⟩ := h'
  exact ⟨hstep.trans hstep', hslot'.trans hslot, fun j => (hsts' j).trans (hsts j)⟩

/-- What acts on one channel leaves each other one as it was. -/
theorem Chip.OnSlot.sameSlot {i : Nat} (h : Chip.OnSlot i s t) (hne : k ≠ i) : Chip.SameSlot k s t := by
  obtain ⟨hstep, hother⟩ := h
  obtain ⟨hslot, hsts⟩ := hother k hne
  exact ⟨hstep, hslot, hsts⟩

theorem Chip.SameSlot.fld (h : Chip.SameSlot k s t) (f : Fld) (hf : f.reg ≠ .CNT_OVF) : t.fld f k = s.fld f k := by
  obtain ⟨hstep, -, hsts⟩ := h
  by_cases hreg : f.reg = .SLT_STS
  · rw [Chip.fld, Chip.fld, hreg, hsts]
  · exact hstep.fld f k ⟨hf, hreg⟩

theorem Chip.SameSlot.is (h : Chip.SameSlot k s t) (f : Fld) (hf : f.reg ≠ .CNT_OVF) : t.is f k = s.is f k := by
  rw [Chip.is, Chip.is, h.fld f hf]

theorem Chip.SameSlot.slSt (h : Chip.SameSlot k s t) : t.slSt k = s.slSt k := h.fld F.SLT_STS.STATE (by decide)

section
variable {g : Nat → Chip → Chip} (hg : ∀ i c, Chip.OnSlot i c (g i c))
include hg

theorem foldl'_slotStep (l : List Nat) (s : Chip) : s.SlotStep (foldl' l g s) := by
  induction l generalizing s with
  | nil => exact .refl s
  | cons i l ih => exact (hg i s).1.trans (ih (g i s))

/-- A channel that the list does not name stays as it was. -/
theorem foldl'_sameSlot {l : List Nat} (hk : k ∉ l) (s : Chip) : Chip.SameSlot k s (foldl' l g s) := by
  induction l generalizing s with
  | nil => exact .refl k s
  | cons i l ih =>
    obtain ⟨hne, hl⟩ := not_or.mp (mt List.mem_cons.mpr hk)
    exact ((hg i s).sameSlot hne).trans (ih hl (g i s))

/-- A channel that the list names once is acted on as it was, and stays as the action leaves it. -/
theorem foldl'_actsOnce {l : List Nat} (hl : l.Nodup) (hk : k ∈ l) (s : Chip) :
    ∃ u, Chip.SameSlot k s u ∧ Chip.SameSlot k (g k u) (foldl' l g s) := by
  induction l generalizing s with
  | nil => exact absurd hk List.not_mem_nil
  | cons i l ih =>
    obtain ⟨hi, hl⟩ := List.nodup_cons.mp hl
    by_cases hki : k = i
    · subst hki
      exact ⟨s, .refl k s, foldl'_sameSlot hg hi (g k s)⟩
    · obtain ⟨u, hu, hend⟩ := ih hl ((List.mem_cons.mp hk).resolve_left hki) (g i s)
      exact ⟨u, ((hg i s).sameSlot hki).trans hu, hend⟩

end

/-- The enabled channels, each once. -/
def Chip.enabled (s : Chip) : List Nat := (List.range 32).filter s.slOn

theorem Chip.enabled_nodup (s : Chip) : s.enabled.Nodup := List.nodup_range.filter _

theorem Chip.mem_enabled (hk : k < 32) (hon : s.slOn k = true) : k ∈ s.enabled := List.mem_filter.mpr ⟨List.mem_range.mpr hk, hon⟩

/-! ## VIN of a channel leaves its window, or cannot be relied on -/

theorem Chip.vinLeave_onSlot (s : Chip) (k : Nat) : Chip.OnSlot k s (s.vinLeave k) := by
  unfold Chip.vinLeave
  dsimp only
  exact .ite (s.gateFaulted_onSlot k 9 slQualify) (.ite (.modSlot (.refl k s)) (.ite (.setSl (.modSlot (.refl k s))) (.refl k s)))

/-- A channel whose gate is on goes to Qualify with cause 9, and does not trip. -/
theorem Chip.vinLeave_gateOn (h : s.gateOn k = true) : s.vinLeave k = s.gateFaulted k 9 slQualify := by
  unfold Chip.vinLeave
  exact if_pos (by simpa [Chip.gateOn] using h)

/-- The insertion timer of a channel in Qualify stops. -/
theorem Chip.vinLeave_qualify (h : s.slSt k = slQualify) :
    s.vinLeave k = s.modSlot k (fun x => { x with insAt := none, ready := false }) := by
  unfold Chip.vinLeave
  rw [h]
  rfl

/-- The channel acts on VIN_SNS out of range. -/
def vinSnsLost (k : Nat) (s : Chip) : Chip := (s.vinLeave k).feeds k

theorem vinSnsLost_onSlot (k : Nat) (s : Chip) : Chip.OnSlot k s (vinSnsLost k s) := (s.vinLeave_onSlot k).feeds

theorem vinSnsOut_eq {mv : Nat} (hmv : mv < 8500 ∨ 14500 < mv) (hok : s.vinSnsBad = false) :
    vinSnsOut mv s = foldl' s.enabled vinSnsLost { s with vinSnsBad := true } := by
  unfold vinSnsOut
  rw [if_neg]
  · rfl
  · simp only [hok, Bool.false_eq_true, or_false]
    omega

/-- What an enabled channel is after it has acted on VIN_SNS out of range. -/
def Chip.SnsLost (s t : Chip) (k : Nat) : Prop :=
  t.is F.SLT_STS.FEED_A_ON k = false ∧ t.is F.SLT_STS.FEED_B_ON k = false ∧
    t.fld F.SLT_EVT.TRIPS k = s.fld F.SLT_EVT.TRIPS k ∧
    (s.gateOn k = true → t.slSt k = slQualify ∧ t.fld F.SLT_STS.CAUSE k = 9 ∧ t.is F.SLT_STS.PG k = false) ∧
    (s.slSt k = slQualify → t.slSt k = slQualify ∧ (t.slot k).insAt = none)

theorem vinSnsLost_snsLost (h : s.vinSnsBad = true) : s.SnsLost (vinSnsLost k s) k := by
  have hbad : (s.vinLeave k).vinSnsBad = true := (s.vinLeave_onSlot k).1.vinSnsBad.trans h
  refine ⟨Chip.feedA_feeds _ k (.inr (.inl hbad)), Chip.feedB_feeds _ k (.inr (.inl hbad)),
    (vinSnsLost_onSlot k s).1.fld F.SLT_EVT.TRIPS k (by decide), fun hgate => ?_, fun hst => ?_⟩
  · rw [vinSnsLost, Chip.vinLeave_gateOn hgate, Chip.slSt_feeds, Chip.fld_feeds _ _ F.SLT_STS.CAUSE (by decide), Chip.is,
      Chip.fld_feeds _ _ F.SLT_STS.PG (by decide)]
    exact ⟨s.slSt_gateFaulted k 9 (by decide), s.cause_gateFaulted k slQualify (by decide), s.pg_gateFaulted k 9 slQualify⟩
  · rw [vinSnsLost, Chip.vinLeave_qualify hst, Chip.slSt_feeds, Chip.slSt_modSlot, Chip.slot_feeds, Chip.slot_modSlot]
    exact ⟨hst, rfl⟩

/-- What became of the other channels does not matter to it. -/
theorem Chip.SnsLost.ofSame {a b : Chip} (h : a.SnsLost b k) (hs : Chip.SameSlot k s a) (ht : Chip.SameSlot k b t) : s.SnsLost t k := by
  obtain ⟨ha, hb, htrips, hgate, hqualify⟩ := h
  have hcount := (ht.fld F.SLT_EVT.TRIPS (by decide)).trans (htrips.trans (hs.fld F.SLT_EVT.TRIPS (by decide)))
  refine ⟨(ht.is _ (by decide)).trans ha, (ht.is _ (by decide)).trans hb, hcount, fun hon => ?_, fun hst => ?_⟩
  · obtain ⟨hst, hcause, hpg⟩ := hgate (by rw [Chip.gateOn, hs.slSt]; exact hon)
    exact ⟨ht.slSt.trans hst, (ht.fld _ (by decide)).trans hcause, (ht.is _ (by decide)).trans hpg⟩
  · obtain ⟨hst', hins⟩ := hqualify (hs.slSt.trans hst)
    exact ⟨ht.slSt.trans hst', (congrArg SlotX.insAt ht.2.1).trans hins⟩

/-! ## VIN_SNS is back -/

theorem Chip.vinEnter_onSlot (s : Chip) (k : Nat) : Chip.OnSlot k s (s.vinEnter k) := .ite (.modSlot (.refl k s)) (.refl k s)

/-- The channel acts on VIN_SNS back in its range. -/
def vinSnsFound (k : Nat) (s : Chip) : Chip := (if (s.slot k).vinOk then s.vinEnter k else s).feeds k

theorem vinSnsFound_onSlot (k : Nat) (s : Chip) : Chip.OnSlot k s (vinSnsFound k s) := .feeds (.ite (s.vinEnter_onSlot k) (.refl k s))

theorem vinSnsRecover_eq {mv : Nat} (hlo : 9000 ≤ mv) (hhi : mv ≤ 14000) (hbad : s.vinSnsBad = true) :
    vinSnsRecover mv s = foldl' s.enabled vinSnsFound { s with vinSnsBad := false } := by
  unfold vinSnsRecover
  rw [if_neg]
  · rfl
  · simp only [hbad, Bool.true_eq_false, or_false]
    omega

/-- The insertion timer of a channel in Qualify whose VIN is in its window starts again. -/
theorem vinSnsFound_qualify (hst : s.slSt k = slQualify) (hpres : s.slPresent k = true) (hvin : (s.slot k).vinOk = true)
    (hsns : s.vinSnsBad = false) : (vinSnsFound k s).slSt k = slQualify ∧ ((vinSnsFound k s).slot k).insAt = some s.time := by
  have henter : s.vinEnter k = s.modSlot k (fun x => { x with insAt := some s.time, ready := false }) := if_pos ⟨hst, hpres, hsns⟩
  rw [vinSnsFound, if_pos hvin, henter, Chip.slSt_feeds, Chip.slSt_modSlot, Chip.slot_feeds, Chip.slot_modSlot]
  exact ⟨hst, rfl⟩

end

/-! ## The commands -/

section
variable {s : State}

theorem does_vinSnsOutOfRange (hs : s.chip.AtRest) {mv : Nat} (hmv : mv < 8500 ∨ 14500 < mv) (hok : s.chip.vinSnsBad = false) :
    s.Does (.vinSnsOutOfRange mv) fun t => t.chip.vinSnsBad = true ∧ (∀ n ∈ recRegs, ∀ c, t.chip.rd n c = s.chip.rd n c) ∧
      ∀ k, k < 32 → s.chip.slOn k = true → s.chip.SnsLost t.chip k := by
  have hf := vinSnsOut_eq (s := s.fresh) hmv hok
  have hstep := foldl'_slotStep vinSnsLost_onSlot s.fresh.enabled { s.fresh with vinSnsBad := true }
  refine State.does_rest (f := vinSnsOut mv) rfl rfl (hf ▸ hstep.atRest hs) ?_
  rw [hf]
  refine ⟨hstep.vinSnsBad, fun n hn c => hstep.regsKept (by decide) n hn c 0, fun k hk hon => ?_⟩
  obtain ⟨u, hu, hend⟩ :=
    foldl'_actsOnce vinSnsLost_onSlot s.fresh.enabled_nodup (Chip.mem_enabled hk hon) { s.fresh with vinSnsBad := true }
  have hlost : Chip.SnsLost { s.fresh with vinSnsBad := true } _ k := (vinSnsLost_snsLost hu.1.vinSnsBad).ofSame hu hend
  exact hlost

theorem does_vinSnsRecover (hs : s.chip.AtRest) {mv : Nat} (hlo : 9000 ≤ mv) (hhi : mv ≤ 14000) (hbad : s.chip.vinSnsBad = true) :
    s.Does (.vinSnsRecover mv) fun t => t.chip.vinSnsBad = false ∧ (∀ n ∈ recRegs, ∀ c, t.chip.rd n c = s.chip.rd n c) ∧
      ∀ k, k < 32 → s.chip.slOn k = true → s.chip.slSt k = slQualify → s.chip.slPresent k = true → (s.chip.slot k).vinOk = true →
        t.chip.slSt k = slQualify ∧ (t.chip.slot k).insAt = some s.chip.time := by
  have hf := vinSnsRecover_eq (s := s.fresh) hlo hhi hbad
  have hstep := foldl'_slotStep vinSnsFound_onSlot s.fresh.enabled { s.fresh with vinSnsBad := false }
  refine State.does_rest (f := vinSnsRecover mv) rfl rfl (hf ▸ hstep.atRest hs) ?_
  rw [hf]
  refine ⟨hstep.vinSnsBad, fun n hn c => hstep.regsKept (by decide) n hn c 0, fun k hk hon hst hpres hvin => ?_⟩
  obtain ⟨u, hu, hend⟩ :=
    foldl'_actsOnce vinSnsFound_onSlot s.fresh.enabled_nodup (Chip.mem_enabled hk hon) { s.fresh with vinSnsBad := false }
  obtain ⟨hqualify, hins⟩ := vinSnsFound_qualify (hu.slSt.trans hst) ((hu.is F.SLT_STS.PRESENT (by decide)).trans hpres)
    ((congrArg SlotX.vinOk hu.2.1).trans hvin) hu.1.vinSnsBad
  exact ⟨hend.slSt.trans hqualify, (congrArg SlotX.insAt hend.2.1).trans (hins.trans (congrArg some hu.1.time))⟩

end

/-! ## The obligation -/

/-- Settles O58: each command by the lemma about it. -/
theorem slotsTripAndRetry : Obligations.SlotsTripAndRetry := by
  unfold Obligations.SlotsTripAndRetry
  intro s hs
  refine ⟨fun k hk => ⟨fun hgate => ⟨?_, ?_, ?_, fun htemp => ⟨?_, ?_⟩⟩, ?_, fun hcla => ⟨?_, ?_⟩, ?_, ?_, ?_, ?_, ?_⟩, ?_, ?_⟩
  · exact fun j hj => does_slotLimitAct hs hk hgate hj
  · exact fun hcla hdue => does_slotFaultTimerExpire hs hk hgate hcla hdue
  · exact does_slotFastTrip hs hk hgate
  · exact fun hon => does_slotTempTrip hs hk hgate htemp hon
  · exact fun hmode => does_slotDiodeFault hs hk hgate htemp hmode
  · exact fun hcla hft => does_slotFaultTimerZero hs hk hcla hft
  · exact fun hst => does_slotVoutLost_powered hs hk hcla hst
  · exact fun hst => does_slotVoutLost_check hs hk hcla hst
  · exact does_slotTempBelowTjmax hs hk
  · exact fun a ha hst hdue => does_slotRetryExpire hs hk ha hst hdue
  · exact fun a ha hst hdue => exec_slotPowered60s hs hk ha hst hdue
  · exact fun hdis hpass hgate => does_slotPassFault hs hk hdis hpass hgate
  · exact fun b r hon => does_slotFeedReverse hs hk b r hon
  · exact fun mv hmv hok => does_vinSnsOutOfRange hs hmv hok
  · exact fun mv hlo hhi hbad => does_vinSnsRecover hs hlo hhi hbad

end Sys2Proof.Machine
end
